-- ==== Sys2Proof/Word.lean ====
section
/-!
DEFINITION. The word types of the Enzafel M4 and their plainest arithmetic (spec 00_scope.md 4.1, 4.2).
-/
namespace Sys2Proof

/-- A byte, the unit of every layout of 13.3. -/
abbrev Byte := BitVec 8

/-- A 32-bit register, count or field. -/
abbrev Word := BitVec 32

/-- A lane number, 0 to 3 (00 4.2). -/
abbrev LaneId := Fin 4

/-- A volume number, 0 to 7 (00 4.2). -/
abbrev VolId := Fin 8

/-- An entry of the request table (06 R90). -/
abbrev EntryId := Fin 32

/-- A buffer of the staging pool (05 R81). -/
abbrev BufId := Fin 64

/-- A lane mask: lane n stands at bit n (00 4.2). -/
abbrev LaneMask := BitVec 4

/-- The content of one 4096-byte block. Bytes past the end of the list are 0 (log 26). -/
abbrev Block := List Byte

/-- A saturating counter's step (00 4.1): it stops at its largest value. -/
def satInc (w : Word) : Word := if w = BitVec.allOnes 32 then w else w + 1

/-- `satInc` taken `n` times, in one sum. -/
def satAdd (w : Word) (n : Nat) : Word :=
  if w.toNat + n < 2 ^ 32 then BitVec.ofNat 32 (w.toNat + n) else BitVec.allOnes 32

/-- The lanes in ascending order. -/
def allLanes : List LaneId := [0, 1, 2, 3]

/-- The volume numbers in ascending order. -/
def allVols : List VolId := [0, 1, 2, 3, 4, 5, 6, 7]

namespace LaneMask

/-- Lane `l` is named by the mask. -/
def has (m : LaneMask) (l : LaneId) : Bool := m.getLsbD l.val

/-- The mask with lane `l` added. -/
def add (m : LaneMask) (l : LaneId) : LaneMask := m ||| BitVec.ofNat 4 (2 ^ l.val)

/-- The lanes the mask names, ascending. -/
def lanes (m : LaneMask) : List LaneId := allLanes.filter (has m)

/-- The mask naming the lanes of a list. -/
def ofList (ls : List LaneId) : LaneMask := ls.foldl add 0

end LaneMask

end Sys2Proof
end

