-- ==== Sys2Proof/Syntax.lean ====
section
/-!
DEFINITION. The commands of the part: one constructor of `Instr` for each row of spec/opcode_table.json, with the row's
operands: what the host writes, what a module answers, what a transfer brings or how it ends.
-/
namespace Sys2Proof

/-- How a DMA write (or a transfer whose data matters to nobody in the part) ends. -/
inductive DmaEnd
  | done
  | fault
  deriving DecidableEq, Repr

/-- The causes of a departure (03 R43). -/
inductive DepartureCause
  | presenceLost
  | strikes
  | sparesExhausted
  | record
  | retire
  deriving DecidableEq, Repr

/-- The levels sensed by the four tests of the line test, `true` for high (02 R34). -/
structure LineLevels where
  /-- clock sensed while driven low -/
  clockLow : Bool
  /-- clock sensed while driven high -/
  clockHigh : Bool
  /-- data sensed while driven low -/
  dataLow : Bool
  /-- data sensed while driven high -/
  dataHigh : Bool
  deriving DecidableEq, Repr

/-- The commands. A row about a lane names its lane, a row that ends a request's own transfer names the table entry.
A read transfer brings `some` data, or `none` when it faulted. -/
inductive Instr
  -- ENGINE register writes (13 R187)
  | attach
  | halt
  | resume
  | detach
  | abandon
  | engineCommandRefused (code : Word)
  -- NUDGE and AREA register writes (13 R187); `high` names AREA_HI
  | nudge (value : Word)
  | areaWrite (high : Bool) (value : Word)
  -- resets, with the PRESENT levels sensed (13 R192, 02 R19)
  | powerOnReset (levels : LaneMask)
  | portReset (levels : LaneMask)
  -- presence (13 R193, 02 R31, R32)
  | presentLevelChange (lane : LaneId) (level : Bool)
  | presenceLoss (lane : LaneId)
  | presenceArrival (lane : LaneId)
  -- lane link (chapter 2)
  | identReply (lane : LaneId) (serial : BitVec 64) (capacity largest : Word)
  | readReply (lane : LaneId) (statuses : List Byte) (data : List Block)
  | writeReply (lane : LaneId) (statuses : List Byte)
  | fillReply (lane : LaneId) (status : Byte)
  | moduleResend (lane : LaneId)
  | notReady (lane : LaneId)
  | badReply (lane : LaneId)
  | unsolicitedMessage (lane : LaneId)
  | replyTimeout (lane : LaneId)
  | timeoutHoldEnd (lane : LaneId)
  | departureHoldEnd (lane : LaneId)
  | cutHoldEnd (lane : LaneId)
  | notReadyWaitEnd (lane : LaneId)
  | lineTestEnd (lane : LaneId) (sensed : LineLevels)
  | departure (lane : LaneId) (cause : DepartureCause)
  -- requests: the end of the TAKEN write of the slot being taken (11 R172)
  | read (taken : DmaEnd)
  | write (taken : DmaEnd)
  | verify (taken : DmaEnd)
  | defineVolume (taken : DmaEnd)
  | deleteVolume (taken : DmaEnd)
  | freeze (taken : DmaEnd)
  | admitLane (taken : DmaEnd)
  | retire (taken : DmaEnd)
  | probe (taken : DmaEnd)
  | patrolPlan (taken : DmaEnd)
  | patrolControlStart (taken : DmaEnd)
  | patrolControlStop (taken : DmaEnd)
  | snapshot (taken : DmaEnd)
  | refusedKind (taken : DmaEnd)
  -- host buffer transfers of requests
  | defineLabelFetched (entry : EntryId) (label : Option (List Byte))
  | writeDataFetched (entry : EntryId) (data : Option (List Block))
  | readDelivered (entry : EntryId) (result : DmaEnd)
  | patrolPlanFetched (entry : EntryId) (plan : Option (List Byte))
  | snapshotDelivered (entry : EntryId) (result : DmaEnd)
  -- timers
  | holdoffExpiry
  | restExpiry
  | pollTimerExpiry
  -- exchange area transfers
  | consumedCountRead (value : Option Word)
  | slotRead (slot : Option (List Byte))
  | outcomeWrite (result : DmaEnd)
  | doneWrite (result : DmaEnd)
  | doneTallyWrite (result : DmaEnd)
  | headerRead (header : Option (List Byte))
  | attachHeaderWrite (result : DmaEnd)
  | entryWrite (result : DmaEnd)
  | writtenCountWrite (result : DmaEnd)
  | lostCountWrite (result : DmaEnd)
  | reread (value : Option Word)
  | delayTimerExpiry
  deriving DecidableEq, Repr

end Sys2Proof
end

