-- ==== Sys2Proof/WellFormed.lean ====
section
/-!
DEFINITION. Which operands a command can carry: the sizes that its message, register or transfer gives them.
The machine is total and does not rest on these checks; they say what a sender can send.
-/
namespace Sys2Proof

/-- A block's content lists at most 4096 bytes (00 4.1). -/
def Block.wf (b : Block) : Bool := b.length ≤ 4096

/-- A read of a host buffer or of the exchange area brings exactly the bytes asked for. -/
def bytesOf (n : Nat) (d : Option (List Byte)) : Bool :=
  match d with
  | none => true
  | some bs => bs.length = n

/-- The operand checks, one for each command that carries sized operands. -/
def Instr.wf (i : Instr) : Bool :=
  match i with
  | .readReply _ statuses data =>
      1 ≤ statuses.length && statuses.length ≤ 16 && data.length ≤ statuses.length && data.all Block.wf
  | .writeReply _ statuses => 1 ≤ statuses.length && statuses.length ≤ 16
  | .defineLabelFetched _ label => bytesOf 16 label
  | .writeDataFetched _ data =>
      match data with
      | none => true
      | some bs => 1 ≤ bs.length && bs.length ≤ 16 && bs.all Block.wf
  | .patrolPlanFetched _ plan => bytesOf 128 plan
  | .slotRead slot => bytesOf 64 slot
  | .headerRead header => bytesOf 256 header
  | .attach | .halt | .resume | .detach | .abandon => true
  | .engineCommandRefused _ | .nudge _ | .areaWrite _ _ | .powerOnReset _ | .portReset _ => true
  | .presentLevelChange _ _ | .presenceLoss _ | .presenceArrival _ => true
  | .identReply _ _ _ _ | .fillReply _ _ | .moduleResend _ | .notReady _ | .badReply _ => true
  | .unsolicitedMessage _ | .replyTimeout _ | .timeoutHoldEnd _ | .departureHoldEnd _ | .cutHoldEnd _ => true
  | .notReadyWaitEnd _ | .lineTestEnd _ _ | .departure _ _ => true
  | .read _ | .write _ | .verify _ | .defineVolume _ | .deleteVolume _ | .freeze _ => true
  | .admitLane _ | .retire _ | .probe _ | .patrolPlan _ | .patrolControlStart _ | .patrolControlStop _ => true
  | .snapshot _ | .refusedKind _ => true
  | .readDelivered _ _ | .snapshotDelivered _ _ => true
  | .holdoffExpiry | .restExpiry | .pollTimerExpiry | .consumedCountRead _ => true
  | .outcomeWrite _ | .doneWrite _ | .doneTallyWrite _ | .attachHeaderWrite _ => true
  | .entryWrite _ | .writtenCountWrite _ | .lostCountWrite _ | .reread _ | .delayTimerExpiry => true

end Sys2Proof
end

