-- ==== Sys2Proof/Decode.lean ====
section
/-!
DEFINITION. The decoder of the table's bits. The part has no instruction words: no row of spec/opcode_table.json gives
bits (every row's "fields" is empty), so no word spells a command.
-/
namespace Sys2Proof

/-- The command that the word `w` of `nbits` bits spells: none, since no row of the table gives bits. -/
def decodeTableWord (_nbits _w : Nat) : Option Instr := none

end Sys2Proof
end

