-- ==== Sys2Proof/Config.lean ====
section
/-!
DEFINITION. The figures the part fixes (00_scope.md 6) and the free values: what the manual leaves open, as constants
without a body, so that nothing can be proved about their value.
-/
namespace Sys2Proof.Config

/-- Entries of the discrepancy list (08 R122). -/
def listSize : Nat := 32
/-- Places of a lane queue (05 R75). -/
def queuePlaces : Nat := 16
/-- Buffers of the staging pool (05 R81). -/
def poolSize : Nat := 64
/-- Spare blocks of a lane (07 7.1). -/
def spareCount : Nat := 256
/-- Spare-next value that passes SPARES_LOW (07 R119). -/
def sparesLowAt : Nat := 224
/-- Events of the journal backlog (12 R182). -/
def backlogSize : Nat := 16
/-- RESENDs, either way, that one transaction survives (02 R24, R25). -/
def resendLimit : Nat := 3
/-- NOT_READY retries of one transaction (02 R27). -/
def notReadyLimit : Nat := 50
/-- Smallest capacity a module may report (02 R22). -/
def leastCapacity : Nat := 1024
/-- Smallest largest-count a module may report (02 R22). -/
def leastLargest : Nat := 16
/-- Largest count of a READ or WRITE (02 R21). -/
def maxCount : Nat := 16
/-- Blocks of one FILL piece (01 R14). -/
def fillPiece : Nat := 65536
/-- Blocks of one patrol chunk (09 9.4). -/
def patrolChunk : Nat := 8
/-- Blocks of one rebuild chunk (10 R155). -/
def rebuildChunk : Nat := 16
/-- Blocks checked between checkpoints (09 R146). -/
def checkpointEvery : Nat := 4096
/-- The window of the exchange area (11 11.1). -/
def window : Nat := 2 ^ 20
/-- Strike budget of an ADMIT whose parameter is 0 (03 R52). -/
def defaultBudget : Nat := 8
/-- Share ratio of a header field of 0 (05 R78). -/
def defaultShare : Nat := 4
/-- Tasks one step carries out before it leaves the rest to the next step (log 5, DESIGN CHOICE, safe). -/
def stepFuel : Nat := 65536

/-- The part's internal number source (04 R65), a free value: the n-th number drawn. Log 12, safe. -/
opaque numberSource : Nat → BitVec 64

/-- The generation after the largest 64-bit generation (04 R59 states none), a free value. Log 13, safe. -/
opaque generationAfterLast : BitVec 64

/-- Whether the REBUILD event of an abort reaches the journal writer before the LANE_STATE event of the departure
(10 R163 leaves the order open), a free value. Log 14, safe. -/
opaque rebuildEventFirst : Nat → Bool

end Sys2Proof.Config
end

