-- ==== Sys2Proof/Machine/State.lean ====
section
/-!
DEFINITION. The state of the part as plain data, block by block (spec 00_scope.md 2.2), and its value at reset.
-/
namespace Sys2Proof.Machine

/-! ## Engine control and the PCIe port (chapter 13) -/

/-- Engine states (13.1). -/
inductive EngineState
  | detached | attaching | running | halting | halted | detaching | faulted
  deriving DecidableEq, Repr

/-- Attach errors (13.1). -/
inductive AttachError
  | none | mark | layout | bus
  deriving DecidableEq, Repr

/-- Fault causes (13.1). -/
inductive FaultCause
  | none | slot | header | journal | consumed
  deriving DecidableEq, Repr

/-- How far ATTACH has come while the engine is ATTACHING (R188, R167, R68, R73). -/
inductive AttachStep
  | idle | headerRead | tallyWrite | writtenWrite | lostWrite | identifying | firstCommits
  deriving DecidableEq, Repr

/-- A commit waiter mark, and a departure hold mark (R46, R63). -/
inductive WaitMark
  | none | waiting | bound
  deriving DecidableEq, Repr

/-- The AREA registers, which only AREA_WRITE and the resets change (R187). -/
structure Port where
  areaLo : Word
  areaHi : Word
  deriving DecidableEq, Repr

/-- Engine control. -/
structure Engine where
  state : EngineState
  refused : Bool
  attachError : AttachError
  faultCause : FaultCause
  /-- the exchange area base latched at ATTACH -/
  base : BitVec 64
  attach : AttachStep
  /-- engine control's waiter mark during ATTACHING and DETACHING (R63) -/
  mark : WaitMark
  /-- share ratio S of all lanes (R78) -/
  share : Nat
  deriving DecidableEq, Repr

/-! ## Lanes (chapters 2, 3, 5, 7) -/

/-- Runtime lane states (3.1). -/
inductive RuntimeState
  | empty | identifying | foreign | stale | online | rebuilding | failed | offline | probing
  deriving DecidableEq, Repr

/-- Recorded lane states (3.2). -/
inductive RecordedState
  | unbound | online | rebuilding | failed | offline | departed
  deriving DecidableEq, Repr

/-- Causes of a LANE_STATE event (R42). -/
inductive LaneCause
  | arrival | identFailed | presenceLost | strikes | sparesExhausted | record | retire | admitLane | rebuildDone
  deriving DecidableEq, Repr

/-- Block statuses (2.2). -/
inductive Status
  | good | corrected | unreadable | writeFault | range
  deriving DecidableEq, Repr

/-- A command of the part to a module (2.2). -/
inductive Command
  | ident
  | read (block count : Nat)
  | write (block : Nat) (data : List Block)
  | fill (block count : Nat)
  deriving DecidableEq, Repr

/-- A message the part sent: a command, or RESEND. -/
inductive Sent
  | command (c : Command)
  | resend
  deriving DecidableEq, Repr

/-- Phase of a transaction; it fixes the timer that runs (R23). -/
inductive TxnPhase
  | awaiting | notReadyWait | timeoutHold
  deriving DecidableEq, Repr

/-- The transaction outstanding on a lane (R23). -/
structure Txn where
  cmd : Command
  replyResends : Nat
  commandResends : Nat
  notReady : Nat
  phase : TxnPhase
  deriving DecidableEq, Repr

/-- Service classes (R74). -/
inductive OpClass
  | record | foreground | background
  deriving DecidableEq, Repr

/-- Kinds of lane operation (5.1). -/
inductive OpKind
  | read | write | fill
  deriving DecidableEq, Repr

/-- Producers of lane operations (R74). -/
inductive Producer
  | request (e : EntryId) | patrol | rebuild | repair | committer
  deriving DecidableEq, Repr

/-- A buffer reference: one buffer of the pool, or a lane's record buffer. -/
inductive BufRef
  | staging (b : BufId) | record (l : LaneId)
  deriving DecidableEq, Repr

/-- A lane operation (5.1). -/
structure LaneOp where
  cls : OpClass
  kind : OpKind
  start : Nat
  count : Nat
  bufs : List BufRef
  producer : Producer
  /-- the remap mark of a repair remap call (R118) -/
  remapCall : Bool
  deriving DecidableEq, Repr

/-- How a lane operation ends (R80); `remapped` is the report R132 reads. -/
inductive OpEnd
  | completed (results : List Status) (remapped : Bool)
  | laneLost
  deriving DecidableEq, Repr

/-- One link transaction of an operation, fixed at dispatch (R79): `pos` is the place of its first block in the
operation, `block` the lane block it is sent to. -/
structure Piece where
  kind : OpKind
  block : Nat
  count : Nat
  pos : Nat
  deriving DecidableEq, Repr

/-- The trial of a remap (R113): data block, its data, the spare on trial, and whether the readback is due or out. -/
structure Trial where
  block : Nat
  data : Block
  spare : Nat
  reading : Bool
  deriving DecidableEq, Repr

/-- The operation in service (R79, R80). -/
structure Service where
  op : LaneOp
  /-- transactions still to begin -/
  todo : List Piece
  /-- the transaction outstanding, when it is not a trial's -/
  cur : Option Piece
  /-- zero WRITE transactions still to begin after a FILL WRITE_FAULT (R30) -/
  zeros : List Piece
  /-- data blocks of the last transaction still to be remapped, with their data (R112) -/
  faults : List (Nat × Block)
  trial : Option Trial
  results : List Status
  remapped : Bool
  /-- cut by a departure; ends LANE_LOST when HOLD is deasserted (R44) -/
  ending : Bool
  deriving DecidableEq, Repr

/-- What asserted the HOLD pulse under way (R19). -/
inductive Pulse
  | timeout | departure | cut
  deriving DecidableEq, Repr

/-- A line test under way: the state it replaced and the PROBE request (R34). -/
structure LineTest where
  remembered : RuntimeState
  entry : EntryId
  deriving DecidableEq, Repr

/-- Identification under way (R32): IDENT, or the record slot READ with the values of the IDENT reply. -/
inductive IdentStep
  | ident
  | slots (serial : BitVec 64) (capacity largest : Word)
  deriving DecidableEq, Repr

/-- The seven lane counters (R37). -/
structure Counters where
  transactions : Word
  resends : Word
  timeouts : Word
  notReadyRetries : Word
  corrected : Word
  unreadable : Word
  writeFaults : Word
  deriving DecidableEq, Repr

/-- A lane controller. -/
structure Lane where
  /-- sensed (qualified) PRESENT level (R19, R193) -/
  present : Bool
  /-- raw LnPRS level, and whether it is inside its 1 ms qualification (R193) -/
  raw : Bool
  qualifying : Bool
  /-- HOLD pulse under way -/
  pulse : Option Pulse
  lastSent : Option Sent
  /-- a presence change held during ATTACHING (R33), and whether the level fell -/
  held : Bool
  fell : Bool
  /-- the lane was absent when assembly began and the engine is not yet RUNNING (R33) -/
  absent : Bool
  runtime : RuntimeState
  lineTest : Option LineTest
  identification : Option IdentStep
  recorded : RecordedState
  boundSerial : BitVec 64
  /-- strike budget; also the lane table entry's (R40, R48) -/
  budget : Nat
  identified : Bool
  serial : BitVec 64
  capacity : Word
  largest : Word
  counters : Counters
  /-- lane block and spare index, in order of insertion (R111) -/
  remap : List (Nat × Nat)
  spareNext : Nat
  deadSpares : Nat
  sparesLow : Bool
  readback : Block
  service : Option Service
  /-- QUEUED operations, oldest first -/
  queue : List LaneOp
  /-- operations waiting for a place (R76) -/
  waiters : List LaneOp
  streak : Nat
  txn : Option Txn
  deriving DecidableEq, Repr

/-! ## Volumes, plan and set record (chapters 1, 4, 9) -/

/-- Volume states (1.2). -/
inductive VolumeState
  | filling | active | degraded | lost
  deriving DecidableEq, Repr

/-- Read policies (1.2). -/
inductive Policy
  | fixed | spread
  deriving DecidableEq, Repr

/-- A volume table entry (1.2) with the volume number's departure hold mark (R46). -/
structure Volume where
  inUse : Bool
  state : VolumeState
  members : LaneMask
  reference : LaneId
  policy : Policy
  first : Nat
  length : Nat
  label : List Byte
  rotation : LaneId
  hold : WaitMark
  deriving DecidableEq, Repr

/-- Patrol states (9.1). -/
inductive PatrolState
  | idle | holdoff | running | waiting | resting | done
  deriving DecidableEq, Repr

/-- A span of the plan (9.2). -/
structure Span where
  volume : VolId
  first : Nat
  count : Nat
  deriving DecidableEq, Repr

/-- The patrol plan (9.2). -/
structure Plan where
  spans : List Span
  repeats : Bool
  rest : Nat
  holdoff : Nat
  deriving DecidableEq, Repr

/-- The patrol checkpoint (9.1). -/
structure Checkpoint where
  span : Nat
  offset : Nat
  pass : Word
  deriving DecidableEq, Repr

/-- A lane table entry of a set record (3.2). -/
structure LaneEntry where
  recorded : RecordedState
  serial : BitVec 64
  budget : Nat
  deriving DecidableEq, Repr

/-- A volume entry of a set record (4.2). -/
structure VolumeEntry where
  number : VolId
  members : LaneMask
  reference : LaneId
  policy : Policy
  first : Nat
  length : Nat
  label : List Byte
  deriving DecidableEq, Repr

/-- The contents of a set record (4.2). -/
structure SetRecord where
  serial : BitVec 64
  generation : BitVec 64
  clean : Bool
  lanes : Vector LaneEntry 4
  volumes : List VolumeEntry
  plan : Option Plan
  patrol : PatrolState
  checkpoint : Checkpoint
  position : LaneId
  remap : List (Nat × Nat)
  spareNext : Nat
  deadSpares : Nat
  deriving DecidableEq, Repr

/-- Record slots (00 4.2): A is lane block 0, B lane block 1. -/
inductive RecordSlot
  | a | b
  deriving DecidableEq, Repr

/-- End of a target's record write in the commit in flight (R61). `faultAsked`: WRITE_FAULT was reported and the departure
request with cause RECORD has not yet been taken (log 15). -/
inductive WriteEnd
  | pending | written | faultAsked | faulted | lost
  deriving DecidableEq, Repr

/-- The commit in flight (4.1). -/
structure Commit where
  generation : BitVec 64
  clean : Bool
  targets : LaneMask
  ends : Vector WriteEnd 4
  deriving DecidableEq, Repr

/-- The record committer (4.1). -/
structure Committer where
  serial : BitVec 64
  generation : BitVec 64
  clean : Bool
  requested : Bool
  inFlight : Option Commit
  slotInUse : Vector (Option RecordSlot) 4
  fresh : Vector Bool 4
  buffers : Vector (Option Block) 4
  /-- newest valid record of each lane, from its last identification (R57) -/
  newest : Vector (Option SetRecord) 4
  /-- set serials read from valid records during the assembly of this attachment (R65) -/
  seen : List (BitVec 64)
  deriving DecidableEq, Repr

/-! ## Locks and buffers (chapter 5) -/

/-- Holders of locks and buffers (R81, R85). -/
inductive Holder
  | request (e : EntryId) | patrol | rebuild | repair
  deriving DecidableEq, Repr

/-- An extent lock, granted or waiting (R85). -/
structure Lock where
  holder : Holder
  volume : VolId
  first : Nat
  count : Nat
  exclusive : Bool
  deriving DecidableEq, Repr

/-- The extent lock table. -/
structure Locks where
  granted : List Lock
  waiting : List Lock
  deriving DecidableEq, Repr

/-- The staging pool: the holder of each buffer, the wait list with each need, and the buffers' contents. -/
structure Pool where
  holders : Vector (Option Holder) 64
  waiting : List (Holder × Nat)
  data : Vector Block 64
  deriving DecidableEq, Repr

/-! ## Requests (chapters 6, 11, 13.3) -/

/-- The request fields of a slot, as copied when it is taken (R90). -/
structure Request where
  kind : Byte
  flags : Byte
  target : Byte
  tag : Word
  first : Word
  count : BitVec 16
  selector : Byte
  parameter : Byte
  address : BitVec 64
  defFirst : Word
  defLength : Word
  defMembers : Byte
  /-- bytes 33 to 47 are all 0 -/
  reservedZero : Bool
  deriving DecidableEq, Repr

/-- Entry states (R91). `taking`: the slot's TAKEN write has not ended, so the entry has not entered RECEIVED (R172). -/
inductive EntryState
  | taking | received | waitLock | waitBuffers | fetching | atLanes | waitCommit | delivering | finishing
  deriving DecidableEq, Repr

/-- Outcomes (13.3). -/
inductive ReqOutcome
  | ok | recovered | degraded | different | failedMedia | busFault | lost
  | refusedKind | refusedFormat | refusedVolume | refusedRange | refusedLane | refusedBusy | refusedFrozen
  | refusedCapacity | refusedLastCopy
  deriving DecidableEq, Repr

/-- One block being read from one copy after another (R97, R157): the lane that resolved it, whether CORRECTED, and the
lanes noted failed in the order tried. -/
structure BlockTry where
  source : Option LaneId
  weak : Bool
  failed : List LaneId
  deriving DecidableEq, Repr

/-- A READ at the lanes (R96 to R101). -/
structure ReadWork where
  named : Bool
  firstLane : LaneId
  /-- lanes tried so far, in order -/
  tried : List LaneId
  blocks : List BlockTry
  outstanding : Nat
  /-- lanes whose operations ended completed -/
  completed : LaneMask
  deriving DecidableEq, Repr

/-- A WRITE at the lanes (R102 to R104). -/
structure WriteWork where
  /-- waiting on the departure hold, targets not fixed -/
  waitsHold : Bool
  targets : LaneMask
  completed : LaneMask
  lost : LaneMask
  deriving DecidableEq, Repr

/-- A VERIFY (R106 to R109): its read lanes, those of them that departed before its buffers were granted (R83), and what each
completed operation read. -/
structure VerifyWork where
  lanes : List LaneId
  got : List (LaneId × List Status)
  outstanding : Nat
  gone : LaneMask
  deriving DecidableEq, Repr

/-- One member's progress in a ZERO fill (R14, R15). -/
structure FillLane where
  lane : LaneId
  next : Nat
  outstanding : Bool
  lost : Bool
  waitsHold : Bool
  deriving DecidableEq, Repr

/-- What a request holds beside its fields, by kind. `fillLeft` counts the pieces of a fill that has ended which have not ended
themselves (R15). -/
inductive Work
  | none
  | read (w : ReadWork)
  | write (w : WriteWork)
  | verify (w : VerifyWork)
  | fill (pieces : Nat) (members : List FillLane)
  | fillLeft (outstanding : Nat)
  deriving DecidableEq, Repr

/-- An entry of the request table in use (R90). -/
structure Entry where
  slot : Nat
  req : Request
  state : EntryState
  work : Work
  mark : WaitMark
  outcome : ReqOutcome
  laneMask : LaneMask
  detailA : Word
  detailB : Word
  deriving DecidableEq, Repr

/-! ## Discrepancy list and repair (chapter 8) -/

/-- Kinds of discrepancy (8.1). -/
inductive DiscKind
  | unreadable | mismatch | weak
  deriving DecidableEq, Repr

/-- Origins (8.1, 13.3). -/
inductive Origin
  | read | verify | patrol | recovery | rebuild | repair
  deriving DecidableEq, Repr

/-- A discovery on its way to the repair unit (8.2). -/
structure Discovery where
  lane : LaneId
  volume : VolId
  block : Nat
  kind : DiscKind
  origin : Origin
  tag : Word
  deriving DecidableEq, Repr

/-- An entry of the discrepancy list (8.1). -/
structure DiscEntry where
  lane : LaneId
  volume : VolId
  block : Nat
  kind : DiscKind
  origin : Origin
  number : Word
  inRepair : Bool
  deriving DecidableEq, Repr

/-- Read status of a lane in the revote (R129). -/
inductive VoteStatus
  | unread | failed | readable
  deriving DecidableEq, Repr

/-- A lane of the revote: its group is the representative lane, or unplaced. -/
structure Vote where
  lane : LaneId
  status : VoteStatus
  weak : Bool
  group : Option LaneId
  deriving DecidableEq, Repr

/-- Phases of a repair (8.4). -/
inductive RepairPhase
  | lock | buffers | revote | content | hold | rewrite | readback | remap
  deriving DecidableEq, Repr

/-- The repair unit's work on one entry. -/
structure RepairWork where
  lane : LaneId
  volume : VolId
  block : Nat
  origin : Origin
  number : Word
  phase : RepairPhase
  /-- a lane operation of the unit has not ended -/
  outstanding : Bool
  /-- the entry was removed by the departure of its lane (R134) -/
  gone : Bool
  votes : List Vote
  /-- lanes still to be read in this pass of the revote -/
  todo : List LaneId
  /-- lane being read -/
  current : Option LaneId
  /-- representative of this pass, whose copy is in A -/
  rep : Option LaneId
  /-- group whose representative's copy A last received -/
  aGroup : Option LaneId
  /-- the rewrite was reported remapped (R132) -/
  remapped : Bool
  deriving DecidableEq, Repr

/-- The repair unit (R121). -/
structure Repair where
  list : List DiscEntry
  dropped : Word
  episode : Bool
  counter : Word
  /-- the room waiter's pending discoveries; empty when there is no waiter (R126) -/
  waiter : List Discovery
  work : Option RepairWork
  paused : Bool
  deriving DecidableEq, Repr

/-! ## Patrol (chapter 9) -/

/-- Phases of a patrol chunk (9.4). -/
inductive ChunkPhase
  | lock | buffers | reads | settle
  deriving DecidableEq, Repr

/-- A patrol chunk in flight. `gone` names the read lanes that departed before its buffers were granted (R83). -/
structure PatrolChunk where
  volume : VolId
  first : Nat
  count : Nat
  phase : ChunkPhase
  lanes : List LaneId
  got : List (LaneId × List Status)
  outstanding : Nat
  gone : LaneMask
  deriving DecidableEq, Repr

/-- The patrol unit (9.1). During the recovery pass the cursor is `recovery`'s head and `offset`. -/
structure Patrol where
  plan : Option Plan
  state : PatrolState
  span : Nat
  offset : Nat
  resumeSpan : Nat
  resumeOffset : Nat
  pass : Word
  checked : Word
  made : Word
  unrecoverable : Word
  checkpoint : Checkpoint
  sinceCheckpoint : Nat
  holdoff : Nat
  rest : Nat
  marker : Bool
  /-- volumes of the recovery list not yet walked or skipped (R150) -/
  recovery : List VolId
  chunk : Option PatrolChunk
  stops : List EntryId
  paused : Bool
  deriving DecidableEq, Repr

/-! ## Rebuild (chapter 10) -/

/-- Work states of the rebuild unit (10.1). -/
inductive RebuildState
  | idle | running | held
  deriving DecidableEq, Repr

/-- Phases of a rebuild chunk (10.1). -/
inductive RebuildPhase
  | lock | buffers | source | hold | write
  deriving DecidableEq, Repr

/-- A rebuild chunk in flight. -/
structure RebuildChunk where
  volume : VolId
  first : Nat
  count : Nat
  phase : RebuildPhase
  order : List LaneId
  tried : List LaneId
  blocks : List BlockTry
  outstanding : Nat
  deriving DecidableEq, Repr

/-- The rebuild unit (10.1). `passed`: the cursor has passed the last volume of the list. -/
structure Rebuild where
  state : RebuildState
  target : Option LaneId
  volumes : List VolId
  cursorVol : VolId
  cursorBlock : Nat
  passed : Bool
  skip : BitVec 8
  copied : Word
  unrecoverable : Word
  chunk : Option RebuildChunk
  /-- the target has departed and the chunk's lock and buffers are not yet released (R163) -/
  aborting : Bool
  paused : Bool
  deriving DecidableEq, Repr

/-! ## Docket, journal, interrupt (chapters 11, 12) -/

/-- A sweep in flight (R172): the slot to examine or being examined, the slots examined, the last slot taken, whether its
consumed count read has ended, and whether a HALT has stopped it (R176). -/
structure Sweep where
  slot : Nat
  examined : Nat
  lastTaken : Option Nat
  consumed : Bool
  stop : Bool
  deriving DecidableEq, Repr

/-- The docket unit's transfer in hand (11.3). `own` is clear for a read whose sweep a HALT ended (log 17). -/
inductive DocketXfer
  | consumedRead (own : Bool)
  | slotRead (slot : Nat) (own : Bool)
  | takenWrite (e : EntryId)
  | outcomeWrite (e : EntryId)
  | doneWrite (e : EntryId)
  | tallyWrite (e : EntryId)
  deriving DecidableEq, Repr

/-- The docket unit (11.3). -/
structure Docket where
  offset : Nat
  slots : Nat
  position : Nat
  sweep : Option Sweep
  rerun : Bool
  deferred : Bool
  pollInterval : Nat
  pollRunning : Bool
  tally : Word
  completions : List EntryId
  xfer : Option DocketXfer
  deriving DecidableEq, Repr

/-- Event kinds (12.1). -/
inductive EventKind
  | laneState | volumeState | repaired | unrecoverable | sparesLow | listFull | patrol | rebuild | assembly
  deriving DecidableEq, Repr

/-- The fields of a journal entry but its sequence (12.1), states and causes as their codes of 13.3. -/
structure Event where
  kind : EventKind
  lane : Option LaneId
  volume : Option VolId
  cause : Byte
  old : Byte
  new : Byte
  block : Word
  value1 : Word
  value2 : Word
  tag : Word
  deriving DecidableEq, Repr

/-- An event placed, with its sequence (R182). -/
structure Placed where
  sequence : Word
  event : Event
  deriving DecidableEq, Repr

/-- The journal writer's transfer in hand (12.2); the lost count written is the value when the write began (R183). -/
inductive JournalXfer
  | entryWrite | writtenWrite | lostWrite (value : Word) | reread
  deriving DecidableEq, Repr

/-- The journal writer (12.2). -/
structure Journal where
  offset : Nat
  entries : Nat
  written : Word
  headerWritten : Word
  lastRead : Word
  backlog : List Event
  writeList : List Placed
  lost : Word
  lostDue : Bool
  rereadDue : Bool
  xfer : Option JournalXfer
  deriving DecidableEq, Repr

/-- The interrupt unit (12.3), the PCIe message enable, and the model's own counts of messages raised and sent. -/
structure Interrupt where
  items : Nat
  timer : Bool
  count : Nat
  delay : Nat
  enabled : Bool
  raised : Nat
  sent : Nat
  deriving DecidableEq, Repr

/-! ## The part -/

/-- Work one block has handed another in this step and that is not yet taken (log 5). -/
inductive Task
  | laneStart (l : LaneId)
  | opEnded (l : LaneId) (op : LaneOp) (result : OpEnd)
  | lockGranted (h : Holder)
  | buffersGranted (h : Holder)
  | holdCleared (v : VolId)
  | waiterDone (e : EntryId)
  | commitTest
  | commitDone
  | fillTest (e : EntryId)
  | repairTake
  | repairLeave
  | repairGo
  | patrolTry
  | patrolSettle
  | rebuildBegin
  | rebuildLeave
  | assemble
  deriving DecidableEq, Repr

/-- Every block of the part but the AREA registers. -/
structure Part where
  engine : Engine
  docket : Docket
  table : Vector (Option Entry) 32
  volumes : Vector Volume 8
  frozen : Bool
  locks : Locks
  pool : Pool
  lanes : Vector Lane 4
  committer : Committer
  repair : Repair
  patrol : Patrol
  rebuild : Rebuild
  journal : Journal
  interrupt : Interrupt
  /-- the counter the free values are drawn with (logs 12, 14): the model's own -/
  free : Nat
  agenda : List Task
  deriving DecidableEq, Repr

/-- The state of the machine: the AREA registers, the part, and the queue of commands, first in first out (log 1). -/
structure State where
  port : Port
  part : Part
  pending : List Instr
  deriving DecidableEq, Repr

/-- The faults of the machine: none. The spec names nothing that stops the part; a transfer that faults is a next state
(R191). No meaning raises one. -/
inductive Fault
  deriving DecidableEq, Repr

/-- The refusals of the machine. -/
inductive Refusal
  /-- a command without a meaning, raised by an arm of `exec` only; safe. No arm raises it. -/
  | notModelled (mnemonic : String)
  deriving DecidableEq, Repr

/-! ## Reset values -/

/-- The counters after reset (R37). -/
def Counters.zero : Counters := ⟨0, 0, 0, 0, 0, 0, 0⟩

/-- A lane at reset, with the PRESENT level sensed (R19, R39, R75, R110). -/
def Lane.reset (level : Bool) : Lane where
  present := level
  raw := level
  qualifying := false
  pulse := none
  lastSent := none
  held := false
  fell := false
  absent := false
  runtime := .empty
  lineTest := none
  identification := none
  recorded := .unbound
  boundSerial := 0
  budget := 0
  identified := false
  serial := 0
  capacity := 0
  largest := 0
  counters := .zero
  remap := []
  spareNext := 0
  deadSpares := 0
  sparesLow := false
  readback := []
  service := none
  queue := []
  waiters := []
  streak := 0
  txn := none

/-- A clear volume table entry (R2): in-use clear, every other field 0. -/
def Volume.clear : Volume where
  inUse := false
  state := .filling
  members := 0
  reference := 0
  policy := .fixed
  first := 0
  length := 0
  label := List.replicate 16 0
  rotation := 0
  hold := .none

/-- The committer at reset and on entry into DETACHED (R55). -/
def Committer.reset : Committer where
  serial := 0
  generation := 0
  clean := false
  requested := false
  inFlight := none
  slotInUse := .replicate 4 none
  fresh := .replicate 4 false
  buffers := .replicate 4 none
  newest := .replicate 4 none
  seen := []

/-- The lock table at reset (R85). -/
def Locks.empty : Locks := ⟨[], []⟩

/-- The pool at reset (R81). -/
def Pool.empty : Pool := ⟨.replicate 64 none, [], .replicate 64 []⟩

/-- The repair unit at reset (R121). -/
def Repair.reset : Repair := ⟨[], 0, false, 0, [], none, false⟩

/-- The patrol unit at reset (R136). -/
def Patrol.reset : Patrol where
  plan := none
  state := .idle
  span := 0
  offset := 0
  resumeSpan := 0
  resumeOffset := 0
  pass := 0
  checked := 0
  made := 0
  unrecoverable := 0
  checkpoint := ⟨0, 0, 0⟩
  sinceCheckpoint := 0
  holdoff := 0
  rest := 0
  marker := false
  recovery := []
  chunk := none
  stops := []
  paused := false

/-- The rebuild unit at reset (R153). -/
def Rebuild.reset : Rebuild := ⟨.idle, none, [], 0, 0, false, 0, 0, 0, none, false, false⟩

/-- The docket unit at reset (R169). -/
def Docket.reset : Docket where
  offset := 0
  slots := 0
  position := 0
  sweep := none
  rerun := false
  deferred := false
  pollInterval := 0
  pollRunning := false
  tally := 0
  completions := []
  xfer := none

/-- The journal writer at reset (R181). With no journal place the offset and entry count are 0, values of the model (log 8). -/
def Journal.reset : Journal := ⟨0, 0, 0, 0, 0, [], [], 0, false, false, none⟩

/-- The interrupt unit at reset (R186); the message enable is the PCI Express reset value (log 7, PRESUMED), and the interrupt
count and delay of no attachment are 0, values of the model (log 8). -/
def Interrupt.reset : Interrupt := ⟨0, false, 0, 0, false, 0, 0⟩

/-- Engine control at reset (R187, R78). -/
def Engine.reset : Engine where
  state := .detached
  refused := false
  attachError := .none
  faultCause := .none
  base := 0
  attach := .idle
  mark := .none
  share := 4

/-- The AREA registers at reset (R187). -/
def Port.reset : Port := ⟨0, 0⟩

/-- Every block at its reset values, with the PRESENT levels sensed (R192). -/
def Part.reset (levels : LaneMask) : Part where
  engine := .reset
  docket := .reset
  table := .replicate 32 none
  volumes := .replicate 8 .clear
  frozen := false
  locks := .empty
  pool := .empty
  lanes := #v[.reset (levels.has 0), .reset (levels.has 1), .reset (levels.has 2), .reset (levels.has 3)]
  committer := .reset
  repair := .reset
  patrol := .reset
  rebuild := .reset
  journal := .reset
  interrupt := .reset
  free := 0
  agenda := []

/-- The machine right after power-on reset with no module attached (log 6) and no command waiting. -/
def State.reset : State := ⟨.reset, .reset 0, []⟩

end Sys2Proof.Machine
end

