-- ==== Sys2Proof/Machine/Ops.lean ====
section
/-!
DEFINITION. The named operations the blocks share: reading and writing each block's part of the state, handing work on,
byte order, the cyclic check code, and the content of blocks.
-/
namespace Sys2Proof.Machine

/-! ## Access to lanes, volumes, table entries and buffers -/

def Part.lane (p : Part) (l : LaneId) : Lane := p.lanes[l.val]

def Part.setLane (p : Part) (l : LaneId) (x : Lane) : Part := { p with lanes := p.lanes.set l.val x }

def Part.modLane (p : Part) (l : LaneId) (f : Lane → Lane) : Part := p.setLane l (f (p.lane l))

def Part.vol (p : Part) (v : VolId) : Volume := p.volumes[v.val]

def Part.setVol (p : Part) (v : VolId) (x : Volume) : Part := { p with volumes := p.volumes.set v.val x }

def Part.modVol (p : Part) (v : VolId) (f : Volume → Volume) : Part := p.setVol v (f (p.vol v))

def Part.entry (p : Part) (e : EntryId) : Option Entry := p.table[e.val]

def Part.setEntry (p : Part) (e : EntryId) (x : Option Entry) : Part := { p with table := p.table.set e.val x }

/-- Change a table entry that is in use; a free entry stays free. -/
def Part.modEntry (p : Part) (e : EntryId) (f : Entry → Entry) : Part := p.setEntry e ((p.entry e).map f)

def Part.buffer (p : Part) (b : BufId) : Block := p.pool.data[b.val]

def Part.setBuffer (p : Part) (b : BufId) (x : Block) : Part :=
  { p with pool := { p.pool with data := p.pool.data.set b.val x } }

/-- Hand tasks on, behind those already handed (log 5). -/
def Part.push (p : Part) (ts : List Task) : Part := { p with agenda := p.agenda ++ ts }

/-- The table entries, in order. -/
def allEntries : List EntryId := List.finRange 32

/-- The buffers, in order. -/
def allBufs : List BufId := List.finRange 64

/-- The table entries in use, in order, with their contents. -/
def Part.entries (p : Part) : List (EntryId × Entry) :=
  allEntries.filterMap fun e => (p.entry e).map fun x => (e, x)

/-! ## Runtime states -/

/-- ONLINE and REBUILDING are the serviceable states (3.1). -/
def RuntimeState.serviceable : RuntimeState → Bool
  | .online | .rebuilding => true
  | _ => false

/-- The lane is ONLINE. -/
def Part.online (p : Part) (l : LaneId) : Bool := (p.lane l).runtime = .online

/-- The lane is ONLINE or REBUILDING. -/
def Part.serviceable (p : Part) (l : LaneId) : Bool := (p.lane l).runtime.serviceable

/-- HOLD is asserted while a pulse or a line test runs (R19). -/
def Lane.hold (L : Lane) : Bool := L.pulse.isSome || L.lineTest.isSome

/-- The lanes after `l` in ascending order wrapping from 3 to 0, `l` itself last. -/
def lanesAfter (l : LaneId) : List LaneId := [l + 1, l + 2, l + 3, l]

/-- The volume a target byte names, if it is at most 7. -/
def volOf (b : Byte) : Option VolId := if h : b.toNat < 8 then some ⟨b.toNat, h⟩ else none

/-- The lane a byte names, if it is at most 3. -/
def laneOf (b : Byte) : Option LaneId := if h : b.toNat < 4 then some ⟨b.toNat, h⟩ else none

/-! ## Byte order (00 4.1, 2.2: least significant byte first) -/

/-- The `n` bytes of a number, least significant first. -/
def leBytes : Nat → Nat → List Byte
  | 0, _ => []
  | n + 1, x => BitVec.ofNat 8 x :: leBytes n (x / 256)

/-- The number of a list of bytes, least significant first. -/
def ofLe : List Byte → Nat
  | [] => 0
  | b :: bs => b.toNat + 256 * ofLe bs

/-- The number in `n` bytes from offset `off`; bytes past the end are 0. -/
def fieldAt (bs : List Byte) (off n : Nat) : Nat := ofLe ((bs.drop off).take n)

/-- The byte at an offset; 0 past the end. -/
def byteAt (bs : List Byte) (off : Nat) : Byte := bs.getD off 0

/-- Lay fields out at ascending offsets from `at_`, with 0 between them. -/
def layout (at_ : Nat) : List (Nat × List Byte) → List Byte
  | [] => []
  | (off, bs) :: rest => List.replicate (off - at_) 0 ++ bs ++ layout (off + bs.length) rest

/-! ## The check code (R20) -/

/-- One bit of the cyclic code with generator x^16 + x^12 + x^5 + 1. -/
def crcBit (c : BitVec 16) : BitVec 16 := if c.msb then (c <<< 1) ^^^ 0x1021#16 else c <<< 1

/-- `n` bits. -/
def crcBits : Nat → BitVec 16 → BitVec 16
  | 0, c => c
  | n + 1, c => crcBits n (crcBit c)

/-- One byte, most significant bit first (log 33). -/
def crcByte (c : BitVec 16) (b : Byte) : BitVec 16 := crcBits 8 (c ^^^ (b.setWidth 16 <<< 8))

/-- The code of a list of bytes: initial value FFFFh, no final inversion. -/
def crc (bs : List Byte) : BitVec 16 := bs.foldl crcByte 0xFFFF#16

/-! ## Block contents (log 26) -/

/-- The content without its trailing zero bytes. -/
def trimBlock : Block → Block
  | [] => []
  | b :: bs =>
    match trimBlock bs with
    | [] => if b = 0 then [] else [b]
    | t => b :: t

/-- Two contents are equal over all 4096 bytes. -/
def sameBlock (a b : Block) : Bool := trimBlock (a.take 4096) = trimBlock (b.take 4096)

/-- All 4096 bytes of a content. -/
def fullBlock (b : Block) : List Byte := b.take 4096 ++ List.replicate (4096 - b.length) 0

/-- A block of zeros. -/
def zeroBlock : Block := []

/-- The first `n` blocks of `4096 * n` bytes. -/
def splitBlocks : Nat → List Byte → List Block
  | 0, _ => []
  | n + 1, bs => bs.take 4096 :: splitBlocks n (bs.drop 4096)

/-! ## Counters of a lane (R37) -/

def Lane.count (L : Lane) (f : Counters → Counters) : Lane := { L with counters := f L.counters }

/-- Statuses of one kind in a reply. -/
def countStatus (s : Status) (ss : List Status) : Nat := (ss.filter (· = s)).length

/-! ## Marks (R46, R63) -/

/-- At the start of a commit a waiting mark becomes bound to it. -/
def WaitMark.bind : WaitMark → WaitMark
  | .waiting => .bound
  | m => m

/-- At the finish of a commit a mark bound to it becomes none. -/
def WaitMark.release : WaitMark → WaitMark
  | .bound => .none
  | m => m

end Sys2Proof.Machine
end

