-- ==== Sys2Proof/Machine/Flags.lean ====
section
/-!
DEFINITION. The codes of states, causes and outcomes, the status fields of the ENGINE register, the register reads, and
the byte layouts of what the part reports (13.1, 13.3).
-/
namespace Sys2Proof.Machine

def EngineState.code : EngineState → Nat
  | .detached => 0 | .attaching => 1 | .running => 2 | .halting => 3 | .halted => 4 | .detaching => 5 | .faulted => 6

def AttachError.code : AttachError → Nat
  | .none => 0 | .mark => 1 | .layout => 2 | .bus => 3

def FaultCause.code : FaultCause → Nat
  | .none => 0 | .slot => 1 | .header => 2 | .journal => 3 | .consumed => 4

def RuntimeState.code : RuntimeState → Byte
  | .empty => 0 | .identifying => 1 | .foreign => 2 | .stale => 3 | .online => 4 | .rebuilding => 5 | .failed => 6
  | .offline => 7 | .probing => 8

def RecordedState.code : RecordedState → Byte
  | .unbound => 0 | .online => 1 | .rebuilding => 2 | .failed => 3 | .offline => 4 | .departed => 5

def RecordedState.ofCode : Byte → Option RecordedState
  | 0 => some .unbound | 1 => some .online | 2 => some .rebuilding | 3 => some .failed | 4 => some .offline
  | 5 => some .departed | _ => none

def VolumeState.code : VolumeState → Byte
  | .filling => 0 | .active => 1 | .degraded => 2 | .lost => 3

def PatrolState.code : PatrolState → Byte
  | .idle => 0 | .holdoff => 1 | .running => 2 | .waiting => 3 | .resting => 4 | .done => 5

def PatrolState.ofCode : Byte → Option PatrolState
  | 0 => some .idle | 1 => some .holdoff | 2 => some .running | 3 => some .waiting | 4 => some .resting
  | 5 => some .done | _ => none

def RebuildState.code : RebuildState → Byte
  | .idle => 0 | .running => 1 | .held => 2

def LaneCause.code : LaneCause → Byte
  | .arrival => 1 | .identFailed => 2 | .presenceLost => 3 | .strikes => 4 | .sparesExhausted => 5 | .record => 6
  | .retire => 7 | .admitLane => 8 | .rebuildDone => 9

def Origin.code : Origin → Byte
  | .read => 1 | .verify => 2 | .patrol => 3 | .recovery => 4 | .rebuild => 5 | .repair => 6

def DiscKind.code : DiscKind → Byte
  | .unreadable => 1 | .mismatch => 2 | .weak => 3

def EventKind.code : EventKind → Byte
  | .laneState => 1 | .volumeState => 2 | .repaired => 3 | .unrecoverable => 4 | .sparesLow => 5 | .listFull => 6
  | .patrol => 7 | .rebuild => 8 | .assembly => 9

def Policy.code : Policy → Byte
  | .fixed => 0 | .spread => 1

def Policy.ofCode : Byte → Option Policy
  | 0 => some .fixed | 1 => some .spread | _ => none

def ReqOutcome.code : ReqOutcome → Byte
  | .ok => 0x00 | .recovered => 0x01 | .degraded => 0x02 | .different => 0x03 | .failedMedia => 0x10
  | .busFault => 0x11 | .lost => 0x12 | .refusedKind => 0x20 | .refusedFormat => 0x21 | .refusedVolume => 0x22
  | .refusedRange => 0x23 | .refusedLane => 0x24 | .refusedBusy => 0x25 | .refusedFrozen => 0x26
  | .refusedCapacity => 0x27 | .refusedLastCopy => 0x28

/-- REPAIRED methods, PATROL, ASSEMBLY and REBUILD causes (13.3). -/
def methodResolved : Byte := 1
def methodRewrite : Byte := 2
def methodRemap : Byte := 3
def patrolSpanSkipped : Byte := 1
def patrolPassEnd : Byte := 2
def patrolRecoveryEnd : Byte := 3
def assemblyClean : Byte := 1
def assemblyUnclean : Byte := 2
def assemblyEmpty : Byte := 3
def rebuildNoSource : Byte := 0x10
def rebuildSourceLost : Byte := 0x11
def rebuildDoneCode : Byte := 0x12

/-- PROBE results (13.3). -/
def probeOk : Word := 0
def clockStuckLow : Word := 1
def clockStuckHigh : Word := 2
def dataStuckLow : Word := 3
def dataStuckHigh : Word := 4

/-- The result of the line test: the first test whose sensed level differs (R34). -/
def LineLevels.result (x : LineLevels) : Word :=
  if x.clockLow then clockStuckHigh
  else if !x.clockHigh then clockStuckLow
  else if x.dataLow then dataStuckHigh
  else if !x.dataHigh then dataStuckLow
  else probeOk

/-- The LANE_STATE cause of a departure (13.3: the same codes). -/
def departureLaneCause : DepartureCause → LaneCause
  | .presenceLost => .presenceLost
  | .strikes => .strikes
  | .sparesExhausted => .sparesExhausted
  | .record => .record
  | .retire => .retire

/-! ## Register reads (13.1) -/

/-- The ENGINE register as read: state in 3:0, refused flag in 4, attach error in 9:8, fault cause in 19:16. -/
def Engine.read (g : Engine) : Word :=
  BitVec.ofNat 32 (g.state.code + 2 ^ 4 * g.refused.toNat + 2 ^ 8 * g.attachError.code + 2 ^ 16 * g.faultCause.code)

/-- A register read by its offset: AREA_LO, AREA_HI, NUDGE (reads 0), ENGINE. -/
def State.readRegister (s : State) (offset : Nat) : Option Word :=
  if offset = 0x00 then some s.port.areaLo
  else if offset = 0x04 then some s.port.areaHi
  else if offset = 0x08 then some 0
  else if offset = 0x0C then some s.part.engine.read
  else none

/-- The base the AREA registers form (R187). -/
def Port.base (q : Port) : BitVec 64 := q.areaHi ++ q.areaLo

/-! ## Layouts of what the part writes (13.3) -/

/-- A journal entry of 32 bytes. -/
def Placed.bytes (x : Placed) : List Byte :=
  layout 0 [(0, leBytes 4 x.sequence.toNat), (4, [x.event.kind.code]),
    (5, [match x.event.lane with | some l => BitVec.ofNat 8 l.val | none => 0xFF]),
    (6, [match x.event.volume with | some v => BitVec.ofNat 8 v.val | none => 0xFF]),
    (7, [x.event.cause]), (8, [x.event.old]), (9, [x.event.new]), (12, leBytes 4 x.event.block.toNat),
    (16, leBytes 4 x.event.value1.toNat), (20, leBytes 4 x.event.value2.toNat), (24, leBytes 4 x.event.tag.toNat),
    (28, [0, 0, 0, 0])]

/-- Bytes 48 to 63 of a slot: the outcome fields. -/
def Entry.outcomeBytes (x : Entry) (number : Word) : List Byte :=
  layout 0 [(0, [x.outcome.code]), (1, [x.laneMask.setWidth 8]), (2, [0, 0]), (4, leBytes 4 x.detailA.toNat),
    (8, leBytes 4 x.detailB.toNat), (12, leBytes 4 number.toNat)]

/-- A lane record of the snapshot report. -/
def Lane.snapshotBytes (L : Lane) : List Byte :=
  layout 0 [(0, [L.runtime.code]), (1, [L.recorded.code]), (4, leBytes 8 L.serial.toNat),
    (12, leBytes 4 L.capacity.toNat), (16, leBytes 1 L.budget), (18, leBytes 2 L.remap.length),
    (20, leBytes 2 L.spareNext), (22, leBytes 2 L.deadSpares), (24, leBytes 4 L.counters.transactions.toNat),
    (28, leBytes 4 L.counters.resends.toNat), (32, leBytes 4 L.counters.timeouts.toNat),
    (36, leBytes 4 L.counters.notReadyRetries.toNat), (40, leBytes 4 L.counters.corrected.toNat),
    (44, leBytes 4 L.counters.unreadable.toNat), (48, leBytes 4 L.counters.writeFaults.toNat)]

/-- A volume record of the snapshot report. -/
def Volume.snapshotBytes (x : Volume) : List Byte :=
  layout 0 [(0, [BitVec.ofNat 8 x.inUse.toNat]), (1, [x.state.code]), (2, [x.members.setWidth 8]),
    (3, [BitVec.ofNat 8 x.reference.val]), (4, [x.policy.code]), (8, leBytes 4 x.first), (12, leBytes 4 x.length),
    (16, x.label.take 16)]

/-- The snapshot report (R179, 13.3). The cursor shown is the recovery pass's while the marker is set. -/
def Part.snapshotBytes (p : Part) : Block :=
  layout 0
    ([(0, leBytes 1 p.engine.state.code), (1, [BitVec.ofNat 8 p.frozen.toNat]),
      (8, leBytes 8 p.committer.serial.toNat), (16, leBytes 8 p.committer.generation.toNat)]
    ++ allLanes.map (fun l => (64 + 64 * l.val, (p.lane l).snapshotBytes))
    ++ allVols.map (fun v => (320 + 48 * v.val, (p.vol v).snapshotBytes))
    ++ [(704, [p.patrol.state.code]), (705, [BitVec.ofNat 8 p.patrol.marker.toNat]),
      (708, [if p.patrol.marker then BitVec.ofNat 8 ((p.patrol.recovery.head?.map Fin.val).getD 0)
             else BitVec.ofNat 8 p.patrol.span]),
      (712, leBytes 4 p.patrol.offset), (716, leBytes 4 p.patrol.pass.toNat), (720, [p.rebuild.state.code]),
      (721, [match p.rebuild.target with | some t => BitVec.ofNat 8 t.val | none => 0xFF]),
      (722, [BitVec.ofNat 8 p.rebuild.cursorVol.val]), (724, leBytes 4 p.rebuild.cursorBlock),
      (728, leBytes 4 p.rebuild.copied.toNat), (732, leBytes 4 p.rebuild.unrecoverable.toNat),
      (736, leBytes 4 p.repair.list.length), (740, leBytes 4 p.repair.dropped.toNat)])

end Sys2Proof.Machine
end

