-- ==== Sys2Proof/Machine/Operands.lean ====
section
/-!
DEFINITION. The operand forms of the commands: what the bytes of a slot, the header, a patrol plan, a set record and a
lane link message mean, and the bytes and addresses of the part's own transfers.
-/
namespace Sys2Proof.Machine

/-! ## Slots (13.3, R177) -/

/-- The owner byte of a slot. -/
def slotOwner (bs : List Byte) : Byte := byteAt bs 0

/-- Owner value POSTED (11.2). -/
def ownerPosted : Byte := 1

/-- The request fields of a slot (13.3). -/
def parseRequest (bs : List Byte) : Request where
  kind := byteAt bs 1
  flags := byteAt bs 2
  target := byteAt bs 3
  tag := BitVec.ofNat 32 (fieldAt bs 4 4)
  first := BitVec.ofNat 32 (fieldAt bs 8 4)
  count := BitVec.ofNat 16 (fieldAt bs 12 2)
  selector := byteAt bs 14
  parameter := byteAt bs 15
  address := BitVec.ofNat 64 (fieldAt bs 16 8)
  defFirst := BitVec.ofNat 32 (fieldAt bs 24 4)
  defLength := BitVec.ofNat 32 (fieldAt bs 28 4)
  defMembers := byteAt bs 32
  reservedZero := ((bs.drop 33).take 15).all (· = 0)

def kindRead : Byte := 0x01
def kindWrite : Byte := 0x02
def kindVerify : Byte := 0x03
def kindDefine : Byte := 0x10
def kindDelete : Byte := 0x11
def kindFreeze : Byte := 0x12
def kindLane : Byte := 0x20
def kindPlan : Byte := 0x30
def kindControl : Byte := 0x31
def kindSnapshot : Byte := 0x40

/-- The kinds of the table of R177. -/
def knownKinds : List Byte :=
  [kindRead, kindWrite, kindVerify, kindDefine, kindDelete, kindFreeze, kindLane, kindPlan, kindControl, kindSnapshot]

/-- Flag bits (13.3). -/
def flagRepair : Byte := 1
def flagForce : Byte := 2

/-- Fields a kind may use (R177); each clear one must hold 0. -/
structure Uses where
  flags : Byte
  target : Bool
  blocks : Bool
  selector : Bool
  parameter : Bool
  address : Bool
  define : Bool
  deriving DecidableEq, Repr

/-- The table of R177. -/
def usesOf (kind : Byte) : Uses :=
  if kind = kindRead then ⟨0, true, true, true, false, true, false⟩
  else if kind = kindWrite then ⟨0, true, true, false, false, true, false⟩
  else if kind = kindVerify then ⟨flagRepair, true, true, true, false, false, false⟩
  else if kind = kindDefine then ⟨0, true, false, true, true, true, true⟩
  else if kind = kindDelete then ⟨0, true, false, false, false, false, false⟩
  else if kind = kindLane then ⟨flagForce, true, false, true, true, false, false⟩
  else if kind = kindPlan then ⟨0, false, false, false, false, true, false⟩
  else if kind = kindControl then ⟨0, false, false, true, false, false, false⟩
  else if kind = kindSnapshot then ⟨0, false, false, false, false, true, false⟩
  else ⟨0, false, false, false, false, false, false⟩

/-- A field the kind does not use is not 0 (R177). -/
def unusedField (r : Request) : Bool :=
  let u := usesOf r.kind
  (r.flags &&& ~~~u.flags ≠ 0) || (!u.target && r.target ≠ 0) || (!u.blocks && (r.first ≠ 0 || r.count ≠ 0))
    || (!u.selector && r.selector ≠ 0) || (!u.parameter && r.parameter ≠ 0) || (!u.address && r.address ≠ 0)
    || (!u.define && (r.defFirst ≠ 0 || r.defLength ≠ 0 || r.defMembers ≠ 0)) || !r.reservedZero

/-- The generic checks of R177, in order. -/
def genericRefusal (r : Request) : Option ReqOutcome :=
  if r.kind ∉ knownKinds then some .refusedKind
  else if unusedField r then some .refusedFormat
  else none

/-- The buffer address is a multiple of 64. -/
def aligned64 (r : Request) : Bool := r.address.toNat % 64 = 0

/-- The kinds that name a volume in their target byte (R177). -/
def Request.namesVolume (r : Request) (v : VolId) : Bool :=
  (r.kind = kindRead || r.kind = kindWrite || r.kind = kindVerify || r.kind = kindDefine || r.kind = kindDelete)
    && r.target.toNat = v.val

/-! ## The header (R166) -/

/-- The host's fields of the header. -/
structure Header where
  docketOffset : Nat
  journalOffset : Nat
  slots : Nat
  entries : Nat
  intCount : Nat
  intDelay : Nat
  poll : Nat
  share : Nat
  consumed : Word
  deriving DecidableEq, Repr

/-- The fields of the header at their places (13.3). -/
def headerFields (bs : List Byte) : Header where
  docketOffset := fieldAt bs 4 4
  journalOffset := fieldAt bs 8 4
  slots := fieldAt bs 12 2
  entries := fieldAt bs 14 2
  intCount := fieldAt bs 16 1
  intDelay := fieldAt bs 17 1
  poll := fieldAt bs 18 1
  share := fieldAt bs 19 1
  consumed := BitVec.ofNat 32 (fieldAt bs 32 4)

/-- The layout mark "EZF1". -/
def headerMark : List Byte := [0x45, 0x5A, 0x46, 0x31]

/-- The ranges and the disjointness of R166, test 3. -/
def Header.layoutOk (h : Header) : Bool :=
  h.docketOffset % 64 = 0 && 256 ≤ h.docketOffset && 8 ≤ h.slots && h.slots ≤ 128
    && h.journalOffset % 32 = 0 && 256 ≤ h.journalOffset && 16 ≤ h.entries && h.entries ≤ 256
    && 1 ≤ h.intCount && h.intCount ≤ 32 && h.share ≤ 15
    && h.docketOffset + 64 * h.slots ≤ Config.window && h.journalOffset + 32 * h.entries ≤ Config.window
    && (h.docketOffset + 64 * h.slots ≤ h.journalOffset || h.journalOffset + 32 * h.entries ≤ h.docketOffset)

/-- The tests of R166 in order: the fields, or the attach error. -/
def checkHeader (d : Option (List Byte)) : Except AttachError Header :=
  match d with
  | none => .error .bus
  | some bs =>
    if bs.take 4 ≠ headerMark then .error .mark
    else if (headerFields bs).layoutOk then .ok (headerFields bs)
    else .error .layout

/-! ## The patrol plan (9.2) -/

/-- Span `i` of the plan buffer, with its must-be-zero bytes checked. -/
def parseSpan (bs : List Byte) (i : Nat) : Option Span :=
  match volOf (byteAt bs (16 + 12 * i)) with
  | none => none
  | some v =>
    if fieldAt bs (17 + 12 * i) 3 ≠ 0 || fieldAt bs (24 + 12 * i) 4 = 0 then none
    else some ⟨v, fieldAt bs (20 + 12 * i) 4, fieldAt bs (24 + 12 * i) 4⟩

/-- The plan of a 128-byte buffer, or `none` where its content is malformed by itself (R138, check 4; whether a span's
volume is in use is tested by the request engine). -/
def parsePlan (bs : List Byte) : Option Plan :=
  let n := fieldAt bs 0 1
  if n = 0 || 8 < n || (byteAt bs 1 &&& 0xFE) ≠ 0 || 1440 < fieldAt bs 2 2 || fieldAt bs 5 11 ≠ 0
      || fieldAt bs (16 + 12 * n) (112 - (16 + 12 * n)) ≠ 0 || fieldAt bs 112 16 ≠ 0 then none
  else
    let spans := (List.range n).map (parseSpan bs)
    if spans.any Option.isNone then none
    else some ⟨spans.filterMap id, (byteAt bs 1).getLsbD 0, fieldAt bs 2 2, fieldAt bs 4 1⟩

/-! ## Set records (4.2; byte places log 11) -/

/-- The layout mark "EZR1". -/
def recordMark : List Byte := [0x45, 0x5A, 0x52, 0x31]

def LaneEntry.bytes (x : LaneEntry) : List Byte :=
  layout 0 [(0, [x.recorded.code]), (1, leBytes 1 x.budget), (8, leBytes 8 x.serial.toNat)]

def VolumeEntry.bytes (x : VolumeEntry) : List Byte :=
  layout 0 [(0, [BitVec.ofNat 8 x.number.val]), (1, [x.members.setWidth 8]), (2, [BitVec.ofNat 8 x.reference.val]),
    (3, [x.policy.code]), (4, leBytes 4 x.first), (8, leBytes 4 x.length), (12, x.label.take 16)]

def Span.bytes (x : Span) : List Byte :=
  layout 0 [(0, [BitVec.ofNat 8 x.volume.val]), (4, leBytes 4 x.first), (8, leBytes 4 x.count)]

/-- Place the bytes of the items of a list every `stride` bytes from `off`. -/
def place (off stride : Nat) : List (List Byte) → List (Nat × List Byte)
  | [] => []
  | x :: xs => (off, x) :: place (off + stride) stride xs

/-- The fields of a record but its check code (4.2), unused bytes 0. -/
def SetRecord.fieldBytes (r : SetRecord) : List Byte :=
  let spans := (r.plan.map (·.spans)).getD []
  layout 0
    ([(0, recordMark), (4, leBytes 8 r.serial.toNat), (12, leBytes 8 r.generation.toNat),
      (20, [BitVec.ofNat 8 r.clean.toNat]), (21, leBytes 1 r.volumes.length),
      (22, [BitVec.ofNat 8 r.plan.isSome.toNat]), (23, leBytes 1 spans.length),
      (24, [BitVec.ofNat 8 ((r.plan.map (·.repeats)).getD false).toNat]),
      (26, leBytes 2 ((r.plan.map (·.rest)).getD 0)), (28, leBytes 1 ((r.plan.map (·.holdoff)).getD 0)),
      (29, [r.patrol.code]), (30, leBytes 1 r.checkpoint.span), (32, leBytes 4 r.checkpoint.offset),
      (36, leBytes 4 r.checkpoint.pass.toNat), (40, [BitVec.ofNat 8 r.position.val]),
      (42, leBytes 2 r.remap.length), (44, leBytes 2 r.spareNext), (46, leBytes 2 r.deadSpares)]
    ++ place 64 16 (r.lanes.toList.map LaneEntry.bytes)
    ++ place 128 32 (r.volumes.map VolumeEntry.bytes)
    ++ place 384 12 (spans.map Span.bytes)
    ++ place 512 8 (r.remap.map fun x => layout 0 [(0, leBytes 4 x.1), (4, leBytes 2 x.2)]))

/-- The block of a record: 4094 bytes, then the check code over them, least significant byte first (R56). -/
def SetRecord.block (r : SetRecord) : Block :=
  let body := r.fieldBytes ++ List.replicate (4094 - r.fieldBytes.length) 0
  body ++ leBytes 2 (crc body).toNat

/-- A lane table entry. A strike budget above 15, which R57 does not test, is taken as it stands (the model's choice, log 11). -/
def parseLaneEntry (bs : List Byte) (i : Nat) : Option LaneEntry :=
  match RecordedState.ofCode (byteAt bs (64 + 16 * i)) with
  | none => none
  | some st => some ⟨st, BitVec.ofNat 64 (fieldAt bs (72 + 16 * i) 8), fieldAt bs (65 + 16 * i) 1⟩

/-- A volume entry. Bits 7:4 of the member mask byte are ignored, and what R57 does not test is taken as it stands (the model's
choices, log 11). -/
def parseVolumeEntry (bs : List Byte) (i : Nat) : Option VolumeEntry :=
  let o := 128 + 32 * i
  match volOf (byteAt bs o), laneOf (byteAt bs (o + 2)), Policy.ofCode (byteAt bs (o + 3)) with
  | some v, some ref, some pol =>
    some ⟨v, (byteAt bs (o + 1)).setWidth 4, ref, pol, fieldAt bs (o + 4) 4, fieldAt bs (o + 8) 4,
      ((bs.drop (o + 12)).take 16)⟩
  | _, _, _ => none

def parseRecordSpan (bs : List Byte) (i : Nat) : Option Span :=
  match volOf (byteAt bs (384 + 12 * i)) with
  | none => none
  | some v => some ⟨v, fieldAt bs (388 + 12 * i) 4, fieldAt bs (392 + 12 * i) 4⟩

def parseRemap (bs : List Byte) (i : Nat) : Nat × Nat := (fieldAt bs (512 + 8 * i) 4, fieldAt bs (516 + 8 * i) 2)

/-- The numbers of a list are all different. -/
def distinct : List Nat → Bool
  | [] => true
  | x :: xs => !xs.contains x && distinct xs

/-- Some only when every item is. -/
def allSome {α : Type} : List (Option α) → Option (List α)
  | [] => some []
  | none :: _ => none
  | some x :: xs => (allSome xs).map (x :: ·)

/-- The content of a record slot as a valid set record (R57), or `none`. `full` is all 4096 bytes of the block. A flag byte other
than 0 and 1 reads as set, a record without a plan may give the span count 0, volume numbers may repeat, and remap entries are taken as
they stand, whatever block or spare they name (the model's choices, log 11). -/
def parseRecordBytes (full : List Byte) : Option SetRecord :=
  let nVol := fieldAt full 21 1
  let planned := byteAt full 22 ≠ 0
  let nSpan := fieldAt full 23 1
  let nRemap := fieldAt full 42 2
  let next := fieldAt full 44 2
  let dead := fieldAt full 46 2
  let remap := (List.range nRemap).map (parseRemap full)
  if full.take 4 ≠ recordMark then none
  else if crc (full.take 4094) ≠ BitVec.ofNat 16 (fieldAt full 4094 2) then none
  else if fieldAt full 4 8 = 0 || fieldAt full 12 8 = 0 then none
  else if 8 < nVol || 8 < nSpan || (planned && nSpan = 0) || 256 < nRemap || 256 < next || 256 < dead
      || nRemap + dead ≠ next then none
  else if !distinct (remap.map Prod.fst) || !distinct (remap.map Prod.snd) then none
  else
    match laneOf (byteAt full 40), PatrolState.ofCode (byteAt full 29), parseLaneEntry full 0, parseLaneEntry full 1,
      parseLaneEntry full 2, parseLaneEntry full 3, allSome ((List.range nVol).map (parseVolumeEntry full)),
      allSome ((List.range (if planned then nSpan else 0)).map (parseRecordSpan full)) with
    | some pos, some pat, some l0, some l1, some l2, some l3, some vols, some spans =>
      some {
        serial := BitVec.ofNat 64 (fieldAt full 4 8)
        generation := BitVec.ofNat 64 (fieldAt full 12 8)
        clean := byteAt full 20 ≠ 0
        lanes := #v[l0, l1, l2, l3]
        volumes := vols
        plan := if planned then some ⟨spans, byteAt full 24 ≠ 0, fieldAt full 26 2, fieldAt full 28 1⟩ else none
        patrol := pat
        checkpoint := ⟨fieldAt full 30 1, fieldAt full 32 4, BitVec.ofNat 32 (fieldAt full 36 4)⟩
        position := pos
        remap := remap
        spareNext := next
        deadSpares := dead }
    | _, _, _, _, _, _, _, _ => none

/-- A record slot as read: no record where it was read UNREADABLE (R32, R57). -/
def parseRecord (b : Option Block) : Option SetRecord :=
  match b with
  | none => none
  | some c => parseRecordBytes (fullBlock c)

/-- A lane's newest valid record and its slot (R57). -/
def newestRecord (a b : Option SetRecord) : Option (RecordSlot × SetRecord) :=
  match a, b with
  | none, none => none
  | some x, none => some (.a, x)
  | none, some y => some (.b, y)
  | some x, some y => if y.generation.toNat < x.generation.toNat then some (.a, x) else some (.b, y)

/-! ## Statuses and lane link messages (2.2, R20 to R22) -/

/-- The status of a code; none above 04h. -/
def statusOf : Byte → Option Status
  | 0 => some .good | 1 => some .corrected | 2 => some .unreadable | 3 => some .writeFault | 4 => some .range
  | _ => none

/-- A block status that carries data in a READ reply. -/
def carriesData (s : Option Status) : Bool := s = some .good || s = some .corrected

/-- The statuses of a READ reply, or none where they make the transaction a link failure (R22). -/
def readStatuses (codes : List Byte) : Option (List Status) :=
  allSome (codes.map fun c =>
    match statusOf c with
    | some .good => some .good
    | some .corrected => some .corrected
    | some .unreadable => some .unreadable
    | _ => none)

/-- The statuses of a WRITE or FILL reply, or none where they make the transaction a link failure (R22). -/
def writeStatuses (codes : List Byte) : Option (List Status) :=
  allSome (codes.map fun c =>
    match statusOf c with
    | some .good => some .good
    | some .writeFault => some .writeFault
    | _ => none)

/-- A message: type, four length bytes, payload, check code (2.2, R20). -/
def messageBytes (type : Byte) (payload : List Byte) : List Byte :=
  let body := type :: (leBytes 4 payload.length ++ payload)
  body ++ leBytes 2 (crc body).toNat

/-- The bytes the part sends (2.2). -/
def Sent.bytes : Sent → List Byte
  | .resend => messageBytes 0x5F []
  | .command .ident => messageBytes 0x51 []
  | .command (.read b n) => messageBytes 0x52 (leBytes 4 b ++ leBytes 4 n)
  | .command (.write b d) => messageBytes 0x53 (leBytes 4 b ++ leBytes 4 d.length ++ (d.map fullBlock).flatten)
  | .command (.fill b n) => messageBytes 0x54 (leBytes 4 b ++ leBytes 4 n)

/-- What bytes arriving from the module are, by the command awaited (R20, R22, R23): the row of the table they make.
`none` for `awaited`: no reply is awaited. -/
def classify (l : LaneId) (awaited : Option Command) (msg : List Byte) : Instr :=
  match awaited with
  | none => .unsolicitedMessage l
  | some cmd =>
    let body := msg.take (msg.length - 2)
    let payload := body.drop 5
    if msg.length < 7 || fieldAt msg (msg.length - 2) 2 ≠ (crc body).toNat || fieldAt msg 1 4 ≠ payload.length then
      .badReply l
    else
      match cmd, (byteAt msg 0).toNat with
      | _, 0xAF => if payload.length = 0 then .moduleResend l else .badReply l
      | _, 0xAE => if payload.length = 0 then .notReady l else .badReply l
      | .ident, 0xA1 =>
        if payload.length = 16 then
          .identReply l (BitVec.ofNat 64 (fieldAt payload 0 8)) (BitVec.ofNat 32 (fieldAt payload 8 4))
            (BitVec.ofNat 32 (fieldAt payload 12 4))
        else .badReply l
      | .read _ n, 0xA2 =>
        let codes := payload.take n
        let blocks := (codes.filter fun c => carriesData (statusOf c)).length
        if payload.length = n + 4096 * blocks then .readReply l codes (splitBlocks blocks (payload.drop n))
        else .badReply l
      | .write _ d, 0xA3 => if payload.length = d.length then .writeReply l payload else .badReply l
      | .fill _ _, 0xA4 => if payload.length = 1 then .fillReply l (byteAt payload 0) else .badReply l
      | _, _ => .badReply l

/-- The timer that runs in the transaction's phase, in milliseconds (R23, R26, R27). -/
def Txn.timerMs (t : Txn) : Nat :=
  match t.phase, t.cmd with
  | .awaiting, .fill _ _ => 5000
  | .awaiting, _ => 500
  | .notReadyWait, _ => 10
  | .timeoutHold, _ => 1

/-! ## The part's transfers: address and bytes (11.1, 12.2, 13.3) -/

/-- The address of slot `n`. -/
def Part.slotAddress (p : Part) (n : Nat) : Nat := p.engine.base.toNat + p.docket.offset + 64 * n

/-- The address of the docket unit's transfer in hand. -/
def Part.docketAddress (p : Part) : Option Nat :=
  let slotOf (e : EntryId) := ((p.entry e).map (·.slot)).getD 0
  p.docket.xfer.map fun
    | .consumedRead _ => p.engine.base.toNat + 32
    | .slotRead n _ => p.slotAddress n
    | .takenWrite e => p.slotAddress (slotOf e)
    | .outcomeWrite e => p.slotAddress (slotOf e) + 48
    | .doneWrite e => p.slotAddress (slotOf e)
    | .tallyWrite _ => p.engine.base.toNat + 64

/-- The bytes the docket unit's transfer in hand writes; empty for a read. The completion number is the done tally plus 1
(R178). -/
def Part.docketBytes (p : Part) : List Byte :=
  match p.docket.xfer with
  | some (.takenWrite _) => [2]
  | some (.outcomeWrite e) => ((p.entry e).map fun x => x.outcomeBytes (p.docket.tally + 1)).getD []
  | some (.doneWrite _) => [3]
  | some (.tallyWrite _) => leBytes 4 p.docket.tally.toNat
  | _ => []

/-- The address and bytes of the ATTACH header write in hand: the done tally, the written count or the lost count, each
written as 0 (R167). -/
def Part.attachWrite (p : Part) : Option (Nat × List Byte) :=
  match p.engine.attach with
  | .tallyWrite => some (p.engine.base.toNat + 64, leBytes 4 0)
  | .writtenWrite => some (p.engine.base.toNat + 68, leBytes 4 0)
  | .lostWrite => some (p.engine.base.toNat + 72, leBytes 4 0)
  | _ => none

/-- The address of the journal writer's transfer in hand. -/
def Part.journalAddress (p : Part) : Option Nat :=
  p.journal.xfer.map fun
    | .entryWrite =>
      p.engine.base.toNat + p.journal.offset
        + 32 * ((((p.journal.writeList.head?).map (·.sequence.toNat)).getD 0) % p.journal.entries)
    | .writtenWrite => p.engine.base.toNat + 68
    | .lostWrite _ => p.engine.base.toNat + 72
    | .reread => p.engine.base.toNat + 32

/-- The bytes the journal writer's transfer in hand writes; empty for a read. -/
def Part.journalBytes (p : Part) : List Byte :=
  match p.journal.xfer with
  | some .entryWrite => ((p.journal.writeList.head?).map Placed.bytes).getD []
  | some .writtenWrite => leBytes 4 (((p.journal.writeList.head?).map (·.sequence.toNat + 1)).getD 0)
  | some (.lostWrite n) => leBytes 4 n.toNat
  | _ => []

end Sys2Proof.Machine
end

