-- ==== Sys2Proof/Machine/Journal.lean ====
section
/-!
DEFINITION. The interrupt unit and the journal writer (chapter 12).
-/
namespace Sys2Proof.Machine

/-! ## The interrupt (R185, R186) -/

/-- Raise one message: the count returns to 0 and the timer stops; nothing is sent while messages are disabled. -/
def Interrupt.raise (u : Interrupt) : Interrupt :=
  { u with items := 0, timer := false, raised := u.raised + 1, sent := if u.enabled then u.sent + 1 else u.sent }

/-- One new item (R185). -/
def Interrupt.item (u : Interrupt) : Interrupt :=
  if u.items + 1 = u.count || u.delay = 0 then u.raise
  else { u with items := u.items + 1, timer := u.timer || u.items = 0 }

/-- Expiry of the delay timer (R185). -/
def Interrupt.expire (u : Interrupt) : Interrupt :=
  if !u.timer then u
  else if 0 < u.items then u.raise
  else { u with timer := false }

/-- The unit's values with no attachment (R186); the enable and the model's counts are not the attachment's. -/
def Interrupt.clear (u : Interrupt) : Interrupt := { u with items := 0, timer := false, count := 0, delay := 0 }

def raiseMessage (p : Part) : Part := { p with interrupt := p.interrupt.raise }

def newItem (p : Part) : Part := { p with interrupt := p.interrupt.item }

/-! ## The journal writer (R181 to R184) -/

/-- The journal looks full when the used room, modulo 2^32, is at least the entry count. -/
def Journal.full (j : Journal) : Bool := j.entries ≤ (j.written - j.lastRead).toNat

/-- Place an event: it takes the next sequence and joins the write list (R182). -/
def Journal.place (j : Journal) (e : Event) : Journal :=
  { j with written := j.written + 1, writeList := j.writeList ++ [⟨j.written, e⟩] }

/-- Begin the next transfer when none is in hand, in the order of R183 (the header write after an entry write is begun by
the end of that entry write). -/
def Journal.next (j : Journal) : Journal :=
  if j.xfer.isSome then j
  else if j.rereadDue then { j with rereadDue := false, xfer := some .reread }
  else if j.lostDue then { j with lostDue := false, xfer := some (.lostWrite j.lost) }
  else if j.writeList.isEmpty then j
  else { j with xfer := some .entryWrite }

/-- Take one event (R182). -/
def Journal.take (j : Journal) (e : Event) : Journal :=
  let inHand := j.xfer = some .reread
  if j.backlog.isEmpty && !inHand && !j.full then (j.place e).next
  else if j.backlog.length < Config.backlogSize then
    ({ j with backlog := j.backlog ++ [e], rereadDue := j.rereadDue || (j.full && !inHand) }).next
  else ({ j with lost := satInc j.lost, lostDue := true }).next

/-- Place events from the head of the backlog while the journal does not look full (R184). -/
def Journal.drain (j : Journal) : List Event → Journal
  | [] => { j with backlog := [] }
  | e :: rest => if j.full then { j with backlog := e :: rest } else (j.place e).drain rest

/-- A consumed count value reaches the writer (R184). -/
def Journal.consumed (j : Journal) (v : Word) : Journal :=
  let j := { j with lastRead := v }
  (j.drain j.backlog).next

/-- On entry into FAULTED the transfer, backlog, write list and reread go; the counts stay (R181). That lost write due stays is the
model's choice (log 47). -/
def Journal.cut (j : Journal) : Journal := { j with backlog := [], writeList := [], rereadDue := false, xfer := none }

/-- Pass an event to the journal writer. Events passed while FAULTED, or with no attachment, are discarded (R181). -/
def passEvent (e : Event) (p : Part) : Part :=
  match p.engine.state with
  | .detached | .faulted => p
  | _ => { p with journal := p.journal.take e }

/-- Pass events in order. -/
def passEvents (es : List Event) (p : Part) : Part := es.foldl (fun q e => passEvent e q) p

/-! ## The events of R180 -/

def laneStateEvent (l : LaneId) (old new : RuntimeState) (c : LaneCause) (tag : Word) : Event :=
  ⟨.laneState, some l, none, c.code, old.code, new.code, 0, 0, 0, tag⟩

def volumeStateEvent (v : VolId) (old new : VolumeState) (l : Option LaneId) (tag : Word) : Event :=
  ⟨.volumeState, l, some v, 0, old.code, new.code, 0, 0, 0, tag⟩

def repairedEvent (l : LaneId) (v : VolId) (block : Nat) (method : Byte) (o : Origin) (number : Word) : Event :=
  ⟨.repaired, some l, some v, method, 0, 0, BitVec.ofNat 32 block, o.code.setWidth 32, number, 0⟩

def unrecoverableEvent (l : Option LaneId) (v : VolId) (block : Nat) (o : Origin) (tag : Word) : Event :=
  ⟨.unrecoverable, l, some v, o.code, 0, 0, BitVec.ofNat 32 block, 0, 0, tag⟩

/-- UNRECOVERABLE of a repair: cause REPAIR, with the entry's origin and discovery number. -/
def unrecoverableRepairEvent (l : LaneId) (v : VolId) (block : Nat) (o : Origin) (number : Word) : Event :=
  ⟨.unrecoverable, some l, some v, Origin.repair.code, 0, 0, BitVec.ofNat 32 block, o.code.setWidth 32, number, 0⟩

def sparesLowEvent (l : LaneId) (block next dead : Nat) (tag : Word) : Event :=
  ⟨.sparesLow, some l, none, 0, 0, 0, BitVec.ofNat 32 block, BitVec.ofNat 32 next, BitVec.ofNat 32 dead, tag⟩

def listFullEvent (d : Discovery) (dropped : Word) : Event :=
  ⟨.listFull, some d.lane, some d.volume, d.kind.code, 0, 0, BitVec.ofNat 32 d.block, dropped, d.origin.code.setWidth 32,
    d.tag⟩

def spanSkippedEvent (v : VolId) (offset : Nat) (pass : Word) (span : Nat) : Event :=
  ⟨.patrol, none, some v, patrolSpanSkipped, 0, 0, BitVec.ofNat 32 offset, pass, BitVec.ofNat 32 span, 0⟩

/-- A half-word saturating at FFFFh. -/
def halfSat (w : Word) : Nat := min w.toNat 0xFFFF

/-- PASS_END and RECOVERY_END: blocks checked, then entries made in the lower and unrecoverable blocks in the upper half. -/
def passEndEvent (cause : Byte) (pass checked made unrecoverable : Word) : Event :=
  ⟨.patrol, none, none, cause, 0, 0, pass, checked, BitVec.ofNat 32 (halfSat made + 2 ^ 16 * halfSat unrecoverable), 0⟩

def rebuildEvent (l : Option LaneId) (v : Option VolId) (cause : Byte) (block : Nat) (value1 value2 tag : Word) : Event :=
  ⟨.rebuild, l, v, cause, 0, 0, BitVec.ofNat 32 block, value1, value2, tag⟩

/-- ASSEMBLY: the runtime states of the lanes, lane n in byte n, and the generation's two halves. -/
def assemblyEvent (governing : Option LaneId) (cause : Byte) (states : List RuntimeState) (generation : BitVec 64) :
    Event :=
  ⟨.assembly, governing, none, cause, 0, 0, BitVec.ofNat 32 (ofLe (states.map RuntimeState.code)),
    generation.setWidth 32, (generation >>> 32).setWidth 32, 0⟩

/-! ## Ends of the writer's transfers -/

/-- The entry's header write has ended: the header written count, the write list, the interrupt item (R183). -/
def writtenCountEnded (p : Part) : Part :=
  match p.journal.writeList with
  | [] => { p with journal := { p.journal with xfer := none }.next }
  | x :: rest =>
    newItem { p with journal := { p.journal with headerWritten := x.sequence + 1, writeList := rest, xfer := none }.next }

end Sys2Proof.Machine
end

