-- ==== Sys2Proof/Machine/Volumes.lean ====
section
/-!
DEFINITION. The volume model: derived states, the acting reference, the agreement rule and read copy choice (chapter 1), and
a lane's change of runtime state (R42).
-/
namespace Sys2Proof.Machine

/-! ## Derived states (R4, R5) -/

/-- The members of a volume that are ONLINE. -/
def Part.onlineMembers (p : Part) (v : VolId) : List LaneId := (p.vol v).members.lanes.filter p.online

/-- The table of R4. -/
def Part.derivedState (p : Part) (v : VolId) : VolumeState :=
  let online := p.onlineMembers v
  if online.isEmpty then .lost
  else if online.length = (p.vol v).members.lanes.length then .active
  else .degraded

/-- The volume is in use and not FILLING. -/
def Part.ready (p : Part) (v : VolId) : Bool := (p.vol v).inUse && (p.vol v).state ≠ .filling

/-- The volume is LOST. -/
def Part.isLost (p : Part) (v : VolId) : Bool := (p.vol v).state = .lost

/-- Pass a VOLUME_STATE event, but for derivations made while ATTACHING (R5). -/
def passVolumeState (v : VolId) (old new : VolumeState) (l : Option LaneId) (tag : Word) (p : Part) : Part :=
  if p.engine.state = .attaching then p else passEvent (volumeStateEvent v old new l tag) p

/-- Derive one volume's state; a different state is set and reported (R5). -/
def deriveVolume (l : Option LaneId) (tag : Word) (p : Part) (v : VolId) : Part :=
  let new := p.derivedState v
  if !p.ready v || new = (p.vol v).state then p
  else passVolumeState v (p.vol v).state new l tag (p.modVol v fun x => { x with state := new })

/-- Derive every volume whose member mask names the lane, in ascending volume number (R4, R5). In FAULTED the volume table is
kept unchanged (R2). -/
def deriveVolumes (l : LaneId) (tag : Word) (p : Part) : Part :=
  if p.engine.state = .faulted then p
  else allVols.foldl (fun q v => if (q.vol v).members.has l then deriveVolume (some l) tag q v else q) p

/-! ## A lane's runtime state changes (R42) -/

/-- Set the runtime state, pass the LANE_STATE event where R42 passes one (`silent` for the changes it names as passing
none), derive the lane's volumes, and have a WAITING patrol test again (R143). -/
def changeRuntime (l : LaneId) (new : RuntimeState) (cause : LaneCause) (tag : Word) (p : Part) : Part :=
  let old := (p.lane l).runtime
  let p := p.modLane l fun L => { L with runtime := new }
  let p := if p.engine.state = .attaching then p else passEvent (laneStateEvent l old new cause tag) p
  (deriveVolumes l tag p).push [.patrolTry]

/-- A change of runtime state that passes no event: into IDENTIFYING and PROBING, and back from PROBING (R42). -/
def setRuntimeQuietly (l : LaneId) (new : RuntimeState) (p : Part) : Part :=
  (deriveVolumes l 0 (p.modLane l fun L => { L with runtime := new })).push [.patrolTry]

/-! ## The acting reference (R6) -/

/-- The reference lane if it is ONLINE, else the lowest-numbered ONLINE member, else none. -/
def Part.actingReference (p : Part) (v : VolId) : Option LaneId :=
  if p.online (p.vol v).reference then some (p.vol v).reference else (p.onlineMembers v).head?

/-! ## The agreement rule (R7, R8) -/

/-- A copy of the copy set: its lane, whether it is readable, whether it was read CORRECTED, and its group, named by one
of the group's lanes. -/
structure Copy where
  lane : LaneId
  readable : Bool
  weak : Bool
  group : LaneId
  deriving DecidableEq, Repr

/-- The results of R8: the authoritative group and its lanes, the outvoted lanes, the unrecoverable mark, the weak lanes. -/
structure Verdict where
  group : Option LaneId
  authority : LaneMask
  outvoted : LaneMask
  unrecoverable : Bool
  weak : LaneMask
  deriving DecidableEq, Repr

/-- The readable copies. -/
def readable (cs : List Copy) : List Copy := cs.filter (·.readable)

/-- The number of readable copies in a group. -/
def groupSize (cs : List Copy) (g : LaneId) : Nat := ((readable cs).filter (·.group = g)).length

/-- Step 4: a group of more than half of the readable copies. -/
def majority (cs : List Copy) : Option LaneId :=
  ((readable cs).find? fun c => (readable cs).length < 2 * groupSize cs c.group).map (·.group)

/-- Step 5: the group of the acting reference's copy, when that copy is in the set and readable. -/
def referenceGroup (acting : Option LaneId) (cs : List Copy) : Option LaneId :=
  ((readable cs).find? fun c => some c.lane = acting).map (·.group)

/-- Step 6: the group of the lowest-numbered lane's readable copy. -/
def lowestGroup (cs : List Copy) : Option LaneId :=
  (allLanes.findSome? fun l => (readable cs).find? fun c => c.lane = l).map (·.group)

/-- Steps 4 to 7: the authoritative group, if any copy is readable. -/
def authoritative (acting : Option LaneId) (cs : List Copy) : Option LaneId :=
  (majority cs).or ((referenceGroup acting cs).or (lowestGroup cs))

/-- The agreement rule (R7) with its results (R8). -/
def agree (acting : Option LaneId) (cs : List Copy) : Verdict :=
  let g := authoritative acting cs
  let inGroup (c : Copy) : Bool := c.readable && some c.group = g
  { group := g
    authority := LaneMask.ofList ((cs.filter inGroup).map (·.lane))
    outvoted := LaneMask.ofList ((cs.filter fun c => !inGroup c).map (·.lane))
    unrecoverable := g.isNone
    weak := LaneMask.ofList ((cs.filter fun c => c.readable && c.weak).map (·.lane)) }

/-- What one lane read for a block: its status and, where readable, the content. -/
structure Read where
  lane : LaneId
  status : Status
  content : Block
  deriving DecidableEq, Repr

/-- GOOD and CORRECTED copies are readable (R7, step 2). -/
def Status.readable : Status → Bool
  | .good | .corrected => true
  | _ => false

/-- Group the readable copies by equal content (R7, step 3): a copy's group is the first readable lane whose content
equals its own. -/
def copiesOf (rs : List Read) : List Copy :=
  rs.map fun r =>
    ⟨r.lane, r.status.readable, r.status = .corrected,
      ((rs.find? fun x => x.status.readable && sameBlock x.content r.content).map (·.lane)).getD r.lane⟩

/-- The discovery kind of the table of R108 for one copy: the most severe that applies. -/
def discoveryKind (v : Verdict) (c : Copy) : Option DiscKind :=
  if !c.readable then some .unreadable
  else if some c.group ≠ v.group then some .mismatch
  else if c.weak then some .weak
  else none

/-! ## Read copy choice (R9, R10) -/

/-- The next lane after `l`, in ascending order wrapping, that satisfies `ok`; `l` itself last. -/
def nextLane (l : LaneId) (ok : LaneId → Bool) : Option LaneId := (lanesAfter l).find? ok

/-- The lane is an ONLINE member of the volume. -/
def Part.onlineMember (p : Part) (v : VolId) (l : LaneId) : Bool := (p.vol v).members.has l && p.online l

/-- The first lane of a READ on a SPREAD volume: the rotation pointer's, else the next ONLINE member (R10). -/
def Part.spreadFirst (p : Part) (v : VolId) : Option LaneId :=
  if p.onlineMember v (p.vol v).rotation then some (p.vol v).rotation
  else nextLane (p.vol v).rotation (p.onlineMember v)

/-- The first lane of a READ by policy, with the rotation pointer moved for SPREAD (R9, R10). -/
def chooseFirst (v : VolId) (p : Part) : Option LaneId × Part :=
  match (p.vol v).policy with
  | .fixed => (p.actingReference v, p)
  | .spread =>
    match p.spreadFirst v with
    | none => (none, p)
    | some l => (some l, p.modVol v fun x => { x with rotation := (nextLane l (p.onlineMember v)).getD l })

/-- The next lane tried for a block: the next ONLINE member after the last lane tried that is untried (R9, R97). -/
def Part.nextTry (p : Part) (v : VolId) (tried : List LaneId) : Option LaneId :=
  match tried.getLast? with
  | none => none
  | some last => nextLane last fun l => p.onlineMember v l && !tried.contains l

/-- The maximal runs of positions whose block is unresolved, as (first position, count) (R97, R157). `at_` is the position
of the list's head. -/
def runs (want : BlockTry → Bool) : Nat → List BlockTry → List (Nat × Nat)
  | _, [] => []
  | i, b :: bs =>
    if want b then
      match runs want (i + 1) bs with
      | (j, n) :: rest => if j = i + 1 then (i, n + 1) :: rest else (i, 1) :: (j, n) :: rest
      | [] => [(i, 1)]
    else runs want (i + 1) bs

/-- Merge the statuses one lane gave for consecutive blocks into the blocks' histories, from position `at_` on (R97, R157). -/
def mergeTries (l : LaneId) : Nat → List Status → List BlockTry → List BlockTry
  | 0, s :: ss, b :: bs =>
    (match s with
      | .good => { b with source := some l, weak := false }
      | .corrected => { b with source := some l, weak := true }
      | _ => { b with failed := b.failed ++ [l] }) :: mergeTries l 0 ss bs
  | n + 1, ss, b :: bs => b :: mergeTries l n ss bs
  | _, [], bs => bs
  | _, _, [] => []

/-- The block has no readable copy yet. -/
def BlockTry.unresolved (b : BlockTry) : Bool := b.source.isNone

/-- A block no lane has been tried for. -/
def BlockTry.fresh : BlockTry := ⟨none, false, []⟩

/-- The discoveries of a run of blocks read by policy or by rebuild (R99, R160): in ascending block order, within a block in
the order its lanes were tried; none for an unresolved block. -/
def tryDiscoveries (v : VolId) (o : Origin) (tag : Word) : Nat → List BlockTry → List Discovery
  | _, [] => []
  | i, b :: bs =>
    (match b.source with
      | none => []
      | some l =>
        b.failed.map (fun f => ⟨f, v, i, .unreadable, o, tag⟩)
          ++ (if b.weak then [⟨l, v, i, .weak, o, tag⟩] else []))
      ++ tryDiscoveries v o tag (i + 1) bs

/-- The positions of unresolved blocks. -/
def unresolvedAt : Nat → List BlockTry → List Nat
  | _, [] => []
  | i, b :: bs => if b.unresolved then i :: unresolvedAt (i + 1) bs else unresolvedAt (i + 1) bs

end Sys2Proof.Machine
end

