-- ==== Sys2Proof/Machine/Shared.lean ====
section
/-!
DEFINITION. The three shared resources: extent locks (R85 to R87), the staging pool (R81 to R84) and the places of the lane
queues (R75, R76), each as pure operations on its own state and as operations of the part that hand the grants on (R89).
-/
namespace Sys2Proof.Machine

/-! ## Extent locks -/

/-- Two locks conflict (R86). -/
def Lock.conflicts (a b : Lock) : Bool :=
  a.volume = b.volume && a.first < b.first + b.count && b.first < a.first + a.count && (a.exclusive || b.exclusive)

/-- The lock conflicts with none of the list. -/
def Lock.clearOf (k : Lock) (ls : List Lock) : Bool := ls.all fun x => !k.conflicts x

/-- Test waiters in wait-list order, `blocked` being the earlier waiters that were not granted: the granted locks, the
waiters left, and the holders granted, in order (R86). -/
def Locks.test (granted blocked : List Lock) : List Lock → Locks × List Holder
  | [] => (⟨granted, blocked⟩, [])
  | k :: ks =>
    if k.clearOf granted && k.clearOf blocked then
      let r := Locks.test (granted ++ [k]) blocked ks
      (r.1, k.holder :: r.2)
    else Locks.test granted (blocked ++ [k]) ks

/-- Test every waiter. -/
def Locks.retest (t : Locks) : Locks × List Holder := Locks.test t.granted [] t.waiting

/-- A lock joins behind every waiter and is tested at once (R86). -/
def Locks.join (t : Locks) (k : Lock) : Locks × List Holder :=
  if k.clearOf t.granted && k.clearOf t.waiting then (⟨t.granted ++ [k], t.waiting⟩, [k.holder])
  else (⟨t.granted, t.waiting ++ [k]⟩, [])

/-- A holder's lock is released or withdrawn and the waiters are tested (R86, R87). -/
def Locks.leave (t : Locks) (h : Holder) : Locks × List Holder :=
  Locks.retest ⟨t.granted.filter (·.holder ≠ h), t.waiting.filter (·.holder ≠ h)⟩

/-- Ask for a lock; a grant is handed on in the step. -/
def askLock (k : Lock) (p : Part) : Part :=
  let r := p.locks.join k
  ({ p with locks := r.1 }).push (r.2.map .lockGranted)

/-- Release or withdraw a holder's lock. -/
def releaseLock (h : Holder) (p : Part) : Part :=
  let r := p.locks.leave h
  ({ p with locks := r.1 }).push (r.2.map .lockGranted)

/-! ## The staging pool -/

/-- The free buffers, ascending. -/
def Pool.freeBufs (q : Pool) : List BufId := allBufs.filter fun b => (q.holders[b.val]).isNone

/-- The free count (R81). -/
def Pool.freeCount (q : Pool) : Nat := q.freeBufs.length

/-- The buffers a holder holds, ascending: its buffer references in block order. -/
def Pool.bufsOf (q : Pool) (h : Holder) : List BufId := allBufs.filter fun b => q.holders[b.val] = some h

/-- Give the lowest `n` free buffers to a holder (log 10). -/
def Pool.give (q : Pool) (h : Holder) (n : Nat) : Pool :=
  { q with holders := (q.freeBufs.take n).foldl (fun hs b => hs.set b.val (some h)) q.holders }

/-- Test the head of the wait list, and each new head, while the need fits (R82): the pool and the holders granted. -/
def Pool.grant (q : Pool) : List (Holder × Nat) → Pool × List Holder
  | [] => ({ q with waiting := [] }, [])
  | (h, n) :: rest =>
    if n ≤ q.freeCount then
      let r := (q.give h n).grant rest
      (r.1, h :: r.2)
    else ({ q with waiting := (h, n) :: rest }, [])

/-- A holder joins the wait list with its need (R82). -/
def Pool.join (q : Pool) (h : Holder) (n : Nat) : Pool × List Holder := q.grant (q.waiting ++ [(h, n)])

/-- A holder's buffers are released whole and the head is tested (R82, R84). Where what ends is a wait (R134, R163), the model's
choice is to test the head too: R82 names a join and a release alone (log 52). -/
def Pool.leave (q : Pool) (h : Holder) : Pool × List Holder :=
  ({ q with holders := q.holders.map fun x => if x = some h then none else x }).grant (q.waiting.filter (·.1 ≠ h))

/-- Ask for buffers; a grant is handed on in the step. -/
def askBuffers (h : Holder) (n : Nat) (p : Part) : Part :=
  let r := p.pool.join h n
  ({ p with pool := r.1 }).push (r.2.map .buffersGranted)

/-- Release a holder's buffers, or withdraw its wait (log 52). -/
def releaseBuffers (h : Holder) (p : Part) : Part :=
  let r := p.pool.leave h
  ({ p with pool := r.1 }).push (r.2.map .buffersGranted)

/-- Release buffers and lock in one step, the buffer list tested first (5, worked example; log 34). -/
def releaseAll (h : Holder) (p : Part) : Part := releaseLock h (releaseBuffers h p)

/-- Clear every lock, grant and wait with nothing handed on (R81, R85, R89). -/
def clearShared (p : Part) : Part :=
  { p with locks := .empty, pool := { p.pool with holders := .replicate 64 none, waiting := [] } }

/-! ## Lane queues -/

/-- The places taken: the QUEUED operations and the one in service (R75). -/
def Lane.places (L : Lane) : Nat := L.queue.length + L.service.isSome.toNat

/-- The lane's state accepts an operation of this kind (R38). -/
def Part.accepts (p : Part) (l : LaneId) (k : OpKind) : Bool :=
  match k with
  | .read => p.online l
  | .write | .fill => p.serviceable l

/-! ## Dispatch translation (R79) -/

/-- Insert by lane block. -/
def insertRemap (x : Nat × Nat) : List (Nat × Nat) → List (Nat × Nat)
  | [] => [x]
  | y :: ys => if x.1 ≤ y.1 then x :: y :: ys else y :: insertRemap x ys

/-- The remap entries of a range of lane blocks, ascending. -/
def remapsIn (remap : List (Nat × Nat)) (start stop : Nat) : List (Nat × Nat) :=
  (remap.filter fun x => start ≤ x.1 && x.1 < stop).foldr insertRemap []

/-- The lane block of a spare index (00 4.2). -/
def spareBlock (capacity : Word) (s : Nat) : Nat := capacity.toNat - 256 + s

/-- Split the blocks from `cur` to `stop` at the remap entries: each run without one is a transaction, each block with one a
transaction of its own to its spare (R79). -/
def splitRuns (kind : OpKind) (capacity : Word) (start stop : Nat) : Nat → List (Nat × Nat) → List Piece
  | cur, [] => if cur < stop then [⟨kind, cur, stop - cur, cur - start⟩] else []
  | cur, (b, s) :: rest =>
    (if cur < b then [⟨kind, cur, b - cur, cur - start⟩] else [])
      ++ ⟨kind, spareBlock capacity s, 1, b - start⟩ :: splitRuns kind capacity start stop (b + 1) rest

/-- The link transactions of an operation. A record-class one is sent as addressed (R60, R79). -/
def Lane.translate (L : Lane) (op : LaneOp) : List Piece :=
  let stop := op.start + op.count
  splitRuns op.kind L.capacity op.start stop op.start
    (if op.cls = .record then [] else remapsIn L.remap op.start stop)

/-- The content of a buffer reference. -/
def Part.refData (p : Part) : BufRef → Block
  | .staging b => p.buffer b
  | .record l => (p.committer.buffers[l.val]).getD zeroBlock

/-- The data a WRITE operation carries for its block `i`; zeros for a fill (R30). -/
def Part.opData (p : Part) (op : LaneOp) (i : Nat) : Block :=
  match op.bufs[i]? with
  | some r => p.refData r
  | none => zeroBlock

/-! ## Choice of the next operation (R77) -/

/-- The oldest operation of a class, and the queue without it. -/
def takeClass (c : OpClass) : List LaneOp → Option (LaneOp × List LaneOp)
  | [] => none
  | op :: ops => if op.cls = c then some (op, ops) else (takeClass c ops).map fun r => (r.1, op :: r.2)

/-- The order of R77 under share ratio `s`: the operation, the queue left, and the streak after. -/
def choose (s streak : Nat) (q : List LaneOp) : Option (LaneOp × List LaneOp × Nat) :=
  match takeClass .record q with
  | some (op, rest) => some (op, rest, streak)
  | none =>
    match takeClass .foreground q, takeClass .background q with
    | some (f, rest), none => some (f, rest, min 15 (streak + 1))
    | some (f, rest), some (b, rest') =>
      if s ≤ streak then some (b, rest', 0) else some (f, rest, min 15 (streak + 1))
    | none, some (b, rest') => some (b, rest', 0)
    | none, none => none

/-- The operation as it becomes IN_SERVICE: its translation is fixed; a remap call has none and remaps at once (R79, R118). -/
def Part.serve (p : Part) (l : LaneId) (op : LaneOp) : Service :=
  if op.remapCall then ⟨op, [], none, [], [(op.start, p.opData op 0)], none, [.good], false, false⟩
  else ⟨op, (p.lane l).translate op, none, [], [], none, [], false, false⟩

/-- The lane controller chooses its next operation when none is in service (R77): the operation becomes IN_SERVICE in that step,
and its first transaction is then begun. While HOLD is asserted nothing is sent (R19; log 24). -/
def laneChoose (l : LaneId) (p : Part) : Part :=
  let L := p.lane l
  if L.service.isSome || L.txn.isSome || L.hold || !L.runtime.serviceable then p
  else
    match choose p.engine.share L.streak L.queue with
    | none => p
    | some (op, rest, streak) =>
      (p.setLane l { L with queue := rest, streak := streak, service := some (p.serve l op) }).push [.laneStart l]

/-- The place of the operation in service frees: the oldest waiter takes it, and then the next operation is chosen, the waiter with
the others (R76, R77). That the waiter joins the queue before the choice is the model's (log 32). -/
def freePlace (l : LaneId) (p : Part) : Part :=
  let L := p.lane l
  laneChoose l (p.setLane l { L with
    service := none, queue := L.queue ++ L.waiters.take 1, waiters := L.waiters.drop 1 })

/-! ## Issue -/

/-- Issue an operation the lane's state accepts: it takes a place, the lane choosing at once where none is in service, or waits
for a place (R76, R77). -/
def enqueue (l : LaneId) (op : LaneOp) (p : Part) : Part :=
  let L := p.lane l
  if L.places < Config.queuePlaces then
    laneChoose l (p.setLane l { L with queue := L.queue ++ [op] })
  else p.setLane l { L with waiters := L.waiters ++ [op] }

/-- Issue one operation to each lane of a list. -/
def enqueueEach (ls : List LaneId) (op : LaneId → LaneOp) (p : Part) : Part :=
  ls.foldl (fun q l => enqueue l (op l) q) p

end Sys2Proof.Machine
end

