-- ==== Sys2Proof/Machine/Docket.lean ====
section
/-!
DEFINITION. The docket unit: its transfers, sweeps and completions (chapter 11).
-/
namespace Sys2Proof.Machine

/-- The step a sweep takes next when the docket unit has no transfer in hand (R172). -/
def Sweep.nextXfer (w : Sweep) : DocketXfer := if w.consumed then .slotRead w.slot true else .consumedRead true

/-- Begin the next transfer when none is in hand: the oldest completion, else the sweep's next step (R170). -/
def Docket.next (d : Docket) : Docket :=
  if d.xfer.isSome then d
  else
    match d.completions, d.sweep with
    | e :: rest, _ => { d with completions := rest, xfer := some (.outcomeWrite e) }
    | [], some w => { d with xfer := some w.nextXfer }
    | [], none => d

/-- Begin a sweep at the sweep position, clearing the deferred flag (R171, R172). -/
def Docket.beginSweep (d : Docket) : Docket :=
  ({ d with sweep := some ⟨d.position, 0, none, false, false⟩, deferred := false }).next

/-- A due sweep is taken: it begins, or sets the rerun flag (R171). -/
def Docket.due (d : Docket) : Docket :=
  if d.sweep.isSome then { d with rerun := true } else d.beginSweep

/-- The sweep ends: its position is the slot after the last slot taken; a set rerun flag is cleared and begins a new sweep
while RUNNING (R173, R174). -/
def Docket.endSweep (d : Docket) (full running : Bool) : Docket :=
  match d.sweep with
  | none => d
  | some w =>
    let d := { d with
      sweep := none
      position := match w.lastTaken with
        | some n => (n + 1) % d.slots
        | none => d.position
      deferred := d.deferred || full }
    if d.rerun then
      let d := { d with rerun := false }
      if running then d.beginSweep else d
    else d

/-- The slot in hand has been examined; the sweep goes on, or ends when every slot has been examined or a HALT has stopped it
(R172, R173, R176). -/
def Docket.examined (d : Docket) (taken running : Bool) : Docket :=
  match d.sweep with
  | none => d
  | some w =>
    let w' := { w with
      slot := (w.slot + 1) % d.slots
      examined := w.examined + 1
      lastTaken := if taken then some w.slot else w.lastTaken }
    let d := { d with sweep := some w' }
    if w'.stop || d.slots ≤ w'.examined then d.endSweep false running else d

/-- HALT stops the sweep in flight: after the TAKEN write of the slot being taken, otherwise at once, a read in hand then
being let end without an examination (R176; log 17). -/
def Docket.halt (d : Docket) : Docket :=
  let d := { d with rerun := false, pollRunning := false }
  match d.sweep with
  | none => d
  | some w =>
    match d.xfer with
    | some (.takenWrite _) => { d with sweep := some { w with stop := true } }
    | _ =>
      ({ d with xfer := match d.xfer with
          | some (.consumedRead _) => some (.consumedRead false)
          | some (.slotRead n _) => some (.slotRead n false)
          | x => x }).endSweep false false

/-- On entry into FAULTED (R169). -/
def Docket.cut (d : Docket) : Docket :=
  { d with sweep := none, pollRunning := false, completions := [], xfer := none }

/-! ## Operations of the part -/

/-- The engine is RUNNING. -/
def Part.running (p : Part) : Bool := p.engine.state = .running

def docketNext (p : Part) : Part := { p with docket := p.docket.next }

def sweepDue (p : Part) : Part := { p with docket := p.docket.due }

/-- A slot number is held by an entry of the table (R172). -/
def Part.slotHeld (p : Part) (n : Nat) : Bool := p.entries.any fun x => x.2.slot = n

/-- The free entry a slot is taken into: the lowest-numbered (log 9). -/
def Part.freeEntry (p : Part) : Option EntryId := allEntries.find? fun e => (p.entry e).isNone

/-- A fresh entry for a slot as read (R172). -/
def Entry.taken (n : Nat) (bs : List Byte) : Entry :=
  ⟨n, parseRequest bs, .taking, .none, .none, .ok, 0, 0, 0⟩

/-- A slot read of the sweep in flight ends with these bytes (R172). -/
def slotExamined (n : Nat) (bs : List Byte) (p : Part) : Part :=
  let p := { p with docket := { p.docket with xfer := none } }
  if slotOwner bs ≠ ownerPosted || p.slotHeld n then
    docketNext { p with docket := p.docket.examined false p.running }
  else
    match p.freeEntry with
    | none => docketNext { p with docket := p.docket.endSweep true p.running }
    | some e =>
      { p.setEntry e (some (.taken n bs)) with docket := { p.docket with xfer := some (.takenWrite e) } }

/-- The TAKEN write of the slot being taken has ended: the sweep goes on (R172). -/
def takingDone (p : Part) : Part :=
  let p := { p with docket := { p.docket with xfer := none } }
  docketNext { p with docket := p.docket.examined true p.running }

/-- A request that has released its lock and buffers is finished: its entry goes to the completion list with its outcome
(11.6, R91). -/
def complete (e : EntryId) (o : ReqOutcome) (mask : LaneMask) (a b : Word) (p : Part) : Part :=
  let p := p.modEntry e fun x =>
    { x with state := .finishing, work := .none, outcome := o, laneMask := mask, detailA := a, detailB := b, mark := .none }
  docketNext { p with docket := { p.docket with completions := p.docket.completions ++ [e] } }

/-- A request releases its lock and buffers and is finished in one step (R84, R87, R91). -/
def finish (e : EntryId) (o : ReqOutcome) (mask : LaneMask) (a b : Word) (p : Part) : Part :=
  complete e o mask a b (releaseAll (.request e) p)

/-- A refusal: empty lane mask, both details 0 (R95, R177). -/
def refuse (e : EntryId) (o : ReqOutcome) (p : Part) : Part := finish e o 0 0 0 p

/-- The entry is freed; with the deferred flag set and the engine RUNNING a sweep is due (R178, R171). -/
def freeEntry (e : EntryId) (p : Part) : Part :=
  let p := p.setEntry e none
  if p.docket.deferred && p.running then sweepDue p else p

end Sys2Proof.Machine
end

