-- ==== Sys2Proof/Machine/Commits.lean ====
section
/-!
DEFINITION. The record committer: building records, starting and finishing commits, the ends of record writes (4.1 to 4.3).
-/
namespace Sys2Proof.Machine

/-! ## Records (R56) -/

/-- The lane table entry a lane controller holds (R40). -/
def Lane.entryOf (L : Lane) : LaneEntry := ⟨L.recorded, L.boundSerial, L.budget⟩

/-- The volume entries of a record: in use and not FILLING, ascending (4.2). -/
def Part.volumeEntries (p : Part) : List VolumeEntry :=
  (allVols.filter p.ready).map fun v =>
    let x := p.vol v
    ⟨v, x.members, x.reference, x.policy, x.first, x.length, x.label⟩

/-- The record of lane `l` under a generation, every field as it stands (R56). -/
def Part.buildRecord (p : Part) (generation : BitVec 64) (l : LaneId) : SetRecord where
  serial := p.committer.serial
  generation := generation
  clean := p.committer.clean
  lanes := p.lanes.map Lane.entryOf
  volumes := p.volumeEntries
  plan := p.patrol.plan
  patrol := p.patrol.state
  checkpoint := p.patrol.checkpoint
  position := l
  remap := (p.lane l).remap
  spareNext := (p.lane l).spareNext
  deadSpares := (p.lane l).deadSpares

/-- The lane block of a record slot (00 4.2). -/
def RecordSlot.block : RecordSlot → Nat
  | .a => 0
  | .b => 1

/-- The slot a lane's record write begins with (R60). -/
def Committer.slotFor (c : Committer) (l : LaneId) : RecordSlot :=
  if c.fresh[l.val] then .a
  else
    match c.slotInUse[l.val] with
    | some .a => .b
    | some .b => .a
    | none => .a

/-- A record write operation (R60, R74). -/
def recordOp (l : LaneId) (s : RecordSlot) : LaneOp := ⟨.record, .write, s.block, 1, [.record l], .committer, false⟩

/-! ## Starting a commit (R58, R59) -/

/-- The generation of the next commit; after the largest one the spec states none (log 13). -/
def nextGeneration (g : BitVec 64) : BitVec 64 :=
  if g = BitVec.allOnes 64 then Config.generationAfterLast else g + 1

/-- The lanes that are ONLINE or REBUILDING. -/
def Part.serviceableMask (p : Part) : LaneMask := LaneMask.ofList (allLanes.filter p.serviceable)

def Volume.bindHold (x : Volume) : Volume := { x with hold := x.hold.bind }
def Volume.releaseHold (x : Volume) : Volume := { x with hold := x.hold.release }
def Entry.bindMark (x : Entry) : Entry := { x with mark := x.mark.bind }
def Entry.releaseMark (x : Entry) : Entry := { x with mark := x.mark.release }

/-- Every waiting hold and every waiting waiter is bound to the commit that starts (R46, R59, R63). -/
def bindMarks (p : Part) : Part :=
  { p with
    volumes := p.volumes.map Volume.bindHold
    table := p.table.map (Option.map Entry.bindMark)
    engine := { p.engine with mark := p.engine.mark.bind } }

/-- The volumes whose hold is bound, and the requests whose mark is bound. -/
def Part.boundVolumes (p : Part) : List VolId := allVols.filter fun v => (p.vol v).hold = .bound

def Part.boundEntries (p : Part) : List EntryId := (p.entries.filter fun x => x.2.mark = .bound).map (·.1)

/-- The finish of the commit in flight (R62): holds and waiters bound to it are released and go on. -/
def releaseCommit (p : Part) : Part :=
  ({ p with
    volumes := p.volumes.map Volume.releaseHold
    table := p.table.map (Option.map Entry.releaseMark)
    engine := { p.engine with mark := p.engine.mark.release }
    committer := { p.committer with inFlight := none, buffers := .replicate 4 none } }).push
      (p.boundEntries.map Task.waiterDone ++ p.boundVolumes.map Task.holdCleared ++ [Task.commitDone])

/-- A commit starts (R59). With no target it finishes in the same step. -/
def startCommit (p : Part) : Part :=
  let generation := if p.committer.serial = 0 then p.committer.generation else nextGeneration p.committer.generation
  let targets := p.serviceableMask
  let built := Vector.ofFn fun l : Fin 4 =>
    if targets.has l then some (p.buildRecord generation l).block else none
  let p := bindMarks { p with committer := { p.committer with
    requested := false
    generation := generation
    inFlight := some ⟨generation, p.committer.clean, targets, .replicate 4 .pending⟩
    buffers := built } }
  if targets = 0 then releaseCommit p
  else enqueueEach targets.lanes (fun l => recordOp l (p.committer.slotFor l)) p

/-- A commit request reaches the committer (R58). -/
def requestCommit (p : Part) : Part :=
  let take := if p.committer.inFlight.isSome then { p with committer := { p.committer with requested := true } }
    else startCommit p
  match p.engine.state with
  | .detached => p
  | .faulted => { p with committer := { p.committer with requested := true } }
  | .attaching => if p.engine.attach = .firstCommits then take else p
  | _ => take

/-- A request waits for the first commit that starts after its change, with the outcome it will write (R63). -/
def Entry.await (o : ReqOutcome) (mask : LaneMask) (a b : Word) (x : Entry) : Entry :=
  { x with state := .waitCommit, mark := .waiting, outcome := o, laneMask := mask, detailA := a, detailB := b }

/-- A request makes its change known to the committer and waits for the commit (R63, R91). -/
def awaitCommit (e : EntryId) (mask : LaneMask) (p : Part) : Part :=
  requestCommit (p.modEntry e (Entry.await .ok mask 0 0))

/-! ## The ends of record writes (R60 to R62) -/

/-- The end lets the commit finish. -/
def WriteEnd.settled : WriteEnd → Bool
  | .written | .faulted | .lost => true
  | .pending | .faultAsked => false

/-- Note the end of a target's record write. -/
def Committer.note (c : Committer) (l : LaneId) (e : WriteEnd) : Committer :=
  { c with inFlight := c.inFlight.map fun k => { k with ends := k.ends.set l.val e } }

/-- Every target has ended its record write. -/
def Commit.ended (k : Commit) : Bool := k.targets.lanes.all fun l => (k.ends[l.val]).settled

/-- A record write operation of a lane has ended (R60, R61). -/
def recordEnded (l : LaneId) (op : LaneOp) (r : OpEnd) (p : Part) : Part :=
  match p.committer.inFlight with
  | none => p
  | some _ =>
    match r with
    | .laneLost => ({ p with committer := p.committer.note l .lost }).push [.commitTest]
    | .completed results _ =>
      if results.contains .writeFault then { p with committer := p.committer.note l .faultAsked }
      else if p.committer.fresh[l.val] && op.start = 0 then
        if p.serviceable l then enqueue l (recordOp l .b) p
        else ({ p with committer := p.committer.note l .lost }).push [.commitTest]
      else
        ({ p with committer := { p.committer.note l .written with
            slotInUse := p.committer.slotInUse.set l.val (some (if op.start = 0 then .a else .b))
            fresh := p.committer.fresh.set l.val false } }).push [.commitTest]

/-- The finish of a commit once every target has ended: the next starts at once if one was requested (R62). -/
def commitTest (p : Part) : Part :=
  match p.committer.inFlight with
  | none => p
  | some k =>
    if k.ended then
      let p := releaseCommit p
      if p.committer.requested then startCommit p else p
    else p

/-- A commit in flight is cut on entry into FAULTED and leaves commit-requested set (R55, R67). -/
def cutCommit (p : Part) : Part :=
  { p with committer := { p.committer with
    requested := p.committer.requested || p.committer.inFlight.isSome
    inFlight := none
    buffers := .replicate 4 none } }

end Sys2Proof.Machine
end

