-- ==== Sys2Proof/Machine/Discrepancies.lean ====
section
/-!
DEFINITION. The discrepancy list: admission, drops, the room waiter, removals (8.1 to 8.3), and the taking and leaving of an
entry by the repair unit (R128, R134, R135).
-/
namespace Sys2Proof.Machine

/-- UNREADABLE above MISMATCH above WEAK (8.1). -/
def DiscKind.worse : DiscKind → DiscKind → DiscKind
  | .unreadable, _ => .unreadable
  | _, .unreadable => .unreadable
  | .mismatch, _ => .mismatch
  | _, .mismatch => .mismatch
  | .weak, .weak => .weak

/-- The entry has the discovery's key. -/
def DiscEntry.sameKey (x : DiscEntry) (d : Discovery) : Bool :=
  x.lane = d.lane && x.volume = d.volume && x.block = d.block

/-- Origins PATROL and RECOVERY: their discoveries are held, not dropped (R126). -/
def Origin.held : Origin → Bool
  | .patrol | .recovery => true
  | _ => false

/-- The room of the list (R122). -/
def Repair.room (r : Repair) : Nat := Config.listSize - r.list.length

/-- Merge a discovery into the entry of its key (R124, test 2). -/
def Repair.merge (r : Repair) (d : Discovery) : Repair :=
  { r with list := r.list.map fun x => if x.sameKey d then { x with kind := x.kind.worse d.kind } else x }

/-- Place a new entry at the back (R124, test 3). -/
def Repair.place (r : Repair) (d : Discovery) : Repair :=
  { r with
    list := r.list ++ [⟨d.lane, d.volume, d.block, d.kind, d.origin, r.counter, false⟩]
    counter := r.counter + 1 }

/-- A full list takes a foreground discovery as a drop, with a LIST_FULL event at the start of an episode (R125). -/
def dropDiscovery (d : Discovery) (p : Part) : Part :=
  let n := satInc p.repair.dropped
  let q := { p with repair := { p.repair with dropped := n, episode := true } }
  if p.repair.episode then q else passEvent (listFullEvent d n) q

/-- A full list holds patrol's discovery as the room waiter's; a repair unit that has paused in HALTING serves the waiter
(R126, R135; log 19). -/
def holdDiscovery (d : Discovery) (p : Part) : Part :=
  let p := { p with repair := { p.repair with waiter := p.repair.waiter ++ [d] } }
  if p.engine.state = .halting then
    ({ p with repair := { p.repair with paused := false } }).push [.repairTake]
  else p

/-- One discovery admitted by the tests of R124, in order. -/
def admitDiscovery (d : Discovery) (p : Part) : Part :=
  if !p.online d.lane || !p.ready d.volume then p
  else if p.repair.list.any (·.sameKey d) then { p with repair := p.repair.merge d }
  else if p.repair.list.length < Config.listSize then
    ({ p with
      repair := p.repair.place d
      patrol := if d.origin.held then { p.patrol with made := satInc p.patrol.made } else p.patrol }).push
        [.repairTake, .patrolTry]
  else if d.origin.held then holdDiscovery d p
  else dropDiscovery d p

/-- A producer hands a discovery: patrol's join the room waiter's pending ones while it stands (R126). -/
def handDiscovery (p : Part) (d : Discovery) : Part :=
  if d.origin.held && !p.repair.waiter.isEmpty then
    { p with repair := { p.repair with waiter := p.repair.waiter ++ [d] } }
  else admitDiscovery d p

/-- Discoveries handed in order. -/
def handDiscoveries (ds : List Discovery) (p : Part) : Part := ds.foldl handDiscovery p

/-- Admit pending discoveries while the list has room (R126); `ds` are those not yet admitted. -/
def serveWaiter : List Discovery → Part → Part
  | [], p => { p with repair := { p.repair with waiter := [] } }
  | d :: ds, p =>
    if p.repair.list.length < Config.listSize then
      serveWaiter ds (admitDiscovery d { p with repair := { p.repair with waiter := ds } })
    else { p with repair := { p.repair with waiter := d :: ds } }

/-- What follows a removal, in the order of R127: the room waiter, the episode flag, patrol. -/
def afterRemoval (p : Part) : Part :=
  let stood := !p.repair.waiter.isEmpty
  let p := serveWaiter p.repair.waiter p
  let p := if p.repair.list.length < Config.listSize then { p with repair := { p.repair with episode := false } } else p
  p.push (if stood then [.patrolSettle, .patrolTry] else [.patrolTry])

/-- Remove entries; nothing follows where none is removed (R127). -/
def removeEntries (gone : DiscEntry → Bool) (p : Part) : Part :=
  if p.repair.list.any gone then
    afterRemoval { p with repair := { p.repair with list := p.repair.list.filter fun x => !gone x } }
  else p

/-- A departure removes every entry naming the lane; the repair in hand on that lane ends without an event (R127, R134). R134 ends
it when the unit next acts on the entry: the model's choice is the departure's own step wherever no operation is outstanding, also
while the unit waits for its lock, its buffers or the departure hold mark (DESIGN CHOICE, unsafe; log 56). -/
def removeLane (l : LaneId) (p : Part) : Part :=
  let p := match p.repair.work with
    | some w =>
      if w.lane = l then
        ({ p with repair := { p.repair with work := some { w with gone := true } } }).push [.repairLeave]
      else p
    | none => p
  removeEntries (fun x => x.lane = l) p

/-- In HALTING the unit pauses with no entry in hand and no room waiter (R135). -/
def repairPause (p : Part) : Part :=
  if p.engine.state = .halting && p.repair.work.isNone && p.repair.waiter.isEmpty then
    { p with repair := { p.repair with paused := true } }
  else p

/-- The oldest entry not in repair. -/
def Repair.oldest (r : Repair) : Option DiscEntry := r.list.find? fun x => !x.inRepair

/-- Set the in-repair mark of an entry. -/
def Repair.mark (r : Repair) (x : DiscEntry) : Repair :=
  { r with list := r.list.map fun y => if y = x then { y with inRepair := true } else y }

/-- The work begun on an entry. -/
def RepairWork.start (x : DiscEntry) : RepairWork :=
  ⟨x.lane, x.volume, x.block, x.origin, x.number, .lock, false, false, [], [], none, none, none, false⟩

/-- The idle, unpaused unit takes the oldest entry and asks for its lock (R128, R135). -/
def repairTake (p : Part) : Part :=
  let p := repairPause p
  if p.repair.work.isSome || p.repair.paused || !(p.running || p.engine.state = .halting) then p
  else
    match p.repair.oldest with
    | none => p
    | some x =>
      askLock ⟨.repair, x.volume, x.block, 1, true⟩
        { p with repair := { p.repair.mark x with work := some (.start x) } }

/-- The unit ends its work without an event once its last operation has ended (R134); with none outstanding at once, which for a
repair whose lane departs during a wait is the model's choice (DESIGN CHOICE, unsafe; log 56). -/
def repairLeave (p : Part) : Part :=
  match p.repair.work with
  | none => p
  | some w =>
    if w.gone && !w.outstanding then
      (releaseAll .repair { p with repair := { p.repair with work := none } }).push [.repairTake]
    else p

end Sys2Proof.Machine
end

