-- ==== Sys2Proof/Machine/Departures.lean ====
section
/-!
DEFINITION. Departures: the lane's own work, the new states by cause, and what each neighbour does (3.4, 3.5), and presence
losses (R31).
-/
namespace Sys2Proof.Machine

/-- Runtime state after a departure (R43). -/
def departedRuntime : DepartureCause → RuntimeState
  | .presenceLost => .empty
  | .strikes | .sparesExhausted | .record => .failed
  | .retire => .offline

/-- Recorded state after a departure (R43). -/
def departedRecorded : DepartureCause → RecordedState
  | .presenceLost => .departed
  | .strikes | .sparesExhausted | .record => .failed
  | .retire => .offline

/-- A transaction is in flight, or an operation waits for the HOLD pulse that cuts it (R44). -/
def Lane.cutting (L : Lane) : Bool := L.txn.isSome || (L.service.map (·.ending)).getD false

/-- The operations that end LANE_LOST at once when the lane's work is cleared: on presence loss every one; otherwise every
one but that of a transaction in flight (R31, R44). They are handed to their producers in the order of service, queue and place
waiters, the model's choice (log 45). -/
def Lane.endedBy (L : Lane) (presence : Bool) : List LaneOp :=
  (if !presence && L.cutting then [] else (L.service.map (·.op)).toList) ++ L.queue ++ L.waiters

/-- The lane with its work cleared. -/
def Lane.cleared (L : Lane) (presence : Bool) : Lane :=
  { L with
    service := if !presence && L.cutting then L.service.map fun sv => { sv with ending := true } else none
    queue := []
    waiters := []
    streak := 0
    txn := none
    pulse := if !presence && L.txn.isSome then some (L.pulse.getD .departure) else L.pulse }

/-- Clear the lane's own work; each operation that ends is handed to its producer (R31, R44). -/
def clearLaneWork (l : LaneId) (presence : Bool) (p : Part) : Part :=
  (p.setLane l ((p.lane l).cleared presence)).push
    (((p.lane l).endedBy presence).map fun op => Task.opEnded l op .laneLost)

/-- The identity of a lane is forgotten (R31). -/
def Lane.unidentified (L : Lane) : Lane :=
  { L with identified := false, serial := 0, capacity := 0, largest := 0, identification := none }

/-! ## The neighbours (R45) -/

/-- A WRITE at the lanes whose target set holds the lane has its waiter mark set to waiting (R104). -/
def Entry.loseTarget (l : LaneId) (x : Entry) : Entry :=
  match x.state, x.work with
  | .atLanes, .write w => if !w.waitsHold && w.targets.has l then { x with mark := .waiting } else x
  | _, _ => x

/-- The member has ended its last piece written. -/
def FillLane.filled (pieces : Nat) (f : FillLane) : Bool := !f.lost && pieces ≤ f.next && !f.outstanding

/-- A fill member that has not ended its last piece written is lost with its lane; a piece of it that is outstanding ends by its
own LANE_LOST (R15, R44). -/
def FillLane.depart (pieces : Nat) (l : LaneId) (f : FillLane) : FillLane :=
  if f.lane = l && !f.filled pieces then { f with waitsHold := false, lost := true } else f

def Entry.departFill (l : LaneId) (x : Entry) : Entry :=
  match x.work with
  | .fill n fs => { x with work := .fill n (fs.map (FillLane.depart n l)) }
  | _ => x

/-- A VERIFY that waits for its buffers issues nothing to a lane that has departed since its read lanes were fixed (R83). -/
def Entry.departVerify (l : LaneId) (x : Entry) : Entry :=
  match x.state, x.work with
  | .waitBuffers, .verify w => { x with work := .verify { w with gone := w.gone.add l } }
  | _, _ => x

/-- What a departure of lane `l` does to a request. -/
def Entry.depart (l : LaneId) (x : Entry) : Entry := ((x.loseTarget l).departFill l).departVerify l

/-- The entries that run a fill. -/
def Part.fillEntries (p : Part) : List EntryId :=
  (p.entries.filter fun x => match x.2.work with | .fill _ _ => true | _ => false).map (·.1)

def Volume.departHold (l : LaneId) (x : Volume) : Volume :=
  if x.inUse && x.members.has l then { x with hold := .waiting } else x

/-- Departure holds on every in-use volume of the lane, FILLING ones included (R45, R46). -/
def holdVolumes (l : LaneId) (p : Part) : Part :=
  { p with volumes := p.volumes.map (Volume.departHold l) }

/-- What the request engine does beside the derivations: holds, lost targets, fills. -/
def requestsDepart (l : LaneId) (p : Part) : Part :=
  let p := holdVolumes l p
  ({ p with table := p.table.map (Option.map (Entry.depart l)) }).push
    (p.fillEntries.map Task.fillTest)

/-- A patrol chunk that waits for its buffers issues nothing to a lane that has departed since its read lanes were fixed (R83). -/
def PatrolChunk.depart (l : LaneId) (c : PatrolChunk) : PatrolChunk :=
  if c.phase = .buffers then { c with gone := c.gone.add l } else c

/-- What the patrol unit does at a departure. -/
def patrolDepart (l : LaneId) (p : Part) : Part :=
  { p with patrol := { p.patrol with chunk := p.patrol.chunk.map (PatrolChunk.depart l) } }

/-- The lane is the target of a running rebuild. -/
def Part.rebuilds (p : Part) (l : LaneId) : Bool :=
  p.rebuild.state = .running && p.rebuild.target = some l && !p.rebuild.aborting

/-- A departure of the rebuild target aborts the rebuild, unless it is HELD (R163, R164). -/
def rebuildDepart (l : LaneId) (c : DepartureCause) (tag : Word) (p : Part) : Part :=
  if p.rebuilds l then
    let r := p.rebuild
    let p := passEvent (rebuildEvent (some l) (some r.cursorVol) (departureLaneCause c).code r.cursorBlock r.copied
      (r.skip.setWidth 32) (if c = .retire then tag else 0)) p
    ({ p with rebuild := { r with aborting := true } }).push [.rebuildLeave]
  else p

/-- The rebuild unit IDLE again: the counts keep their values (R162, R163). -/
def Rebuild.toIdle (r : Rebuild) : Rebuild :=
  { r with state := .idle, target := none, volumes := [], skip := 0, chunk := none, passed := false, aborting := false }

/-- The aborted rebuild lets go of its lock and buffers once its last operation has ended; with its chunk gone in HALTING
the paused flag is set (R163, R165). -/
def rebuildLeave (p : Part) : Part :=
  let idle : Part := { p with rebuild :=
    { p.rebuild.toIdle with paused := p.rebuild.paused || p.engine.state = .halting } }
  if p.rebuild.aborting then
    match p.rebuild.chunk with
    | none => idle
    | some k => if k.outstanding = 0 then releaseAll .rebuild idle else p
  else p

/-- A record fault whose departure request was on its way is settled by the departure (log 15). -/
def settleFault (l : LaneId) (p : Part) : Part :=
  let change (k : Commit) : Commit := if k.ends[l.val] = .faultAsked then { k with ends := k.ends.set l.val .faulted } else k
  ({ p with committer := { p.committer with inFlight := p.committer.inFlight.map change } }).push [.commitTest]

/-- The REBUILD event of an abort comes before the LANE_STATE event; a free value (log 14). -/
def rebuildFirst (p : Part) : Bool := Config.rebuildEventFirst p.free

/-- The lane's states and events of a departure, with the rebuild's abort before or after them as the free value says. -/
def departLane (l : LaneId) (c : DepartureCause) (tag : Word) (p : Part) : Part :=
  if p.rebuilds l then
    let q := { p with free := p.free + 1 }
    if rebuildFirst p then
      changeRuntime l (departedRuntime c) (departureLaneCause c) tag (rebuildDepart l c tag q)
    else rebuildDepart l c tag (changeRuntime l (departedRuntime c) (departureLaneCause c) tag q)
  else changeRuntime l (departedRuntime c) (departureLaneCause c) tag p

/-- What the neighbours do at a departure (R45), and the holders whose read lanes are fixed (R83). -/
def neighboursDepart (l : LaneId) (p : Part) : Part := settleFault l (removeLane l (patrolDepart l (requestsDepart l p)))

/-- A departure request taken by the lane controller: a no-op unless the lane is serviceable (R43 to R45). In FAULTED, where only
a presence loss is taken, the volume table, the holds and the discrepancy list are kept (R2, R46, R121, R191; log 29). -/
def depart (l : LaneId) (c : DepartureCause) (tag : Word) (p : Part) : Part :=
  if !p.serviceable l then p
  else
    let presence : Bool := c = .presenceLost
    let p := clearLaneWork l presence p
    let p := p.modLane l fun L =>
      { (if presence then L.unidentified else L) with recorded := departedRecorded c }
    let p := departLane l c tag p
    requestCommit (if p.engine.state = .faulted then p else neighboursDepart l p)

/-- PRESENT has fallen on the lane and the fall is taken (R31). -/
def presenceLost (l : LaneId) (p : Part) : Part :=
  if p.serviceable l then depart l .presenceLost 0 p
  else
    let p := (clearLaneWork l true p).modLane l Lane.unidentified
    if (p.lane l).runtime = .empty then p else changeRuntime l .empty .presenceLost 0 p

end Sys2Proof.Machine
end

