-- ==== Sys2Proof/Machine/Link.lean ====
section
/-!
DEFINITION. The lane controllers at work: transactions and link failures (2.3), choice and dispatch of operations (5.3, 5.4),
remapping (chapter 7), identification (R32) and HOLD pulses.
-/
namespace Sys2Proof.Machine

/-! ## Transactions (R21, R23, R37) -/

/-- A new transaction: its three counts at 0, awaiting a reply. -/
def Txn.start (c : Command) : Txn := ⟨c, 0, 0, 0, .awaiting⟩

/-- The lane begins a transaction and sends its command. -/
def Lane.begin (L : Lane) (c : Command) : Lane :=
  { L.count (fun k => { k with transactions := satInc k.transactions }) with
    txn := some (.start c)
    lastSent := some (.command c) }

def beginTxn (l : LaneId) (c : Command) (p : Part) : Part := p.modLane l (·.begin c)

/-- The command whose reply the lane awaits (R22). -/
def Lane.awaited (L : Lane) : Option Command :=
  match L.txn with
  | some t => if t.phase = .awaiting then some t.cmd else none
  | none => none

/-- Change the transaction outstanding. -/
def Lane.modTxn (L : Lane) (f : Txn → Txn) : Lane := { L with txn := L.txn.map f }

/-- Change the operation in service. -/
def Lane.modService (L : Lane) (f : Service → Service) : Lane := { L with service := L.service.map f }

/-! ## Zero writes of a fill (R30) -/

/-- WRITE transactions of up to 16 zero blocks over a run of `count` blocks (R30); `fuel` bounds their number. -/
def zeroPieces : Nat → Nat → Nat → Nat → List Piece
  | 0, _, _, _ => []
  | fuel + 1, block, count, pos =>
    if count = 0 then []
    else
      let n := min count Config.maxCount
      ⟨.write, block, n, pos⟩ :: zeroPieces fuel (block + n) (count - n) (pos + n)

/-! ## Data of an operation -/

/-- The command of a transaction of an operation. -/
def Part.pieceCommand (p : Part) (op : LaneOp) (x : Piece) : Command :=
  match x.kind with
  | .read => .read x.block x.count
  | .write => .write x.block ((List.range x.count).map fun i => p.opData op (x.pos + i))
  | .fill => .fill x.block x.count

/-- Place the data of the readable blocks of a READ transaction in the buffers its operation names (R29, R79). -/
def placeData (op : LaneOp) : Nat → List Status → List Block → Part → Part
  | _, [], _, p => p
  | i, s :: ss, ds, p =>
    if s.readable then
      match ds, op.bufs[i]? with
      | d :: rest, some (.staging b) => placeData op (i + 1) ss rest (p.setBuffer b d)
      | d :: rest, _ => let _ := d; placeData op (i + 1) ss rest p
      | [], _ => placeData op (i + 1) ss [] p
    else placeData op (i + 1) ss ds p

/-! ## Remapping (R112 to R119) -/

/-- The tag of the request whose WRITE caused a remap, 0 for other producers and fills (R119). -/
def Part.remapTag (p : Part) (op : LaneOp) : Word :=
  match op.producer, op.kind with
  | .request e, .write => ((p.entry e).map (·.req.tag)).getD 0
  | _, _ => 0

/-- Begin a trial on spare-next, or ask for a departure when the spares are used up (R113, R116). -/
def startTrial (l : LaneId) (block : Nat) (data : Block) (p : Part) : Part :=
  let L := p.lane l
  if Config.spareCount ≤ L.spareNext then
    depart l .sparesExhausted 0 (p.modLane l fun L => L.modService fun sv => { sv with trial := none })
  else
    beginTxn l (.write (spareBlock L.capacity L.spareNext) [data])
      (p.modLane l fun L => L.modService fun sv =>
        { sv with trial := some ⟨block, data, L.spareNext, false⟩, cur := none })

/-- The transactions of an operation go on: the next remap, the next zero WRITE, the next transaction, or the operation's
end, which frees its place to the oldest waiter and hands the results to the producer (R76, R80, R113). -/
def serviceNext (l : LaneId) (p : Part) : Part :=
  let L := p.lane l
  match L.service with
  | none => p
  | some sv =>
    match sv.faults with
    | (b, d) :: _ => startTrial l b d p
    | [] =>
      match sv.zeros with
      | z :: zs =>
        beginTxn l (p.pieceCommand sv.op z)
          (p.setLane l { L with service := some { sv with zeros := zs, cur := some z } })
      | [] =>
        match sv.todo with
        | t :: ts =>
          beginTxn l (p.pieceCommand sv.op t)
            (p.setLane l { L with service := some { sv with todo := ts, cur := some t } })
        | [] =>
          freePlace l (p.push [.opEnded l sv.op (.completed sv.results sv.remapped)])

/-- The operation chosen begins its first transaction, or its remap (R79, R118). -/
def laneStart (l : LaneId) (p : Part) : Part :=
  let L := p.lane l
  match L.service with
  | none => p
  | some sv =>
    if L.txn.isSome || L.hold || sv.ending || sv.trial.isSome || sv.cur.isSome then p else serviceNext l p

/-- Spare-next advances; at 224 with the mark clear the mark is set and SPARES_LOW passed (R119). -/
def advanceSpare (l : LaneId) (block : Nat) (tag : Word) (change : Lane → Lane) (p : Part) : Part :=
  let p := p.modLane l fun L => change { L with spareNext := L.spareNext + 1 }
  let L := p.lane l
  if Config.sparesLowAt ≤ L.spareNext && !L.sparesLow then
    passEvent (sparesLowEvent l block L.spareNext L.deadSpares tag) (p.setLane l { L with sparesLow := true })
  else p

/-- Insert `block -> spare` at the end of the insertion order; an entry replaced leaves its spare dead (R114). -/
def Lane.insertRemap (block spare : Nat) (L : Lane) : Lane :=
  { L with
    remap := L.remap.filter (fun x => x.1 ≠ block) ++ [(block, spare)]
    deadSpares := if L.remap.any (fun x => x.1 = block) then L.deadSpares + 1 else L.deadSpares }

/-- A trial succeeded (R114). -/
def settleGood (l : LaneId) (t : Trial) (op : LaneOp) (p : Part) : Part :=
  let p := advanceSpare l t.block (p.remapTag op) (Lane.insertRemap t.block t.spare) p
  let p := p.modLane l fun L => L.modService fun sv =>
    { sv with trial := none, faults := sv.faults.tail, remapped := true }
  serviceNext l (requestCommit p)

/-- A trial failed: the spare is dead and the next one is tried (R115). -/
def settleDead (l : LaneId) (t : Trial) (op : LaneOp) (p : Part) : Part :=
  let p := advanceSpare l t.block (p.remapTag op) (fun L => { L with deadSpares := L.deadSpares + 1 }) p
  startTrial l t.block t.data (requestCommit p)

/-! ## Identification (R32, R41, R57) -/

/-- Begin identification; IDENT waits while HOLD is asserted (R19, R32; log 24). -/
def beginIdentify (l : LaneId) (p : Part) : Part :=
  let p := (setRuntimeQuietly l .identifying p).modLane l fun L => { L with identification := some .ident }
  if (p.lane l).hold then p else beginTxn l .ident p

/-- The change held during ATTACHING is taken once the lane's identification has ended (R33, R68). -/
def takeHeld (l : LaneId) (p : Part) : Part :=
  let L := p.lane l
  if !L.held then p
  else
    let p := p.modLane l fun L => { L with held := false, fell := false }
    let p := if L.fell then presenceLost l p else p
    if (p.lane l).present && (p.lane l).runtime = .empty then beginIdentify l p else p

/-- A lane's identification has ended: in ATTACHING a held change is taken and assembly may go on (R68). -/
def identifyEnded (l : LaneId) (p : Part) : Part :=
  if p.engine.state = .attaching then (takeHeld l p).push [.assemble] else p

/-- Identification fails: FAILED, identified mark clear, no strike (R32). -/
def identifyFailed (l : LaneId) (p : Part) : Part :=
  let p := p.modLane l fun L => { L.unidentified with txn := none }
  identifyEnded l (changeRuntime l .failed .identFailed 0 p)

/-- The arrival mapping of R41. Serial 0 is compared as any other here: R70's exception is taken for assembly alone (log 54). -/
def Lane.arrival (L : Lane) (serial : BitVec 64) : RuntimeState :=
  if L.recorded = .unbound || L.boundSerial ≠ serial then .foreign
  else
    match L.recorded with
    | .failed => .failed
    | .offline => .offline
    | _ => .stale

/-- Identification succeeds: the identity is kept, the record slots are judged (R57), and the lane is mapped by arrival or
handed to assembly, as FOREIGN until it maps it (R32, R41, R68; log 23). -/
def identifySucceeded (l : LaneId) (serial : BitVec 64) (capacity largest : Word) (a b : Option Block) (p : Part) : Part :=
  let ra := parseRecord a
  let rb := parseRecord b
  let newest := newestRecord ra rb
  let assembling : Bool := p.engine.state = .attaching && p.engine.attach = .identifying
  let p := p.modLane l fun L =>
    { L with txn := none, identification := none, identified := true, serial := serial, capacity := capacity,
             largest := largest }
  let p := { p with committer := { p.committer with
    slotInUse := p.committer.slotInUse.set l.val (newest.map (·.1))
    newest := p.committer.newest.set l.val (newest.map (·.2))
    seen := if p.engine.state = .attaching then
        p.committer.seen ++ (ra.map (·.serial)).toList ++ (rb.map (·.serial)).toList
      else p.committer.seen } }
  let new := if assembling then .foreign else (p.lane l).arrival serial
  identifyEnded l (changeRuntime l new .arrival 0 p)

/-! ## Link failures (R28, R48) -/

/-- The same transaction is begun again from the start (R28). -/
def Lane.reissue (L : Lane) : Lane :=
  match L.txn with
  | some t => L.begin t.cmd
  | none => L

/-- A link failure ends the lane's transaction: identification fails, or a strike is counted and the transaction is begun
again, or the lane departs with cause STRIKES (R28, R48). -/
def linkFailure (l : LaneId) (p : Part) : Part :=
  let L := p.lane l
  match L.runtime with
  | .identifying => identifyFailed l p
  | .online | .rebuilding =>
    if L.budget ≤ 1 then
      depart l .strikes 0 (p.modLane l fun L => { L with budget := 0, txn := none })
    else p.modLane l fun L => { L.reissue with budget := L.budget - 1 }
  | _ => p.modLane l fun L => { L with txn := none }

/-! ## Replies (R22, R24, R25, R27, R29, R30) -/

/-- A bad reply (R24). -/
def badReplyTaken (l : LaneId) (p : Part) : Part :=
  match (p.lane l).txn with
  | none => p
  | some t =>
    if t.phase ≠ .awaiting then p
    else if t.replyResends < Config.resendLimit then
      p.modLane l fun L =>
        { (L.modTxn fun t => { t with replyResends := t.replyResends + 1 }).count
            (fun k => { k with resends := satInc k.resends }) with lastSent := some .resend }
    else linkFailure l p

/-- A RESEND of the module (R25). -/
def moduleResendTaken (l : LaneId) (p : Part) : Part :=
  match (p.lane l).txn with
  | none => p
  | some t =>
    if t.phase ≠ .awaiting then p
    else if t.commandResends < Config.resendLimit then
      p.modLane l fun L =>
        { (L.modTxn fun t => { t with commandResends := t.commandResends + 1 }).count
            (fun k => { k with resends := satInc k.resends }) with lastSent := some (.command t.cmd) }
    else linkFailure l p

/-- NOT_READY (R27). -/
def notReadyTaken (l : LaneId) (p : Part) : Part :=
  match (p.lane l).txn with
  | none => p
  | some t =>
    if t.phase ≠ .awaiting then p
    else if t.notReady < Config.notReadyLimit then
      p.modLane l fun L => L.modTxn fun t => { t with phase := .notReadyWait }
    else linkFailure l p

/-- The end of the 10 ms wait (R27). -/
def notReadyWaited (l : LaneId) (p : Part) : Part :=
  match (p.lane l).txn with
  | none => p
  | some t =>
    if t.phase ≠ .notReadyWait then p
    else
      p.modLane l fun L =>
        { (L.modTxn fun t => { t with phase := .awaiting, notReady := t.notReady + 1 }).count
            (fun k => { k with notReadyRetries := satInc k.notReadyRetries }) with lastSent := some (.command t.cmd) }

/-- An IDENT reply (R22, R32): the record slot READ follows. -/
def identReplyTaken (l : LaneId) (serial : BitVec 64) (capacity largest : Word) (p : Part) : Part :=
  match (p.lane l).awaited with
  | none => p
  | some .ident =>
    if capacity.toNat < Config.leastCapacity || largest.toNat < Config.leastLargest then linkFailure l p
    else
      beginTxn l (.read 0 2)
        (p.modLane l fun L => { L with identification := some (.slots serial capacity largest) })
  | some _ => badReplyTaken l p

/-- The content of a record slot READ: none for an UNREADABLE slot (R32). -/
def slotContents : List Status → List Block → List (Option Block)
  | [], _ => []
  | s :: ss, ds =>
    if s.readable then
      match ds with
      | d :: rest => some d :: slotContents ss rest
      | [] => some zeroBlock :: slotContents ss []
    else none :: slotContents ss ds

/-- The statuses of a completed READ reply are counted (R29, R37). -/
def Lane.countRead (L : Lane) (ss : List Status) : Lane :=
  L.count fun k =>
    { k with
      corrected := satAdd k.corrected (countStatus .corrected ss)
      unreadable := satAdd k.unreadable (countStatus .unreadable ss) }

/-- The statuses of a completed WRITE or FILL reply are counted (R29, R37). -/
def Lane.countWrite (L : Lane) (ss : List Status) : Lane :=
  L.count fun k => { k with writeFaults := satAdd k.writeFaults (countStatus .writeFault ss) }

/-- The results of a transaction join the operation's, in block order (R80). -/
def Lane.addResults (L : Lane) (ss : List Status) : Lane :=
  L.modService fun sv => { sv with results := sv.results ++ ss, cur := none }

/-- A READ transaction has ended completed: identification, a trial's readback, or the operation in service takes it. -/
def readCompleted (l : LaneId) (ss : List Status) (data : List Block) (p : Part) : Part :=
  let p := p.modLane l fun L => { L.countRead ss with txn := none }
  let L := p.lane l
  match L.identification with
  | some (.slots serial capacity largest) =>
    match slotContents ss data with
    | [a, b] => identifySucceeded l serial capacity largest a b p
    | _ => identifyFailed l p
  | some .ident => p
  | none =>
    match L.service with
    | none => p
    | some sv =>
      match sv.trial, sv.cur with
      | some t, _ =>
        let p := if ss = [.unreadable] then p else p.modLane l fun L => { L with readback := data.headD zeroBlock }
        if ss = [.good] && sameBlock (data.headD zeroBlock) t.data then settleGood l t sv.op p
        else settleDead l t sv.op p
      | none, some x =>
        serviceNext l ((placeData sv.op x.pos ss data p).modLane l fun L => L.addResults ss)
      | none, none => p

/-- A READ reply (R20, R22, R29). -/
def readReplyTaken (l : LaneId) (codes : List Byte) (data : List Block) (p : Part) : Part :=
  match (p.lane l).awaited with
  | none => p
  | some (.read _ n) =>
    if codes.length ≠ n || data.length ≠ (codes.filter fun c => carriesData (statusOf c)).length then badReplyTaken l p
    else
      match readStatuses codes with
      | none => linkFailure l p
      | some ss => readCompleted l ss data p
  | some _ => badReplyTaken l p

/-- The data blocks of a transaction that reported WRITE_FAULT, with their data (R112): block `i` of the operation is lane
block start + i, before translation. -/
def Part.faultsOf (p : Part) (op : LaneOp) : Nat → List Status → List (Nat × Block)
  | _, [] => []
  | i, s :: ss =>
    if s = .writeFault then (op.start + i, p.opData op i) :: p.faultsOf op (i + 1) ss else p.faultsOf op (i + 1) ss

/-- A WRITE transaction has ended completed (R29): a trial's write (R113), a zero WRITE of a fill (R30), a record write
(R61) or a WRITE of data. -/
def writeCompleted (l : LaneId) (ss : List Status) (p : Part) : Part :=
  let p := p.modLane l fun L => { L.countWrite ss with txn := none }
  match (p.lane l).service with
  | none => p
  | some sv =>
    match sv.trial, sv.cur with
    | some t, _ =>
      if ss = [.good] then
        beginTxn l (.read (spareBlock (p.lane l).capacity t.spare) 1)
          (p.modLane l fun L => L.modService fun sv => { sv with trial := some { t with reading := true } })
      else settleDead l t sv.op p
    | none, some x =>
      if sv.op.cls = .record then serviceNext l (p.modLane l fun L => L.addResults ss)
      else if sv.op.kind = .fill then
        serviceNext l (p.modLane l fun L => L.modService fun sv =>
          { sv with cur := none, faults := p.faultsOf sv.op x.pos ss })
      else
        serviceNext l (p.modLane l fun L => (L.addResults (ss.map fun _ => .good)).modService fun sv =>
          { sv with faults := p.faultsOf sv.op x.pos ss })
    | none, none => p

/-- A WRITE reply (R20, R22). -/
def writeReplyTaken (l : LaneId) (codes : List Byte) (p : Part) : Part :=
  match (p.lane l).awaited with
  | none => p
  | some (.write _ d) =>
    if codes.length ≠ d.length then badReplyTaken l p
    else
      match writeStatuses codes with
      | none => linkFailure l p
      | some ss => writeCompleted l ss p
  | some _ => badReplyTaken l p

/-- A FILL transaction has ended: its run is written, or is written again with zero WRITEs (R30). -/
def fillCompleted (l : LaneId) (s : Status) (p : Part) : Part :=
  let p := p.modLane l fun L => { L.countWrite [s] with txn := none }
  match (p.lane l).service with
  | none => p
  | some sv =>
    match sv.cur with
    | none => p
    | some x =>
      serviceNext l (p.modLane l fun L => (L.addResults (List.replicate x.count .good)).modService fun sv =>
        { sv with zeros := if s = .writeFault then zeroPieces (x.count / Config.maxCount + 1) x.block x.count x.pos else [] })

/-- A FILL reply (R20, R22). -/
def fillReplyTaken (l : LaneId) (code : Byte) (p : Part) : Part :=
  match (p.lane l).awaited with
  | none => p
  | some (.fill _ _) =>
    match writeStatuses [code] with
    | some [s] => fillCompleted l s p
    | _ => linkFailure l p
  | some _ => badReplyTaken l p

/-! ## Timeouts and HOLD pulses (R26, R36, R44) -/

/-- Expiry of the reply timer (R26). -/
def replyTimedOut (l : LaneId) (p : Part) : Part :=
  match (p.lane l).txn with
  | none => p
  | some t =>
    if t.phase ≠ .awaiting then p
    else
      p.modLane l fun L =>
        { (L.modTxn fun t => { t with phase := .timeoutHold }).count
            (fun k => { k with timeouts := satInc k.timeouts }) with pulse := some .timeout }

/-- A pulse ends and HOLD is deasserted: a timed-out transaction ends as a link failure (R26), an operation cut by a departure ends
LANE_LOST (R44), and what waited for the line goes on (log 24). Where a line test begun meanwhile keeps HOLD asserted, the operation
ends LANE_LOST here all the same (log 50). -/
def endPulse (l : LaneId) (p : Part) : Part :=
  let p := p.modLane l fun L => { L with pulse := none }
  let L := p.lane l
  match L.txn with
  | some _ => linkFailure l p
  | none =>
    if L.identification = some .ident && !L.hold then beginTxn l .ident p
    else
      match L.service with
      | some sv =>
        if sv.ending then freePlace l (p.push [.opEnded l sv.op .laneLost]) else p
      | none => laneChoose l p

/-- The pulse under way is the one whose end the command reports. A timeout pulse that a departure or a cut found under way
serves as theirs (R36, R44). -/
def Lane.pulseIs (L : Lane) (x : Pulse) : Bool :=
  match L.pulse, x with
  | some .timeout, .timeout => true
  | some .timeout, _ => L.txn.isNone
  | some .departure, .departure => true
  | some .cut, .cut => true
  | _, _ => false

/-- The end of a pulse. -/
def pulseEnded (x : Pulse) (l : LaneId) (p : Part) : Part := if (p.lane l).pulseIs x then endPulse l p else p

/-- On ABANDON and entry into FAULTED a lane with a transaction in flight gets a 1 ms pulse, a timeout pulse under way
serving as it; the lane's work is discarded; a line test ends at once (R35, R36, R75). -/
def Lane.cut (L : Lane) : Lane :=
  { L with
    pulse := if L.txn.isSome then some (L.pulse.getD .cut) else L.pulse
    txn := none
    service := none
    queue := []
    waiters := []
    streak := 0
    identification := none
    lineTest := none
    runtime := match L.lineTest with
      | some t => t.remembered
      | none => L.runtime }

end Sys2Proof.Machine
end

