-- ==== Sys2Proof/Machine/PatrolUnit.lean ====
section
/-!
DEFINITION. The patrol unit: chunks, checkpoints, span and pass ends, the recovery pass, STOP (chapter 9).
-/
namespace Sys2Proof.Machine

/-- Chunks may begin (R136): the engine is RUNNING and the paused flag clear. -/
def Part.patrolRuns (p : Part) : Bool := p.running && !p.patrol.paused

/-- Plan work runs: also no recovery pass is due or running (R136, R150). -/
def Part.planRuns (p : Part) : Bool := p.patrolRuns && !p.patrol.marker

/-- The span being walked: a whole volume during the recovery pass, else the plan's (R150). -/
def Part.currentSpan (p : Part) : Option Span :=
  if p.patrol.marker then p.patrol.recovery.head?.map fun v => ⟨v, 0, (p.vol v).length⟩
  else p.patrol.plan.bind fun pl => pl.spans[p.patrol.span]?

/-- Change the patrol unit's state. -/
def Part.modPatrol (p : Part) (f : Patrol → Patrol) : Part := { p with patrol := f p.patrol }

/-! ## Passes (R141, R148, R151) -/

/-- A new pass after the rest (R141). -/
def Patrol.newPass (q : Patrol) : Patrol :=
  { q with pass := q.pass + 1, span := 0, offset := 0, checked := 0, made := 0, unrecoverable := 0, sinceCheckpoint := 0,
           rest := 0, state := .running }

/-- A timed state whose counter stands at 0 changes while plan work runs (R141). -/
def patrolTimers (p : Part) : Part :=
  if !p.planRuns then p
  else
    match p.patrol.state with
    | .holdoff => if p.patrol.holdoff = 0 then (p.modPatrol fun q => { q with state := .running }).push [.patrolTry] else p
    | .resting => if p.patrol.rest = 0 then (p.modPatrol Patrol.newPass).push [.patrolTry] else p
    | _ => p

/-- The end of a plan pass (R148). -/
def passEnd (p : Part) : Part :=
  let q := p.patrol
  let p := passEvent (passEndEvent patrolPassEnd q.pass q.checked q.made q.unrecoverable) p
  p.modPatrol fun q =>
    match q.plan with
    | some pl => if pl.repeats then { q with state := .resting, rest := pl.rest } else { q with state := .done }
    | none => { q with state := .done }

/-- The end of the recovery pass (R151). -/
def recoveryEnd (p : Part) : Part :=
  let q := p.patrol
  let p := passEvent (passEndEvent patrolRecoveryEnd 0 q.checked q.made q.unrecoverable) p
  p.modPatrol fun q =>
    { q with marker := false, checked := 0, made := 0, unrecoverable := 0, sinceCheckpoint := 0, span := q.resumeSpan,
             offset := q.resumeOffset }

/-! ## Span ends and skips (R146, R147) -/

/-- The number of spans of the plan. -/
def Patrol.spanCount (q : Patrol) : Nat := ((q.plan.map (·.spans)).getD []).length

/-- The span in hand is ended: the cursor moves on, and a plan span takes its checkpoint and may end the pass, the last listed
volume ends the recovery pass; the flag says whether a commit is to be requested (R146 to R148, R150, R151). -/
def spanEnd (p : Part) : Part × Bool :=
  if p.patrol.marker then
    let p := p.modPatrol fun q => { q with recovery := q.recovery.tail, offset := 0 }
    (if p.patrol.recovery.isEmpty then recoveryEnd p else p, false)
  else
    let last : Bool := p.patrol.spanCount ≤ p.patrol.span + 1
    let p := p.modPatrol fun q =>
      let next := if last then 0 else q.span + 1
      { q with span := next, offset := 0, checkpoint := ⟨next, 0, q.pass⟩, sinceCheckpoint := 0 }
    (if last then passEnd p else p, true)

/-- A span is skipped with a SPAN_SKIPPED event (R147). -/
def skipSpan (v : VolId) (p : Part) : Part × Bool :=
  let q := p.patrol
  spanEnd (passEvent (spanSkippedEvent v q.offset q.pass (if q.marker then 0 else q.span)) p)

/-- R143, test 1: a span is skipped while its volume is not in use, FILLING or LOST, or its range outside N. -/
def Part.skips (p : Part) (s : Span) : Bool :=
  !p.ready s.volume || p.isLost s.volume || (p.vol s.volume).length < s.first + s.count

/-- Every span of the plan is skipped as the volumes stand, so that a pass begun now would end at once. -/
def Part.skipsAll (p : Part) : Bool := ((p.patrol.plan.map (·.spans)).getD []).all p.skips

/-- What follows the end of a chunk or a skip: pending STOPs take effect, the commit is requested, the pause of a HALT is
taken, a rest of 0 ends, and the next chunk is begun (R141, R142, R146, R152). A rest of 0 does not end in the same step where
every span of the next pass would be skipped, which would never end (log 20). -/
def patrolGoOn (commit : Bool) (p : Part) : Part :=
  let stops := p.patrol.stops
  let p := stops.foldl (fun q e => q.modEntry e (Entry.await .ok 0 0 0)) p
  let p := if stops.isEmpty then p
    else p.modPatrol fun q => { q with stops := [], state := .idle, holdoff := 0, rest := 0 }
  let p := if commit || !stops.isEmpty then requestCommit p else p
  let p := if p.engine.state = .halting then p.modPatrol fun q => { q with paused := true } else p
  let p := if p.patrol.state = .resting && p.skipsAll then p else patrolTimers p
  p.push [.patrolTry]

/-! ## Beginning a chunk (R143) -/

/-- Ask for the chunk's lock. -/
def patrolChunkBegin (s : Span) (n : Nat) (p : Part) : Part :=
  let first := s.first + p.patrol.offset
  askLock ⟨.patrol, s.volume, first, n, false⟩
    (p.modPatrol fun q =>
      { q with
        state := if q.marker then q.state else .running
        chunk := some ⟨s.volume, first, n, .lock, [], [], 0, 0⟩ })

/-- The step of R143: skip a span whose volume is gone, test the room, begin a chunk or wait. -/
def patrolTry (p : Part) : Part :=
  let ready : Bool := p.patrol.marker || p.patrol.state = .running || p.patrol.state = .waiting
  if !p.patrolRuns || p.patrol.chunk.isSome || !ready then p
  else
    match p.currentSpan with
    | none => p
    | some s =>
      let v := s.volume
      if p.skips s then
        let r := skipSpan v p
        patrolGoOn r.2 r.1
      else
        let n := min Config.patrolChunk (s.count - p.patrol.offset)
        if n * ((p.onlineMembers v).length - 1) ≤ p.repair.room then patrolChunkBegin s n p
        else if p.patrol.marker then p
        else p.modPatrol fun q => { q with state := .waiting }

/-! ## A chunk at work (R144, R145) -/

/-- Change the chunk in flight. -/
def Part.modChunk (p : Part) (f : PatrolChunk → PatrolChunk) : Part :=
  p.modPatrol fun q => { q with chunk := q.chunk.map f }

/-- The chunk lets go of what it holds and is no longer in flight. -/
def patrolDrop (p : Part) : Part := releaseAll .patrol (p.modPatrol fun q => { q with chunk := none })

/-- The chunk's lock is granted (R144). -/
def patrolLocked (p : Part) : Part :=
  match p.patrol.chunk with
  | none => p
  | some c =>
    if p.isLost c.volume then
      let r := skipSpan c.volume (patrolDrop p)
      patrolGoOn r.2 r.1
    else
      let lanes := p.onlineMembers c.volume
      askBuffers .patrol (c.count * lanes.length) (p.modChunk fun c => { c with phase := .buffers, lanes := lanes, gone := 0 })

/-- The content a lane of a chunk or VERIFY read for its block `i`: its share of the buffers is the `j`-th run of `n`. -/
def Part.sharedContent (p : Part) (h : Holder) (n j i : Nat) : Block :=
  match (p.pool.bufsOf h)[j * n + i]? with
  | some b => p.buffer b
  | none => zeroBlock

/-- The copies of block `i`, in ascending lane order, from the lanes whose operations ended completed (R7, step 1). -/
def Part.readsOf (p : Part) (h : Holder) (n i : Nat) (got : List (LaneId × List Status)) : Nat → List LaneId → List Read
  | _, [] => []
  | j, l :: ls =>
    match got.find? (fun x => x.1 = l) with
    | some (_, ss) =>
      ⟨l, ss.getD i .unreadable, p.sharedContent h n j i⟩ :: p.readsOf h n i got (j + 1) ls
    | none => p.readsOf h n i got (j + 1) ls

/-- The judgements of the blocks of a chunk or VERIFY: for each, the copies and the verdict (R107, R145). -/
def Part.judgements (p : Part) (h : Holder) (v : VolId) (n : Nat) (lanes : List LaneId)
    (got : List (LaneId × List Status)) : List (Nat × List Copy × Verdict) :=
  (List.range n).map fun i =>
    let cs := copiesOf (p.readsOf h n i got 0 lanes)
    (i, cs, agree (p.actingReference v) cs)

/-- The discoveries of the judgements: for each block not unrecoverable, one per lane, ascending (R108, R145). -/
def judgedDiscoveries (v : VolId) (first : Nat) (o : Origin) (tag : Word) (js : List (Nat × List Copy × Verdict)) :
    List Discovery :=
  js.flatMap fun x =>
    if x.2.2.unrecoverable then []
    else x.2.1.filterMap fun c => (discoveryKind x.2.2 c).map fun k => ⟨c.lane, v, first + x.1, k, o, tag⟩

/-- The blocks judged unrecoverable, ascending. -/
def judgedLost (js : List (Nat × List Copy × Verdict)) : List Nat := (js.filter fun x => x.2.2.unrecoverable).map (·.1)

/-- Issue a read of `n` blocks to each lane that has been ONLINE since the lanes were fixed, the `j`-th lane into the `j`-th run of
buffers: the number of lanes issued to. A lane of `gone` departed in between: it is not read, ONLINE again or not, and its share
stays unused (R76, R83, R106, R144). -/
def issueShares (cls : OpClass) (pr : Producer) (bufs : List BufId) (start n : Nat) (gone : LaneMask) :
    Nat → List LaneId → Part → Part × Nat
  | _, [], p => (p, 0)
  | j, l :: ls, p =>
    if !gone.has l && p.accepts l .read then
      let op : LaneOp := ⟨cls, .read, start, n, ((bufs.drop (j * n)).take n).map .staging, pr, false⟩
      let r := issueShares cls pr bufs start n gone (j + 1) ls (enqueue l op p)
      (r.1, r.2 + 1)
    else issueShares cls pr bufs start n gone (j + 1) ls p

/-- Every operation of the chunk has ended (R144, R145). In the recovery pass, which takes no checkpoint (R150), the checkpoint counter
rises with every chunk too, and may pass 4096 until the pass ends (R151; log 51). -/
def patrolJudge (c : PatrolChunk) (p : Part) : Part :=
  if p.isLost c.volume then
    let r := skipSpan c.volume (patrolDrop p)
    patrolGoOn r.2 r.1
  else if c.got.isEmpty then patrolGoOn false (patrolDrop p)
  else
    let js := p.judgements .patrol c.volume c.count c.lanes c.got
    let o : Origin := if p.patrol.marker then .recovery else .patrol
    let lost := judgedLost js
    let p := releaseAll .patrol (p.modChunk fun c => { c with phase := .settle })
    let p := p.modPatrol fun q =>
      { q with
        checked := satAdd q.checked c.count
        sinceCheckpoint := q.sinceCheckpoint + c.count
        unrecoverable := satAdd q.unrecoverable lost.length }
    let p := passEvents (lost.map fun i => unrecoverableEvent none c.volume (c.first + i) o 0) p
    (handDiscoveries (judgedDiscoveries c.volume c.first o 0 js) p).push [.patrolSettle]

/-- The chunk's buffers are granted: its reads are issued (R144). -/
def patrolBuffered (p : Part) : Part :=
  match p.patrol.chunk with
  | none => p
  | some c =>
    let r := issueShares .background .patrol (p.pool.bufsOf .patrol) ((p.vol c.volume).first + c.first) c.count c.gone 0 c.lanes p
    let c := { c with phase := .reads, outstanding := r.2 }
    let p := r.1.modPatrol fun q => { q with chunk := some c }
    if c.outstanding = 0 then patrolJudge c p else p

/-- A read of the chunk has ended. -/
def patrolOpEnded (l : LaneId) (r : OpEnd) (p : Part) : Part :=
  match p.patrol.chunk with
  | none => p
  | some c =>
    let c := { c with
      outstanding := c.outstanding - 1
      got := match r with
        | .completed ss _ => c.got ++ [(l, ss)]
        | .laneLost => c.got }
    let p := p.modPatrol fun q => { q with chunk := some c }
    if c.outstanding = 0 then patrolJudge c p else p

/-- A settled chunk ends once the room waiter is none: the advances of R146, in order. -/
def patrolSettle (p : Part) : Part :=
  match p.patrol.chunk with
  | none => p
  | some c =>
    if c.phase ≠ .settle || !p.repair.waiter.isEmpty then p
    else
      let done : Bool := match p.currentSpan with
        | some s => s.count ≤ p.patrol.offset + c.count
        | none => true
      let p := p.modPatrol fun q => { q with chunk := none, offset := q.offset + c.count }
      if done then
        let r := spanEnd p
        patrolGoOn r.2 r.1
      else if !p.patrol.marker && Config.checkpointEvery ≤ p.patrol.sinceCheckpoint then
        patrolGoOn true (p.modPatrol fun q =>
          { q with checkpoint := ⟨q.span, q.offset, q.pass⟩, sinceCheckpoint := 0 })
      else patrolGoOn false p

/-! ## Assembly (R149, R150) -/

/-- The checkpoint is usable: a plan is present, its span index is below the span count, its offset below that span's count. -/
def usableCheckpoint (plan : Option Plan) (k : Checkpoint) : Bool :=
  match plan.bind (fun pl => pl.spans[k.span]?) with
  | some s => k.offset < s.count
  | none => false

/-- The unit as assembly sets it from the governing record (R149). -/
def Patrol.assembled (plan : Option Plan) (recorded : PatrolState) (k : Checkpoint) : Patrol :=
  let base : Patrol := { Patrol.reset with plan := plan, checkpoint := k, pass := k.pass, holdoff := (plan.map (·.holdoff)).getD 0 }
  match recorded with
  | .idle => base
  | .done => { base with state := .done }
  | .resting => if usableCheckpoint plan k then { base with state := .holdoff, pass := k.pass + 1 } else base
  | .holdoff | .running | .waiting =>
    if usableCheckpoint plan k then { base with state := .holdoff, span := k.span, offset := k.offset } else base

/-- An unclean assembly: the marker, the recovery list, the resume cursor (R150). -/
def Patrol.recover (q : Patrol) (vols : List VolId) : Patrol :=
  { q with marker := true, recovery := vols, resumeSpan := q.span, resumeOffset := q.offset, span := 0, offset := 0 }

/-! ## PATROL CONTROL and the engine (R140, R142, R152) -/

/-- START: a new pass in HOLDOFF (R140). -/
def Patrol.start (q : Patrol) : Patrol :=
  { q with span := 0, offset := 0, pass := q.pass + 1, checked := 0, made := 0, unrecoverable := 0, sinceCheckpoint := 0,
           checkpoint := ⟨0, 0, q.pass + 1⟩, state := .holdoff, holdoff := (q.plan.map (·.holdoff)).getD 0 }

/-- The unit pauses at a HALT with no chunk in flight (R152). -/
def patrolPause (p : Part) : Part :=
  if p.engine.state = .halting && p.patrol.chunk.isNone then p.modPatrol fun q => { q with paused := true } else p

/-- On ABANDON and entry into FAULTED the chunk in flight and the pending STOPs go (R136). -/
def Patrol.cut (q : Patrol) : Patrol := { q with chunk := none, stops := [] }

end Sys2Proof.Machine
end

