-- ==== Sys2Proof/Machine/RepairUnit.lean ====
section
/-!
DEFINITION. The repair unit at work on an entry: revote, content, rewrite, readback, remap call, and the ends of a repair
(8.4).
-/
namespace Sys2Proof.Machine

/-- Change the unit's work. -/
def Part.modWork (p : Part) (f : RepairWork → RepairWork) : Part :=
  { p with repair := { p.repair with work := p.repair.work.map f } }

/-- Buffer A. -/
def Part.bufA (p : Part) : BufId := (p.pool.bufsOf .repair).getD 0 0

/-- Buffer B. -/
def Part.bufB (p : Part) : BufId := (p.pool.bufsOf .repair).getD 1 0

/-- The lane block of the entry's block (R3). -/
def Part.repairBlock (p : Part) (w : RepairWork) : Nat := (p.vol w.volume).first + w.block

/-- Issue an operation of the unit to a lane whose state accepts it. -/
def repairIssue (l : LaneId) (k : OpKind) (b : BufId) (remapCall : Bool) (w : RepairWork) (p : Part) : Part :=
  enqueue l ⟨.background, k, p.repairBlock w, 1, [.staging b], .repair, remapCall⟩
    (p.modWork fun w => { w with outstanding := true })

/-! ## Ends (R133, R134) -/

/-- The work ends with an event: buffers and lock are released, the entry removed, the event passed, and the unit takes the
next entry (R133). -/
def repairEnd (w : RepairWork) (e : Event) (p : Part) : Part :=
  let p := releaseAll .repair { p with repair := { p.repair with work := none } }
  let p := removeEntries (fun x => x.lane = w.lane && x.volume = w.volume && x.block = w.block) p
  (passEvent e p).push [.repairTake]

/-- The work ends with REPAIRED (R133). -/
def repairDone (w : RepairWork) (method : Byte) (p : Part) : Part :=
  repairEnd w (repairedEvent w.lane w.volume w.block method w.origin w.number) p

/-- The work ends with UNRECOVERABLE (R133). -/
def repairLost (w : RepairWork) (p : Part) : Part :=
  repairEnd w (unrecoverableRepairEvent w.lane w.volume w.block w.origin w.number) p

/-- The work ends without an event (R134). -/
def repairGone (p : Part) : Part := repairLeave (p.modWork fun w => { w with gone := true, outstanding := false })

/-! ## Hold, rewrite, remap call (R132, R133) -/

/-- HOLD, and the wait of REMAP: with the hold mark none and L ONLINE the rewrite or the remap call is issued (R132, R133). -/
def repairHold (p : Part) : Part :=
  match p.repair.work with
  | none => p
  | some w =>
    if (p.vol w.volume).hold ≠ .none then p
    else if !p.online w.lane then repairGone p
    else
      match w.phase with
      | .hold => repairIssue w.lane .write p.bufA false w (p.modWork fun w => { w with phase := .rewrite })
      | .remap => repairIssue w.lane .write p.bufA true w p
      | _ => p

/-- The volume's hold mark has become none while the unit may be waiting for it. -/
def repairHoldCleared (v : VolId) (p : Part) : Part :=
  match p.repair.work with
  | none => p
  | some w => if w.volume = v && !w.gone && !w.outstanding then repairHold p else p

/-- Content is in A: the unit enters HOLD (R131). -/
def repairToHold (p : Part) : Part := repairHold (p.modWork fun w => { w with phase := .hold })

/-! ## The revote (R129 to R131) -/

/-- The copies as the revote placed them: an unplaced lane stands for itself. -/
def RepairWork.copies (w : RepairWork) : List Copy :=
  w.votes.map fun x => ⟨x.lane, x.status = .readable, x.weak, x.group.getD x.lane⟩

/-- Take a lane out of the lane list. -/
def RepairWork.dropVote (w : RepairWork) (l : LaneId) : RepairWork :=
  { w with votes := w.votes.filter (·.lane ≠ l) }

/-- Change a lane's vote. -/
def RepairWork.modVote (w : RepairWork) (l : LaneId) (f : Vote → Vote) : RepairWork :=
  { w with votes := w.votes.map fun x => if x.lane = l then f x else x }

/-- The end of the classification, and each return to it from CONTENT (R131). -/
def repairJudge (w : RepairWork) (p : Part) : Part :=
  let verdict := agree (p.actingReference w.volume) w.copies
  if !w.votes.any (·.lane = w.lane) then repairGone p
  else
    match verdict.group with
    | none => repairLost w p
    | some g =>
      if !verdict.outvoted.has w.lane && !verdict.weak.has w.lane then repairDone w methodResolved p
      else if w.aGroup = some g then repairToHold p
      else
        match verdict.authority.lanes.head? with
        | none => p
        | some l =>
          if p.online l then
            repairIssue l .read p.bufA false w
              (p.modWork fun w => { w with phase := .content, current := some l })
          else (p.modWork fun w => { w.dropVote l with phase := .content }).push [.repairGo]

/-- The readable lanes not yet placed in a group. -/
def RepairWork.unplaced (w : RepairWork) : List LaneId :=
  (w.votes.filter fun x => x.status = .readable && x.group.isNone).map (·.lane)

/-- The next step of the revote: the next read of the pass, a further pass, or the judgement (R129, R130). -/
def repairRevote (w : RepairWork) (p : Part) : Part :=
  match w.todo with
  | l :: rest =>
    if p.online l then
      repairIssue l .read (if w.rep.isNone then p.bufA else p.bufB) false w
        (p.modWork fun w => { w with todo := rest, current := some l })
    else (p.modWork fun w => { w.dropVote l with todo := rest }).push [.repairGo]
  | [] =>
    match w.unplaced with
    | [] => repairJudge w p
    | [l] =>
      let w := w.modVote l fun x => { x with group := some l }
      repairJudge w (p.modWork fun _ => w)
    | ls => (p.modWork fun w => { w with todo := ls, rep := none }).push [.repairGo]

/-- The unit goes on in REVOTE or CONTENT with no operation outstanding. -/
def repairGo (p : Part) : Part :=
  match p.repair.work with
  | none => p
  | some w =>
    if w.gone || w.outstanding then p
    else
      match w.phase with
      | .revote => repairRevote w p
      | .content => repairJudge w p
      | _ => p

/-- What a read of the revote tells (R129, R130). `a`, `b` are the contents of the two buffers after it. -/
def RepairWork.readEnded (w : RepairWork) (l : LaneId) (s : Status) (a b : Block) : RepairWork :=
  let weak : Bool := s = .corrected
  if !s.readable then w.modVote l fun x => { x with status := .failed, group := none }
  else
    match w.rep with
    | none =>
      { w.modVote l fun x => { x with status := .readable, weak := x.weak || weak, group := some l } with
        rep := some l, aGroup := some l }
    | some r =>
      w.modVote l fun x =>
        { x with status := .readable, weak := x.weak || weak, group := if sameBlock a b then some r else none }

/-! ## Grants and ends of operations -/

/-- The lock is granted: BUFFERS (R128). -/
def repairLocked (p : Part) : Part :=
  match p.repair.work with
  | none => p
  | some w =>
    if w.gone || w.phase ≠ .lock then p
    else askBuffers .repair 2 (p.modWork fun w => { w with phase := .buffers })

/-- The buffers are granted: the revote begins over the ONLINE members (R129). -/
def repairBuffered (p : Part) : Part :=
  match p.repair.work with
  | none => p
  | some w =>
    if w.gone || w.phase ≠ .buffers then p
    else
      let ls := p.onlineMembers w.volume
      (p.modWork fun w =>
        { w with phase := .revote, votes := ls.map fun l => ⟨l, .unread, false, none⟩, todo := ls }).push [.repairGo]

/-- The readback has ended (R132). -/
def repairReadback (w : RepairWork) (s : Status) (p : Part) : Part :=
  if s = .good && sameBlock (p.buffer p.bufA) (p.buffer p.bufB) then
    repairDone w (if w.remapped then methodRemap else methodRewrite) p
  else repairHold (p.modWork fun w => { w with phase := .remap })

/-- An operation of the unit has ended completed, by the phase. -/
def repairCompleted (w : RepairWork) (l : LaneId) (s : Status) (remapped : Bool) (p : Part) : Part :=
  match w.phase with
  | .revote =>
    (p.modWork fun w => w.readEnded l s (p.buffer p.bufA) (p.buffer p.bufB)).push [.repairGo]
  | .content =>
    if s.readable then
      let group := (w.votes.find? (·.lane = l)).bind (·.group)
      repairToHold (p.modWork fun w =>
        { w.modVote l fun x => { x with weak := x.weak || s = .corrected } with aGroup := group })
    else
      (p.modWork fun w => w.modVote l fun x => { x with status := .failed, group := none }).push [.repairGo]
  | .rewrite =>
    if p.online w.lane then
      repairIssue w.lane .read p.bufB false w (p.modWork fun w => { w with phase := .readback, remapped := remapped })
    else repairGone p
  | .readback => repairReadback w s p
  | .remap => repairDone w methodRemap p
  | _ => p

/-- An operation of the unit has ended (R129 to R134). -/
def repairOpEnded (l : LaneId) (r : OpEnd) (p : Part) : Part :=
  match p.repair.work with
  | none => p
  | some w =>
    let p := p.modWork fun w => { w with outstanding := false, current := none }
    if w.gone then repairLeave p
    else
      match r with
      | .completed ss remapped => repairCompleted w l (ss.headD .unreadable) remapped p
      | .laneLost =>
        match w.phase with
        | .revote | .content => (p.modWork fun w => w.dropVote l).push [.repairGo]
        | _ => repairGone p

/-- On entry into FAULTED the work is cut: the entry stays with its mark cleared, and the room waiter goes (R121, R134). -/
def Repair.cut (r : Repair) : Repair :=
  { r with work := none, waiter := [], list := r.list.map fun x => { x with inRepair := false } }

end Sys2Proof.Machine
end

