-- ==== Sys2Proof/Machine/RebuildUnit.lean ====
section
/-!
DEFINITION. The rebuild unit: start, chunks, rounds, writing the target, skips and completion (chapter 10).
-/
namespace Sys2Proof.Machine

def Part.modRebuild (p : Part) (f : Rebuild → Rebuild) : Part := { p with rebuild := f p.rebuild }

/-- Change the chunk in flight. -/
def Part.modRebuildChunk (p : Part) (f : RebuildChunk → RebuildChunk) : Part :=
  p.modRebuild fun r => { r with chunk := r.chunk.map f }

/-- The lane block of the chunk's first block (R3). -/
def Part.rebuildStartBlock (p : Part) (k : RebuildChunk) : Nat := (p.vol k.volume).first + k.first

/-- The in-use volumes whose member mask holds the lane, ascending (R154). -/
def Part.volumesOf (p : Part) (l : LaneId) : List VolId :=
  allVols.filter fun v => (p.vol v).inUse && (p.vol v).members.has l

/-! ## Start and cursor (R154, R155) -/

/-- The rebuild starts: in HALTING the paused flag is set, otherwise work begins in the same step (R154). -/
def rebuildStart (l : LaneId) (p : Part) : Part :=
  let vs := p.volumesOf l
  (p.modRebuild fun r =>
    { r with
      state := .running, target := some l, volumes := vs, cursorVol := vs.headD 0, cursorBlock := 0, passed := false,
      skip := 0, copied := 0, unrecoverable := 0, chunk := none, aborting := false,
      paused := r.paused || p.engine.state = .halting }).push [.rebuildBegin]

/-- The cursor moves to the next volume of the list, block 0, or passes the last one (log 27). -/
def Rebuild.nextVolume (r : Rebuild) : Rebuild :=
  match r.volumes.find? fun v => r.cursorVol < v with
  | some v => { r with cursorVol := v, cursorBlock := 0 }
  | none => { r with passed := true }

/-- The remainder of the cursor's volume is skipped with a REBUILD event (R155). -/
def rebuildSkip (cause : Byte) (p : Part) : Part :=
  let r := p.rebuild
  let left := BitVec.ofNat 32 ((p.vol r.cursorVol).length - r.cursorBlock)
  let p := passEvent (rebuildEvent r.target (some r.cursorVol) cause r.cursorBlock left 0 0) p
  p.modRebuild fun r => { r with skip := r.skip ||| BitVec.ofNat 8 (2 ^ r.cursorVol.val) }.nextVolume

/-- NO_SOURCE when the cursor stands at block 0, else SOURCE_LOST (R155, R156). -/
def Rebuild.skipCause (r : Rebuild) : Byte := if r.cursorBlock = 0 then rebuildNoSource else rebuildSourceLost

/-- The rebuild completes (R162). -/
def rebuildComplete (l : LaneId) (p : Part) : Part :=
  let r := p.rebuild
  let p := passEvent (rebuildEvent (some l) none rebuildDoneCode 0 (r.skip.setWidth 32) r.unrecoverable 0) p
  let p := p.modLane l fun L => { L with recorded := .online }
  let p := changeRuntime l .online .rebuildDone 0 p
  requestCommit (p.modRebuild Rebuild.toIdle)

/-- The test of R155: complete, skip a LOST volume and test again, or begin a chunk. -/
def rebuildBegin (p : Part) : Part :=
  let r := p.rebuild
  match r.target with
  | none => p
  | some l =>
    if r.state ≠ .running || r.aborting || r.chunk.isSome then p
    else if r.passed then rebuildComplete l p
    else if r.paused then p
    else if p.isLost r.cursorVol then (rebuildSkip r.skipCause p).push [.rebuildBegin]
    else
      let n := min Config.rebuildChunk ((p.vol r.cursorVol).length - r.cursorBlock)
      askLock ⟨.rebuild, r.cursorVol, r.cursorBlock, n, true⟩
        (p.modRebuild fun r => { r with chunk := some ⟨r.cursorVol, r.cursorBlock, n, .lock, [], [], [], 0⟩ })

/-- A chunk has ended or been dropped: a HALT sets the paused flag, and the next chunk is begun, or the rebuild completes where the
last volume has been passed (R160, R165). -/
def rebuildGoOn (p : Part) : Part :=
  (p.modRebuild fun r => { r with paused := r.paused || p.engine.state = .halting }).push [.rebuildBegin]

/-- The chunk lets go of its buffers and lock and is no longer in flight. -/
def rebuildDrop (p : Part) : Part := releaseAll .rebuild (p.modRebuild fun r => { r with chunk := none })

/-! ## Source rounds (R156, R157) -/

/-- Issue one operation for each run of the chunk's blocks that `want` selects (R157, R159). -/
def rebuildIssue (l : LaneId) (kind : OpKind) (want : BlockTry → Bool) (k : RebuildChunk) (p : Part) : Part :=
  let rs := runs want 0 k.blocks
  let bufs := (p.pool.bufsOf .rebuild).map BufRef.staging
  let p := p.modRebuildChunk fun _ => { k with outstanding := rs.length }
  rs.foldl
    (fun q x => enqueue l
      ⟨.background, kind, p.rebuildStartBlock k + x.1, x.2, (bufs.drop x.1).take x.2, .rebuild, false⟩ q) p

/-- The chunk ends (R160): release, counts, UNRECOVERABLE events, discoveries, cursor. -/
def rebuildChunkEnd (k : RebuildChunk) (p : Part) : Part :=
  let lost := unresolvedAt k.first k.blocks
  let p := rebuildDrop p
  let p := p.modRebuild fun r =>
    { r with
      copied := satAdd r.copied (k.count - lost.length)
      unrecoverable := satAdd r.unrecoverable lost.length }
  let p := passEvents (lost.map fun i => unrecoverableEvent p.rebuild.target k.volume i .rebuild 0) p
  let p := handDiscoveries (tryDiscoveries k.volume .rebuild 0 k.first k.blocks) p
  rebuildGoOn (p.modRebuild fun r =>
    if (p.vol k.volume).length ≤ r.cursorBlock + k.count then
      { r with cursorBlock := r.cursorBlock + k.count }.nextVolume
    else { r with cursorBlock := r.cursorBlock + k.count })

/-- HOLD: with the hold mark none the resolved blocks are written to the target (R159). -/
def rebuildHold (p : Part) : Part :=
  match p.rebuild.chunk, p.rebuild.target with
  | some k, some l =>
    if (p.vol k.volume).hold ≠ .none || !p.accepts l .write then p
    else rebuildIssue l .write (fun b => !b.unresolved) { k with phase := .write } p
  | _, _ => p

/-- The volume's hold mark has become none while a chunk may be waiting for it. -/
def rebuildHoldCleared (v : VolId) (p : Part) : Part :=
  match p.rebuild.chunk with
  | some k => if k.volume = v && k.phase = .hold && !p.rebuild.aborting then rebuildHold p else p
  | none => p

/-- The rounds have ended and the blocks are settled (R158). -/
def rebuildSettle (k : RebuildChunk) (p : Part) : Part :=
  if p.isLost k.volume then rebuildGoOn (rebuildSkip rebuildSourceLost (rebuildDrop p))
  else if k.blocks.all BlockTry.unresolved then rebuildChunkEnd k p
  else rebuildHold (p.modRebuildChunk fun _ => { k with phase := .hold })

/-- The next round, if unresolved blocks and a source remain (R157). -/
def rebuildRound (k : RebuildChunk) (p : Part) : Part :=
  if !k.blocks.any BlockTry.unresolved then rebuildSettle k p
  else
    match k.order.find? fun l => p.online l && !k.tried.contains l with
    | some l => rebuildIssue l .read BlockTry.unresolved { k with tried := k.tried ++ [l] } p
    | none => rebuildSettle k p

/-- The source order: the acting reference, then the other ONLINE members, ascending (R156). -/
def Part.sourceOrder (p : Part) (v : VolId) : List LaneId :=
  match p.actingReference v with
  | none => []
  | some a => a :: (p.onlineMembers v).filter (· ≠ a)

/-- The chunk's lock is granted: BUFFERS (R156). -/
def rebuildLocked (p : Part) : Part :=
  if p.rebuild.aborting || !(p.rebuild.chunk.any (·.phase = .lock)) then p
  else askBuffers .rebuild Config.rebuildChunk (p.modRebuildChunk fun k => { k with phase := .buffers })

/-- The chunk's buffers are granted: the source order is fixed and round 1 issued (R156). -/
def rebuildBuffered (p : Part) : Part :=
  match p.rebuild.chunk with
  | none => p
  | some k =>
    if p.rebuild.aborting || k.phase ≠ .buffers then p
    else
      match p.sourceOrder k.volume with
      | [] => rebuildGoOn (rebuildSkip p.rebuild.skipCause (rebuildDrop p))
      | order => rebuildRound { k with phase := .source, order := order, blocks := List.replicate k.count .fresh } p

/-- An operation of the chunk has ended (R157, R159, R163). -/
def rebuildOpEnded (l : LaneId) (op : LaneOp) (r : OpEnd) (p : Part) : Part :=
  match p.rebuild.chunk with
  | none => p
  | some k =>
    let k := { k with
      outstanding := k.outstanding - 1
      blocks := match r, k.phase with
        | .completed ss _, .source => mergeTries l (op.start - p.rebuildStartBlock k) ss k.blocks
        | _, _ => k.blocks }
    let p := p.modRebuildChunk fun _ => k
    if p.rebuild.aborting then rebuildLeave p
    else if k.outstanding ≠ 0 then p
    else
      match k.phase with
      | .source => rebuildRound k p
      | .write => rebuildChunkEnd k p
      | _ => p

/-- The unit pauses at a HALT with no chunk in flight (R165). -/
def rebuildPause (p : Part) : Part :=
  if p.engine.state = .halting && p.rebuild.chunk.isNone then p.modRebuild fun r => { r with paused := true } else p

/-- On entry into FAULTED the chunk is cut and a running rebuild is HELD; one already aborted is over (R163, R164). -/
def Rebuild.cut (r : Rebuild) : Rebuild :=
  if r.aborting then r.toIdle
  else if r.state = .running then { r with state := .held, chunk := none }
  else { r with chunk := none }

end Sys2Proof.Machine
end

