-- ==== Sys2Proof/Machine/Requests.lean ====
section
/-!
DEFINITION. The request engine: the checks of each kind and what a request does at each grant, operation end, transfer end,
hold release and commit finish (chapters 1, 3, 6, 9, 11).
-/
namespace Sys2Proof.Machine

/-! ## Fields of an entry -/

/-- The volume a request's target byte names; the checks leave only requests whose target names one. -/
def Request.volume (r : Request) : VolId := (volOf r.target).getD 0

/-- The lane block of the request's first block (R3). -/
def Part.startBlock (p : Part) (r : Request) : Nat := (p.vol r.volume).first + r.first.toNat

/-- The lane a READ's copy select names; none for 0Fh, by policy. -/
def Request.namedLane (r : Request) : Option LaneId := laneOf r.selector

/-- The request's buffer references, in block order. -/
def Part.requestBufs (p : Part) (e : EntryId) : List BufRef := (p.pool.bufsOf (.request e)).map .staging

/-- Set the entry's state. -/
def setEntryState (e : EntryId) (s : EntryState) (p : Part) : Part := p.modEntry e fun x => { x with state := s }

/-- Set the entry's work. -/
def setWork (e : EntryId) (w : Work) (p : Part) : Part := p.modEntry e fun x => { x with work := w }

/-! ## Checks of READ, WRITE and VERIFY (R92, R93) -/

/-- The compare set of a VERIFY (R106). -/
def compareSet (mask : Byte) (members : LaneMask) : LaneMask := if mask = 0 then members else mask.setWidth 4

/-- Check 2 of R92; the flags are checked by R177. -/
def dataMalformed (r : Request) (members : LaneMask) : Bool :=
  r.count = 0 || 16 < r.count.toNat
    || ((r.kind = kindRead || r.kind = kindWrite) && !aligned64 r)
    || (r.kind = kindRead && !(r.selector.toNat ≤ 3 || r.selector = 0x0F))
    || (r.kind = kindVerify && (15 < r.selector.toNat || (r.selector.setWidth 4 : LaneMask) &&& ~~~members ≠ 0))

/-- The checks of R92, in order: the outcome of the first that fails. -/
def dataRefusal (r : Request) (p : Part) : Option ReqOutcome :=
  match volOf r.target with
  | none => some .refusedVolume
  | some v =>
    if !p.ready v then some .refusedVolume
    else if dataMalformed r (p.vol v).members then some .refusedFormat
    else if (p.vol v).length < r.first.toNat + r.count.toNat then some .refusedRange
    else if p.isLost v then some .lost
    else none

/-- R93: the lane a READ names is an ONLINE member. -/
def namedRefusal (r : Request) (p : Part) : Option ReqOutcome :=
  match r.namedLane with
  | none => none
  | some l => if p.onlineMember r.volume l then none else some .refusedLane

/-- A request that passed its checks asks for its lock (R85, R96, R102, R106). -/
def dataLock (e : EntryId) (r : Request) (exclusive : Bool) (p : Part) : Part :=
  askLock ⟨.request e, r.volume, r.first.toNat, r.count.toNat, exclusive⟩ (setEntryState e .waitLock p)

/-- READ received (R92, R93, R96). -/
def readReceived (e : EntryId) (r : Request) (p : Part) : Part :=
  match (dataRefusal r p).or (namedRefusal r p) with
  | some o => refuse e o p
  | none => dataLock e r false p

/-- WRITE received (R92, R102). -/
def writeReceived (e : EntryId) (r : Request) (p : Part) : Part :=
  match dataRefusal r p with
  | some o => refuse e o p
  | none => dataLock e r true p

/-- VERIFY received (R92, R106). -/
def verifyReceived (e : EntryId) (r : Request) (p : Part) : Part :=
  match dataRefusal r p with
  | some o => refuse e o p
  | none => dataLock e r false p

/-! ## READ at the lanes (R94, R96 to R101) -/

/-- Issue one READ operation for each run of unresolved blocks to a lane (R96, R97). -/
def readIssue (e : EntryId) (r : Request) (l : LaneId) (w : ReadWork) (p : Part) : Part :=
  let rs := runs BlockTry.unresolved 0 w.blocks
  let bufs := p.requestBufs e
  let p := setWork e (.read { w with tried := w.tried ++ [l], outstanding := rs.length }) p
  rs.foldl
    (fun q x => enqueue l
      ⟨.foreground, .read, p.startBlock r + x.1, x.2, (bufs.drop x.1).take x.2, .request e, false⟩ q) p

/-- A READ enters AT_LANES: the LOST test, the first lane, round 1 (R94, R96, R101). -/
def readStart (e : EntryId) (r : Request) (p : Part) : Part :=
  let p := setEntryState e .atLanes p
  let fresh := List.replicate r.count.toNat BlockTry.fresh
  if p.isLost r.volume then refuse e .lost p
  else
    match r.namedLane with
    | some l =>
      if p.online l then readIssue e r l ⟨true, l, [], fresh, 0, 0⟩ p else refuse e .refusedLane p
    | none =>
      let c := chooseFirst r.volume p
      match c.1 with
      | some l => readIssue e r l ⟨false, l, [], fresh, 0, 0⟩ c.2
      | none => refuse e .lost p

/-- The lanes that supplied at least one block (R95). -/
def ReadWork.sources (w : ReadWork) : LaneMask := LaneMask.ofList (w.blocks.filterMap (·.source))

/-- The blocks delivered from a lane other than the first chosen (R95). -/
def ReadWork.others (w : ReadWork) : Nat := (w.blocks.filter fun b => b.source.isSome && b.source ≠ some w.firstLane).length

/-- Finish with the fields of a READ's OK, RECOVERED and BUS_FAULT (R95). -/
def readFinish (e : EntryId) (o : ReqOutcome) (w : ReadWork) (p : Part) : Part :=
  finish e o w.sources (BitVec.ofNat 32 w.others) (BitVec.ofNat 32 w.firstLane.val) p

/-- FAILED_MEDIA of a READ (R95, R98, R101): release, events, discoveries, finish (R84). That the UNRECOVERABLE events come before
the discoveries, and so before a LIST_FULL event that one of these causes, and the discoveries after the release, is the model's
choice: R98 and R99 do not order them, and R182 allows either order of the events (DESIGN CHOICE, unsafe; log 55). -/
def readFailed (e : EntryId) (r : Request) (w : ReadWork) (events : List Nat) (ds : List Discovery) (p : Part) : Part :=
  let lost := unresolvedAt r.first.toNat w.blocks
  let p := releaseAll (.request e) p
  let p := passEvents (events.map fun i => unrecoverableEvent none r.volume i .read r.tag) p
  complete e .failedMedia w.completed (BitVec.ofNat 32 (lost.headD 0)) (BitVec.ofNat 32 lost.length)
    (handDiscoveries ds p)

/-- The discoveries of R99. -/
def readDiscoveries (r : Request) (w : ReadWork) : List Discovery :=
  tryDiscoveries r.volume .read r.tag r.first.toNat w.blocks

/-- The rounds of a READ by policy go on or end (R97 to R100). -/
def readRound (e : EntryId) (r : Request) (w : ReadWork) (p : Part) : Part :=
  if !w.blocks.any BlockTry.unresolved then
    setEntryState e .delivering (handDiscoveries (readDiscoveries r w) p)
  else
    match p.nextTry r.volume w.tried with
    | some l => readIssue e r l w p
    | none =>
      if p.isLost r.volume then refuse e .lost p
      else readFailed e r w (unresolvedAt r.first.toNat w.blocks) (readDiscoveries r w) p

/-- A READ with a named lane acts on its operation's result (R101). -/
def readNamed (e : EntryId) (r : Request) (w : ReadWork) (p : Part) : Part :=
  let lost := unresolvedAt r.first.toNat w.blocks
  if w.completed = 0 then refuse e .refusedLane p
  else if lost.isEmpty then setEntryState e .delivering (handDiscoveries (readDiscoveries r w) p)
  else if (p.onlineMembers r.volume).any (· ≠ w.firstLane) then
    readFailed e r w [] (lost.map fun i => ⟨w.firstLane, r.volume, i, .unreadable, .read, r.tag⟩) p
  else readFailed e r w lost [] p

/-- An operation of a READ has ended (R97, R101). A lane joins the mask that FAILED_MEDIA writes (R95) when any of its operations
for the request ends completed, also where another of them ended LANE_LOST: the model's choice (log 53). -/
def readOpEnded (e : EntryId) (r : Request) (w : ReadWork) (l : LaneId) (op : LaneOp) (res : OpEnd) (p : Part) : Part :=
  let w : ReadWork := { w with outstanding := w.outstanding - 1 }
  let w : ReadWork := match res with
    | .completed ss _ =>
      { w with blocks := mergeTries l (op.start - p.startBlock r) ss w.blocks, completed := w.completed.add l }
    | .laneLost => w
  let p := setWork e (.read w) p
  if w.outstanding ≠ 0 then p
  else if w.named then readNamed e r w p
  else readRound e r w p

/-- A READ's delivery has ended (R100, R101). -/
def readDelivered (e : EntryId) (d : DmaEnd) (p : Part) : Part :=
  match p.entry e with
  | none => p
  | some x =>
    match x.state, x.work with
    | .delivering, .read w =>
      match d with
      | .fault => readFinish e .busFault w p
      | .done => readFinish e (if w.others = 0 then .ok else .recovered) w p
    | _, _ => p

/-! ## WRITE at the lanes (R94, R102 to R104) -/

/-- The outcome of a WRITE, from the states of the step in which its last target ends (R104). Where every target ended completed
and none of them is ONLINE any more, the rows OK and FAILED_MEDIA both hold, and the model's choice is OK (log 46). -/
def Part.writeOutcome (p : Part) (w : WriteWork) : ReqOutcome :=
  if w.lost = 0 then .ok
  else if w.completed.lanes.any p.online then .degraded
  else .failedMedia

/-- Every target has ended: release, outcome, and the wait for the commit of a lost target (R103, R104). -/
def writeEnd (e : EntryId) (w : WriteWork) (p : Part) : Part :=
  let o := p.writeOutcome w
  let a : Word := w.targets.setWidth 32
  let p := releaseAll (.request e) p
  match p.entry e with
  | none => p
  | some x =>
    if x.mark = .none then complete e o w.completed a 0 p
    else p.modEntry e fun x =>
      { x with state := .waitCommit, work := .none, outcome := o, laneMask := w.completed, detailA := a, detailB := 0 }

/-- Every target has ended its operation. -/
def WriteWork.ended (w : WriteWork) : Bool := w.targets &&& ~~~(w.completed ||| w.lost) = 0

/-- The targets are fixed and the operations issued (R102). -/
def writeTargets (e : EntryId) (r : Request) (p : Part) : Part :=
  let targets := (p.vol r.volume).members.lanes.filter p.serviceable
  let bufs := p.requestBufs e
  let p := setWork e (.write ⟨false, LaneMask.ofList targets, 0, 0⟩) p
  enqueueEach targets
    (fun _ => ⟨.foreground, .write, p.startBlock r, r.count.toNat, bufs, .request e, false⟩) p

/-- A WRITE with its data tests the volume and the hold (R94, R102). -/
def writeTest (e : EntryId) (r : Request) (p : Part) : Part :=
  if p.isLost r.volume then refuse e .lost p
  else if (p.vol r.volume).hold ≠ .none then setWork e (.write ⟨true, 0, 0, 0⟩) p
  else writeTargets e r p

/-- Place blocks in buffers, in order. -/
def fillBuffers (bufs : List BufId) (ds : List Block) (p : Part) : Part :=
  (bufs.zip ds).foldl (fun q x => q.setBuffer x.1 x.2) p

/-- A WRITE's data fetch has ended (R102). -/
def writeFetched (e : EntryId) (data : Option (List Block)) (p : Part) : Part :=
  match p.entry e with
  | none => p
  | some x =>
    if x.req.kind ≠ kindWrite || x.state ≠ .fetching then p
    else
      match data with
      | none => refuse e .busFault p
      | some ds =>
        let blocks := (ds ++ List.replicate x.req.count.toNat zeroBlock).take x.req.count.toNat
        writeTest e x.req (setEntryState e .atLanes (fillBuffers (p.pool.bufsOf (.request e)) blocks p))

/-- A target's operation has ended (R103, R104). -/
def writeOpEnded (e : EntryId) (w : WriteWork) (l : LaneId) (res : OpEnd) (p : Part) : Part :=
  let w : WriteWork := match res with
    | .completed _ _ => { w with completed := w.completed.add l }
    | .laneLost => { w with lost := w.lost.add l }
  let p := setWork e (.write w) p
  if w.ended then writeEnd e w p else p

/-! ## VERIFY (R106 to R109) -/

/-- The lock is granted: the read lanes are fixed (R106). -/
def verifyLocked (e : EntryId) (r : Request) (p : Part) : Part :=
  let set := compareSet r.selector (p.vol r.volume).members
  let lanes := set.lanes.filter (p.onlineMember r.volume)
  if p.isLost r.volume then refuse e .lost p
  else if lanes.isEmpty then refuse e .refusedLane p
  else
    askBuffers (.request e) (r.count.toNat * lanes.length)
      (setEntryState e .waitBuffers (setWork e (.verify ⟨lanes, [], 0, 0⟩) p))

/-- Judge the blocks and finish (R107 to R109). -/
def verifyJudge (e : EntryId) (r : Request) (w : VerifyWork) (p : Part) : Part :=
  if w.got.isEmpty then refuse e (if p.isLost r.volume then .lost else .refusedLane) p
  else
    let v := r.volume
    let first := r.first.toNat
    let js := p.judgements (.request e) v r.count.toNat w.lanes w.got
    let lost := judgedLost js
    let bad := js.filter fun x => x.2.2.outvoted ≠ 0
    let p := passEvents (lost.map fun i => unrecoverableEvent none v (first + i) .verify r.tag) p
    let p := if r.flags &&& flagRepair ≠ 0 then handDiscoveries (judgedDiscoveries v first .verify r.tag js) p else p
    match bad with
    | [] => finish e .ok (LaneMask.ofList (w.got.map (·.1))) 0 0 p
    | x :: _ =>
      finish e .different (bad.foldl (fun m y => m ||| y.2.2.outvoted) 0)
        (BitVec.ofNat 32 (bad.length + 2 ^ 16 * lost.length)) (BitVec.ofNat 32 (first + x.1)) p

/-- The buffers are granted: the reads are issued (R94, R106). -/
def verifyBuffered (e : EntryId) (r : Request) (w : VerifyWork) (p : Part) : Part :=
  let p := setEntryState e .atLanes p
  if p.isLost r.volume then refuse e .lost p
  else
    let x := issueShares .foreground (.request e) (p.pool.bufsOf (.request e)) (p.startBlock r) r.count.toNat w.gone 0 w.lanes p
    let w := { w with outstanding := x.2 }
    let p := setWork e (.verify w) x.1
    if w.outstanding = 0 then verifyJudge e r w p else p

/-- A read of a VERIFY has ended (R107). -/
def verifyOpEnded (e : EntryId) (r : Request) (w : VerifyWork) (l : LaneId) (res : OpEnd) (p : Part) : Part :=
  let w : VerifyWork := { w with
    outstanding := w.outstanding - 1
    got := match res with
      | .completed ss _ => w.got ++ [(l, ss)]
      | .laneLost => w.got }
  let p := setWork e (.verify w) p
  if w.outstanding = 0 then verifyJudge e r w p else p

/-! ## DEFINE VOLUME (R11 to R15) -/

/-- The member mask a DEFINE gives. -/
def Request.members (r : Request) : LaneMask := r.defMembers.setWidth 4

/-- The reference lane of a DEFINE, in parameter bits 3:0. -/
def Request.reference (r : Request) : Option LaneId := laneOf (r.parameter &&& 0x0F)

/-- The read policy of a DEFINE, in parameter bits 7:4. -/
def Request.policy (r : Request) : Option Policy := Policy.ofCode (r.parameter >>> 4)

/-- Check 2 of R11. -/
def defineMalformed (r : Request) : Bool :=
  (volOf r.target).isNone || r.members.lanes.length < 2 || 15 < r.defMembers.toNat
    || !(r.reference.any r.members.has) || r.policy.isNone || 1 < r.selector.toNat || r.defLength = 0 || !aligned64 r

/-- DEFINE VOLUME received: checks 1 and 2, then the label is fetched, the entry staying in RECEIVED (R11; log 18). -/
def defineReceived (e : EntryId) (r : Request) (p : Part) : Part :=
  if p.frozen then refuse e .refusedFrozen p
  else if defineMalformed r then refuse e .refusedFormat p
  else p

/-- Two ranges of lane blocks overlap. -/
def overlap (f n f' n' : Nat) : Bool := f < f' + n' && f' < f + n

/-- Checks 4 to 8 of R11. -/
def defineRefusal (r : Request) (p : Part) : Option ReqOutcome :=
  let f := r.defFirst.toNat
  let n := r.defLength.toNat
  if (p.vol r.volume).inUse then some .refusedVolume
  else if p.rebuild.state ≠ .idle then some .refusedBusy
  else if !r.members.lanes.all p.online then some .refusedLane
  else if f < 2 || r.members.lanes.any (fun l => (p.lane l).capacity.toNat < f + n + 256) then some .refusedRange
  else if allVols.any (fun v => (p.vol v).inUse && ((p.vol v).members &&& r.members ≠ 0)
      && overlap f n (p.vol v).first (p.vol v).length) then some .refusedRange
  else none

/-- The volume entry a DEFINE takes (R13, R14). -/
def Request.newVolume (r : Request) (label : List Byte) (hold : WaitMark) : Volume where
  inUse := true
  state := .filling
  members := r.members
  reference := r.reference.getD 0
  policy := r.policy.getD .fixed
  first := r.defFirst.toNat
  length := r.defLength.toNat
  label := (label ++ List.replicate 16 0).take 16
  rotation := r.reference.getD 0
  hold := hold

/-- The pieces of a fill of `n` blocks (R14). -/
def pieceCount (n : Nat) : Nat := (n + Config.fillPiece - 1) / Config.fillPiece

/-- Issue a member's next piece: a lane that left the serviceable states is departed, a hold makes another wait (R14, R15, R47). -/
def fillIssue (e : EntryId) (r : Request) (pieces : Nat) (f : FillLane) (p : Part) : FillLane × Part :=
  if pieces ≤ f.next || f.lost || f.outstanding then (f, p)
  else if !p.accepts f.lane .fill then ({ f with waitsHold := false, lost := true }, p)
  else if (p.vol r.volume).hold ≠ .none then ({ f with waitsHold := true }, p)
  else
    let off := Config.fillPiece * f.next
    let op : LaneOp := ⟨.foreground, .fill, r.defFirst.toNat + off, min Config.fillPiece (r.defLength.toNat - off), [],
      .request e, false⟩
    ({ f with waitsHold := false, outstanding := true }, enqueue f.lane op p)

/-- Issue the next piece of each member that `which` selects. -/
def fillIssueEach (e : EntryId) (r : Request) (pieces : Nat) (which : FillLane → Bool) :
    List FillLane → Part → List FillLane × Part
  | [], p => ([], p)
  | f :: fs, p =>
    let x := if which f then fillIssue e r pieces f p else (f, p)
    let y := fillIssueEach e r pieces which fs x.2
    (x.1 :: y.1, y.2)

/-- Issue pieces and note the members' progress. -/
def fillGo (e : EntryId) (r : Request) (pieces : Nat) (fs : List FillLane) (which : FillLane → Bool) (p : Part) : Part :=
  let x := fillIssueEach e r pieces which fs p
  (setWork e (.fill pieces x.1) x.2).push [.fillTest e]

/-- What a fill that has ended leaves: nothing, or pieces that have not ended (R15). -/
def fillRest (n : Nat) : Work := if n = 0 then .none else .fillLeft n

/-- The end of a fill: its outcome stands, and the request waits for the pieces of departed members that have not ended (R15). -/
def fillEnd (e : EntryId) (r : Request) (pieces : Nat) (fs : List FillLane) (p : Part) : Part :=
  let v := r.volume
  let mask := LaneMask.ofList ((fs.filter (FillLane.filled pieces)).map (·.lane))
  let left := (fs.filter (·.outstanding)).length
  let p := setWork e (fillRest left) p
  if (p.onlineMembers v).isEmpty then
    let p := p.setVol v .clear
    if left = 0 then complete e .failedMedia 0 0 0 p else p.modEntry e fun x => { x with outcome := .failedMedia }
  else
    let new := p.derivedState v
    let p := passVolumeState v .filling new (some (p.vol v).reference) r.tag (p.modVol v fun x => { x with state := new })
    awaitCommit e mask p

/-- The fill ends when every member has ended its last piece or departed (R15). -/
def fillTest (e : EntryId) (p : Part) : Part :=
  match p.entry e with
  | none => p
  | some x =>
    match x.work with
    | .fill pieces fs =>
      if fs.all fun f => f.lost || f.filled pieces then fillEnd e x.req pieces fs p else p
    | _ => p

/-- A piece has ended (R14, R15). -/
def fillOpEnded (e : EntryId) (r : Request) (pieces : Nat) (fs : List FillLane) (l : LaneId) (res : OpEnd) (p : Part) :
    Part :=
  let fs := fs.map fun f =>
    if f.lane = l then
      match res with
      | .completed _ _ => { f with outstanding := false, next := f.next + 1 }
      | .laneLost => { f with outstanding := false, lost := true }
    else f
  fillGo e r pieces fs (fun f => f.lane = l) p

/-- A piece of a departed member has ended after the end of its fill: with the last one the request finishes, unless it waits for
its commit (R15). -/
def fillLeftEnded (e : EntryId) (x : Entry) (n : Nat) (p : Part) : Part :=
  let p := setWork e (fillRest (n - 1)) p
  if n ≤ 1 && x.mark = .none then complete e x.outcome x.laneMask x.detailA x.detailB p else p

/-- The volume entry is taken: TRUST derives its state and waits for a commit, ZERO starts the fill (R12 to R14). -/
def defineTake (e : EntryId) (r : Request) (label : List Byte) (p : Part) : Part :=
  let v := r.volume
  let p := p.setVol v (r.newVolume label (p.vol v).hold)
  if r.selector = 0 then
    awaitCommit e r.members (p.modVol v fun x => { x with state := p.derivedState v })
  else
    fillGo e r (pieceCount r.defLength.toNat) (r.members.lanes.map fun l => ⟨l, 0, false, false, false⟩) (fun _ => true)
      (setEntryState e .atLanes p)

/-- A DEFINE's label fetch has ended (R11, R12). -/
def labelFetched (e : EntryId) (label : Option (List Byte)) (p : Part) : Part :=
  match p.entry e with
  | none => p
  | some x =>
    if x.req.kind ≠ kindDefine || x.state ≠ .received then p
    else
      match label with
      | none => refuse e .busFault p
      | some bs =>
        match defineRefusal x.req p with
        | some o => refuse e o p
        | none => defineTake e x.req bs p

/-! ## DELETE VOLUME and FREEZE (R17, R18) -/

/-- Patrol is neither IDLE nor DONE. -/
def Patrol.active (q : Patrol) : Bool := q.state ≠ .idle && q.state ≠ .done

/-- The volume is busy (R17, check 3). -/
def Part.volumeBusy (p : Part) (e : EntryId) (v : VolId) : Bool :=
  p.entries.any (fun x => x.1 ≠ e && x.2.req.namesVolume v)
    || (p.vol v).state = .filling
    || (p.patrol.active && ((p.patrol.plan.map (·.spans)).getD []).any (·.volume = v))
    || p.patrol.marker
    || (p.rebuild.state ≠ .idle && p.rebuild.target.any (p.vol v).members.has)
    || p.repair.work.any (·.volume = v)

/-- The plan without its spans of a volume; a plan left with no span is no plan (R17). -/
def prunePlan (v : VolId) (plan : Option Plan) : Option Plan :=
  plan.bind fun pl =>
    match pl.spans.filter (·.volume ≠ v) with
    | [] => none
    | ss => some { pl with spans := ss }

/-- DELETE VOLUME received (R17). -/
def deleteReceived (e : EntryId) (r : Request) (p : Part) : Part :=
  if p.frozen then refuse e .refusedFrozen p
  else
    match volOf r.target with
    | none => refuse e .refusedVolume p
    | some v =>
      if !(p.vol v).inUse then refuse e .refusedVolume p
      else if p.volumeBusy e v then refuse e .refusedBusy p
      else
        let p := removeEntries (fun x => x.volume = v) p
        let p := p.modPatrol fun q => { q with plan := prunePlan v q.plan }
        awaitCommit e 0 (p.setVol v .clear)

/-- FREEZE received (R18). -/
def freezeReceived (e : EntryId) (p : Part) : Part := finish e .ok 0 0 0 { p with frozen := true }

/-! ## LANE (R50 to R54) -/

def actionAdmit : Byte := 1
def actionRetire : Byte := 2
def actionProbe : Byte := 3

/-- The format check of R50: the lane the request names when it passes. -/
def laneFormat (r : Request) : Option LaneId :=
  let force : Bool := r.flags &&& flagForce ≠ 0
  let ok : Bool :=
    if r.selector = actionAdmit then r.parameter.toNat ≤ 15 && !force
    else if r.selector = actionRetire then r.parameter = 0
    else if r.selector = actionProbe then r.parameter = 0 && !force
    else false
  if ok then laneOf r.target else none

/-- FOREIGN, STALE, FAILED and OFFLINE: the states ADMIT and PROBE act on (R51, R54). -/
def RuntimeState.idle : RuntimeState → Bool
  | .foreign | .stale | .failed | .offline => true
  | _ => false

/-- The checks of R51, in order. -/
def admitRefusal (l : LaneId) (p : Part) : Option ReqOutcome :=
  let L := p.lane l
  let vs := p.volumesOf l
  if !L.runtime.idle || !L.identified then some .refusedLane
  else if p.rebuild.state ≠ .idle || vs.any (fun v => (p.vol v).state = .filling) then some .refusedBusy
  else if vs.any (fun v => L.capacity.toNat < (p.vol v).first + (p.vol v).length + 256) then some .refusedCapacity
  else none

/-- The first of `start`, `start` + 1, … that is not 0 and was not seen; `fuel` bounds the search. -/
def unseen (seen : List (BitVec 64)) : Nat → BitVec 64 → BitVec 64
  | 0, x => x
  | n + 1, x => if x = 0 || seen.contains x then unseen seen n (x + 1) else x

/-- A new set serial: the number drawn from the source where it is non-zero and was read from no record of the assembly, else
the next number that is (R65; log 12). -/
def chooseSerial (p : Part) : BitVec 64 :=
  unseen p.committer.seen (p.committer.seen.length + 1) (Config.numberSource p.free)

/-- The set serial is chosen in the step of the first ADMIT of an empty set, and the lane's fresh mark is set (R60, R65). -/
def admitCommitter (l : LaneId) (p : Part) : Part :=
  let c := { p.committer with fresh := p.committer.fresh.set l.val true }
  if p.committer.serial = 0 then { p with committer := { c with serial := chooseSerial p }, free := p.free + 1 }
  else { p with committer := c }

/-- The lane's own state at ADMIT (R52, R110). -/
def Lane.admitted (L : Lane) (parameter : Byte) (recorded : RecordedState) : Lane :=
  { L with
    remap := []
    spareNext := 0
    deadSpares := 0
    sparesLow := false
    counters := .zero
    budget := if parameter = 0 then Config.defaultBudget else parameter.toNat
    boundSerial := L.serial
    recorded := recorded }

/-- ADMIT received (R50 to R52). -/
def admitReceived (e : EntryId) (r : Request) (p : Part) : Part :=
  match laneFormat r with
  | none => refuse e .refusedFormat p
  | some l =>
    match admitRefusal l p with
    | some o => refuse e o p
    | none =>
      let p := admitCommitter l p
      if (p.volumesOf l).isEmpty then
        let p := p.modLane l (·.admitted r.parameter .online)
        awaitCommit e (LaneMask.ofList [l]) (changeRuntime l .online .admitLane r.tag p)
      else
        let p := p.modLane l (·.admitted r.parameter .rebuilding)
        awaitCommit e (LaneMask.ofList [l]) (rebuildStart l (changeRuntime l .rebuilding .admitLane r.tag p))

/-- The lane is the one ONLINE member of an in-use volume (R53). -/
def Part.lastCopy (p : Part) (l : LaneId) : Bool := (p.volumesOf l).any fun v => p.onlineMembers v = [l]

/-- RETIRE received (R50, R53). -/
def retireReceived (e : EntryId) (r : Request) (p : Part) : Part :=
  match laneFormat r with
  | none => refuse e .refusedFormat p
  | some l =>
    let mask := LaneMask.ofList [l]
    match (p.lane l).runtime with
    | .online | .rebuilding =>
      if p.online l && p.lastCopy l && r.flags &&& flagForce = 0 then refuse e .refusedLastCopy p
      else depart l .retire r.tag (p.modEntry e (Entry.await .ok mask 0 0))
    | .stale | .failed =>
      let p := p.modLane l fun L => { L with recorded := .offline }
      awaitCommit e mask (changeRuntime l .offline .retire r.tag p)
    | _ => refuse e .refusedLane p

/-- PROBE received: the line test starts (R34, R50, R54). -/
def probeReceived (e : EntryId) (r : Request) (p : Part) : Part :=
  match laneFormat r with
  | none => refuse e .refusedFormat p
  | some l =>
    let L := p.lane l
    if !L.runtime.idle then refuse e .refusedLane p
    else
      let p := p.setLane l { L with lineTest := some ⟨L.runtime, e⟩, fell := false }
      setEntryState e .atLanes (setRuntimeQuietly l .probing p)

/-- The line test ends: the result goes to the PROBE, then the lane returns to its state, or becomes EMPTY when PRESENT fell
during the test (R34, R35). -/
def lineTestEnded (l : LaneId) (x : LineLevels) (p : Part) : Part :=
  let L := p.lane l
  match L.lineTest with
  | none => p
  | some t =>
    let p := finish t.entry .ok (LaneMask.ofList [l]) (LineLevels.result x) 0 (p.setLane l { L with lineTest := none, fell := false })
    if L.fell then
      let p := presenceLost l p
      if L.present then beginIdentify l p else p
    else setRuntimeQuietly l t.remembered p

/-! ## PATROL PLAN, PATROL CONTROL and SNAPSHOT (R138 to R142, R179) -/

/-- PATROL PLAN received (R138, checks 1 and 2). -/
def planReceived (e : EntryId) (r : Request) (p : Part) : Part :=
  if p.frozen then refuse e .refusedFrozen p
  else if !aligned64 r then refuse e .refusedFormat p
  else askBuffers (.request e) 1 (setEntryState e .waitBuffers p)

/-- A plan content against the volume table: checks 4 and 5 of R138. -/
def planRefusal (plan : Option Plan) (p : Part) : Option ReqOutcome :=
  match plan with
  | none => some .refusedFormat
  | some pl =>
    if pl.spans.any fun s => !p.ready s.volume then some .refusedFormat
    else if pl.spans.any fun s => (p.vol s.volume).length < s.first + s.count then some .refusedRange
    else none

/-- A plan fetch has ended: the checks and the storing in one step (R138, R139). -/
def planFetched (e : EntryId) (plan : Option (List Byte)) (p : Part) : Part :=
  match p.entry e with
  | none => p
  | some x =>
    if x.req.kind ≠ kindPlan || x.state ≠ .fetching then p
    else
      match plan with
      | none => refuse e .busFault p
      | some bs =>
        let p := releaseAll (.request e) (fillBuffers (p.pool.bufsOf (.request e)) [bs] p)
        if p.patrol.marker || p.patrol.active then complete e .refusedBusy 0 0 0 p
        else
          match planRefusal (parsePlan bs) p with
          | some o => complete e o 0 0 0 p
          | none =>
            awaitCommit e 0 (p.modPatrol fun q =>
              { q with plan := parsePlan bs, span := 0, offset := 0, checkpoint := ⟨0, 0, q.pass⟩ })

def controlStart : Byte := 1
def controlStop : Byte := 2

/-- PATROL CONTROL START received (R140, R141). -/
def startReceived (e : EntryId) (r : Request) (p : Part) : Part :=
  if r.selector ≠ controlStart then refuse e .refusedFormat p
  else if p.patrol.marker || p.patrol.active then refuse e .refusedBusy p
  else if p.patrol.plan.isNone then refuse e .refusedFormat p
  else patrolTimers (awaitCommit e 0 (p.modPatrol Patrol.start))

/-- PATROL CONTROL STOP received (R142). -/
def stopReceived (e : EntryId) (r : Request) (p : Part) : Part :=
  if r.selector ≠ controlStop then refuse e .refusedFormat p
  else if p.patrol.marker then refuse e .refusedBusy p
  else if !p.patrol.active then finish e .ok 0 0 0 p
  else if p.patrol.chunk.isSome then
    setEntryState e .atLanes (p.modPatrol fun q => { q with stops := q.stops ++ [e] })
  else awaitCommit e 0 (p.modPatrol fun q => { q with state := .idle, holdoff := 0, rest := 0 })

/-- SNAPSHOT received (R179). -/
def snapshotReceived (e : EntryId) (r : Request) (p : Part) : Part :=
  if !aligned64 r then refuse e .refusedFormat p
  else askBuffers (.request e) 1 (setEntryState e .waitBuffers p)

/-- SNAPSHOT's grant: the report is built in its buffer (R179). -/
def snapshotBuild (e : EntryId) (p : Part) : Part :=
  let p' := fillBuffers (p.pool.bufsOf (.request e)) [p.snapshotBytes] p
  p'.modEntry e fun x => { x with state := .delivering, laneMask := LaneMask.ofList (allLanes.filter p.online) }

/-- SNAPSHOT's transfer has ended (R179). -/
def snapshotDelivered (e : EntryId) (d : DmaEnd) (p : Part) : Part :=
  match p.entry e with
  | none => p
  | some x =>
    if x.req.kind ≠ kindSnapshot || x.state ≠ .delivering then p
    else
      match d with
      | .done => finish e .ok x.laneMask 0 0 p
      | .fault => refuse e .busFault p

/-! ## Host buffer transfers (R11, R100, R102, R138, R179) -/

/-- The address and length of the transfer of a request's host buffer that is in hand: the fetch of a label, of WRITE data or of
a plan, the delivery of READ data or of a report. -/
def Part.hostTransfer (p : Part) (e : EntryId) : Option (Nat × Nat) :=
  match p.entry e with
  | none => none
  | some x =>
    let r := x.req
    if x.state = .received && r.kind = kindDefine then some (r.address.toNat, 16)
    else if x.state = .fetching && r.kind = kindWrite then some (r.address.toNat, 4096 * r.count.toNat)
    else if x.state = .fetching && r.kind = kindPlan then some (r.address.toNat, 128)
    else if x.state = .delivering && r.kind = kindRead then some (r.address.toNat, 4096 * r.count.toNat)
    else if x.state = .delivering && r.kind = kindSnapshot then some (r.address.toNat, 4096)
    else none

/-- The bytes a delivery copies to the host buffer: the request's buffers, in block order (R100, R179). -/
def Part.deliveredBytes (p : Part) (e : EntryId) : List Byte :=
  ((p.pool.bufsOf (.request e)).map fun b => fullBlock (p.buffer b)).flatten

/-! ## Grants, operation ends, holds and commits of requests (R89, R91) -/

/-- A request's lock is granted. -/
def requestLocked (e : EntryId) (p : Part) : Part :=
  match p.entry e with
  | none => p
  | some x =>
    if x.state ≠ .waitLock then p
    else if x.req.kind = kindVerify then verifyLocked e x.req p
    else askBuffers (.request e) x.req.count.toNat (setEntryState e .waitBuffers p)

/-- A request's buffers are granted. -/
def requestBuffered (e : EntryId) (p : Part) : Part :=
  match p.entry e with
  | none => p
  | some x =>
    if x.state ≠ .waitBuffers then p
    else if x.req.kind = kindRead then readStart e x.req p
    else if x.req.kind = kindVerify then
      match x.work with
      | .verify w => verifyBuffered e x.req w p
      | _ => p
    else if x.req.kind = kindSnapshot then snapshotBuild e p
    else setEntryState e .fetching p

/-- A lane operation of a request has ended. -/
def requestOpEnded (e : EntryId) (l : LaneId) (op : LaneOp) (res : OpEnd) (p : Part) : Part :=
  match p.entry e with
  | none => p
  | some x =>
    match x.work with
    | .read w => readOpEnded e x.req w l op res p
    | .write w => writeOpEnded e w l res p
    | .verify w => verifyOpEnded e x.req w l res p
    | .fill pieces fs => fillOpEnded e x.req pieces fs l res p
    | .fillLeft n => fillLeftEnded e x n p
    | .none => p

/-- A volume's hold mark has become none: what a request that waits for it does (R47, R102). -/
def requestHoldCleared (v : VolId) (p : Part) (e : EntryId) : Part :=
  match p.entry e with
  | none => p
  | some x =>
    if x.req.volume ≠ v then p
    else
      match x.work with
      | .write w => if w.waitsHold then writeTest e x.req p else p
      | .fill pieces fs =>
        if fs.any (·.waitsHold) then fillGo e x.req pieces fs (·.waitsHold) p else p
      | _ => p

/-- The producers that wait for a volume's hold go on (R47; log 22): requests in table order, repair, rebuild. -/
def holdCleared (v : VolId) (p : Part) : Part :=
  if (p.vol v).hold ≠ .none then p
  else rebuildHoldCleared v (repairHoldCleared v (allEntries.foldl (requestHoldCleared v) p))

/-- The commit a request waits for has finished (R63): the request finishes, a fill's once its last piece has ended (R15). -/
def waiterDone (e : EntryId) (p : Part) : Part :=
  match p.entry e with
  | none => p
  | some x =>
    if x.state = .waitCommit && x.mark = .none && x.work = .none then complete e x.outcome x.laneMask x.detailA x.detailB p else p

end Sys2Proof.Machine
end

