-- ==== Sys2Proof/Machine/EngineControl.lean ====
section
/-!
DEFINITION. Engine control: the engine commands, ATTACH and assembly, entry into RUNNING, HALTED, DETACHED and FAULTED,
and presence by engine state (chapters 2, 4, 11, 13).
-/
namespace Sys2Proof.Machine

def Part.modEngine (p : Part) (f : Engine → Engine) : Part := { p with engine := f p.engine }

/-- Apply a change to every lane. -/
def Part.mapLanes (p : Part) (f : Lane → Lane) : Part := { p with lanes := p.lanes.map f }

/-! ## Entry into DETACHED (R2, R39, R55, R81, R85, R90, R110, R121, R136, R153, R169, R181, R186, R190) -/

/-- What a lane keeps with no attachment: its lines, its counters and what it sent last. -/
def Lane.detached (L : Lane) : Lane :=
  { Lane.reset L.present with
    raw := L.raw
    qualifying := L.qualifying
    pulse := L.pulse
    lastSent := L.lastSent
    counters := L.counters
    readback := L.readback }

/-- Engine control with no attachment: the flags a host reads afterwards are kept (R187). -/
def Engine.detached (g : Engine) : Engine := { g with state := .detached, attach := .idle, mark := .none, share := 4 }

/-- Every block takes its DETACHED values; the freeze flag, the lane counters and the PRESENT levels are kept. -/
def enterDetached (p : Part) : Part :=
  { p with
    engine := p.engine.detached
    docket := .reset
    table := .replicate 32 none
    volumes := .replicate 8 .clear
    locks := .empty
    pool := { Pool.empty with data := p.pool.data }
    lanes := p.lanes.map Lane.detached
    committer := .reset
    repair := .reset
    patrol := .reset
    rebuild := .reset
    journal := .reset
    interrupt := p.interrupt.clear
    agenda := [] }

/-- Entry into DETACHED by DETACH raises a message (R186). -/
def detachedWithMessage (p : Part) : Part := enterDetached (raiseMessage p)

/-- ABANDON: each lane's work is cut, then the engine is DETACHED, without a message (R190). -/
def abandon (p : Part) : Part := enterDetached (p.mapLanes Lane.cut)

/-! ## Entry into FAULTED (R191) -/

/-- A presence fall that was held is taken in FAULTED, where falls are taken at once (R33; log 25). -/
def takeHeldFall (p : Part) (l : LaneId) : Part :=
  let L := p.lane l
  let p := p.setLane l { L with held := false, fell := false, absent := false }
  if L.held && L.fell then presenceLost l p else p

/-- An exchange-area transfer has faulted: all work is cut, the named state is kept, and a message is raised. -/
def enterFaulted (c : FaultCause) (p : Part) : Part :=
  let p := p.mapLanes Lane.cut
  let p := { p with
    engine := { p.engine with state := .faulted, faultCause := c, attach := .idle, mark := .none }
    docket := p.docket.cut
    table := .replicate 32 none
    repair := p.repair.cut
    patrol := p.patrol.cut
    rebuild := p.rebuild.cut
    journal := p.journal.cut
    agenda := [] }
  let p := raiseMessage (clearShared (cutCommit p))
  { allLanes.foldl takeHeldFall p with agenda := [] }

/-! ## ATTACH (R166, R167, R188) -/

/-- ATTACH is taken: the base is latched; a misaligned base fails at once, otherwise the header is read (R188). -/
def attachTaken (base : BitVec 64) (p : Part) : Part :=
  let p := p.modEngine fun g =>
    { g with refused := false, attachError := .none, faultCause := .none, base := base, state := .attaching,
             attach := .headerRead }
  if base.toNat % 4096 ≠ 0 then p.modEngine fun g => { g.detached with attachError := .layout } else p

/-- The share ratio of a header field (R78). -/
def shareRatio (field : Nat) : Nat := if field = 0 then Config.defaultShare else field

/-- The header's fields are handed out, and the done tally is written (R166, R167, R169, R181, R186). -/
def headerPassed (h : Header) (p : Part) : Part :=
  { p with
    engine := { p.engine with share := shareRatio h.share, attach := .tallyWrite }
    docket := { Docket.reset with offset := h.docketOffset, slots := h.slots, pollInterval := h.poll }
    journal := { Journal.reset with offset := h.journalOffset, entries := h.entries, lastRead := h.consumed }
    interrupt := { p.interrupt with items := 0, timer := false, count := h.intCount, delay := h.intDelay } }

/-- The header read has ended (R166). -/
def headerRead (d : Option (List Byte)) (p : Part) : Part :=
  if p.engine.state ≠ .attaching || p.engine.attach ≠ .headerRead then p
  else
    match checkHeader d with
    | .error x => p.modEngine fun g => { g.detached with attachError := x }
    | .ok h => headerPassed h p

/-- Assembly begins: each present lane identifies, the others are noted absent (R33, R68). -/
def assemblyBegin (p : Part) : Part :=
  let start (q : Part) (l : LaneId) : Part :=
    let q := q.modLane l fun L => { L with held := false, fell := false, absent := !L.present }
    if (q.lane l).present then beginIdentify l q else q
  (allLanes.foldl start (p.modEngine fun g => { g with attach := .identifying })).push [.assemble]

/-- An ATTACH header write has ended: the next one, or assembly (R167, R188). That the three follow one another in the order done
tally, written count, lost count is the model's choice (log 48). -/
def attachHeaderWritten (d : DmaEnd) (p : Part) : Part :=
  let next (a : AttachStep) : Part := p.modEngine fun g => { g with attach := a }
  match p.engine.attach, d with
  | .tallyWrite, .done => next .writtenWrite
  | .writtenWrite, .done => next .lostWrite
  | .lostWrite, .done => assemblyBegin p
  | .tallyWrite, .fault | .writtenWrite, .fault | .lostWrite, .fault => enterFaulted .header p
  | _, _ => p

/-! ## Assembly (R69 to R73) -/

/-- The lane's newest valid record when it names the lane's own position (R69). -/
def Part.candidate (p : Part) (l : LaneId) : Option SetRecord :=
  if (p.lane l).identified then (p.committer.newest[l.val]).filter (·.position = l) else none

/-- The governing lane and record among these lanes: highest generation, then lowest lane (R69). -/
def Part.governing (p : Part) : List LaneId → Option (LaneId × SetRecord)
  | [] => none
  | l :: ls =>
    match p.candidate l, p.governing ls with
    | some r, some (l', r') => if r.generation.toNat < r'.generation.toNat then some (l', r') else some (l, r)
    | some r, none => some (l, r)
    | none, x => x

/-- The lane matches the governing record: its own newest valid record. A module whose own serial is 0 matches no bound
position (R70). -/
def Part.matching (p : Part) (g : SetRecord) (l : LaneId) : Option SetRecord :=
  (p.candidate l).filter fun r =>
    r.serial = g.serial && (p.lane l).serial ≠ 0 && (p.lane l).serial = (g.lanes[l.val]).serial
      && (g.lanes[l.val]).recorded ≠ .unbound

/-- The runtime state assembly maps a lane to (R70). -/
def Part.mapped (p : Part) (g : SetRecord) (l : LaneId) : RuntimeState :=
  let entry := g.lanes[l.val]
  if !(p.lane l).identified then (p.lane l).runtime
  else
    match p.matching g l with
    | none => .foreign
    | some r =>
      match entry.recorded with
      | .failed => .failed
      | .offline => .offline
      | .online =>
        if r.generation ≠ g.generation then .stale
        else if entry.budget = 0 then .failed
        else .online
      | _ => .stale

/-- The lane's state after assembly: runtime state, lane table entry, remap state (R70, R71, R110). -/
def Part.assembledLane (p : Part) (g : SetRecord) (l : LaneId) : Lane :=
  let L := p.lane l
  let entry := g.lanes[l.val]
  let runtime := p.mapped g l
  let own := p.matching g l
  let next := (own.map (·.spareNext)).getD 0
  { L with
    runtime := runtime
    recorded :=
      if (entry.recorded = .online || entry.recorded = .rebuilding) && runtime ≠ .online then .departed else entry.recorded
    boundSerial := entry.serial
    budget := entry.budget
    remap := (own.map (·.remap)).getD []
    spareNext := next
    deadSpares := (own.map (·.deadSpares)).getD 0
    sparesLow := Config.sparesLowAt ≤ next }

/-- A volume entry of the governing record (R2, R71). -/
def VolumeEntry.volume (x : VolumeEntry) : Volume :=
  ⟨true, .lost, x.members, x.reference, x.policy, x.first, x.length, x.label, x.reference, .none⟩

/-- The volume table is loaded from the governing record, with derived states (R2, R71). Of two entries of one volume number the
later one stands (log 11). -/
def loadVolumes (vs : List VolumeEntry) (p : Part) : Part :=
  let p := vs.foldl (fun q x => q.setVol x.number x.volume) p
  allVols.foldl (fun q v => if (q.vol v).inUse then q.modVol v fun x => { x with state := q.derivedState v } else q) p

/-- The part is loaded from the governing record (R70, R71, R149, R150). -/
def loadSet (g : SetRecord) (p : Part) : Part :=
  let lanes := Vector.ofFn fun l : Fin 4 => p.assembledLane g l
  let p := loadVolumes g.volumes { p with
    lanes := lanes
    committer := { p.committer with
      serial := g.serial
      generation := g.generation
      clean := false
      fresh := .replicate 4 false } }
  let vols := allVols.filter fun v => (p.vol v).inUse
  let patrol := Patrol.assembled g.plan g.patrol g.checkpoint
  { p with patrol := if !g.clean && !vols.isEmpty then patrol.recover vols else patrol }

/-- The ASSEMBLY cause (R72). -/
def assemblyCause (g : Option SetRecord) (unclean : Bool) : Byte :=
  match g with
  | none => assemblyEmpty
  | some _ => if unclean then assemblyUnclean else assemblyClean

/-- Assembly: once no lane is IDENTIFYING, the governing record is chosen, the part loaded, the ASSEMBLY event passed and the
first commit requested (R68 to R73). -/
def assemble (p : Part) : Part :=
  if p.engine.state ≠ .attaching || p.engine.attach ≠ .identifying
      || allLanes.any (fun l => (p.lane l).runtime = .identifying) then p
  else
    let g := p.governing allLanes
    let p := match g with
      | some x => loadSet x.2 p
      | none => p
    let p := passEvent (assemblyEvent (g.map (·.1)) (assemblyCause (g.map (·.2)) p.patrol.marker)
      (allLanes.map fun l => (p.lane l).runtime) p.committer.generation) p
    requestCommit (p.modEngine fun x => { x with attach := .firstCommits, mark := .waiting })

/-- The poll timer runs in RUNNING while the interval is not 0 (R175). -/
def Docket.startPoll (d : Docket) : Docket := { d with pollRunning := d.pollInterval ≠ 0 }

/-- The background units take up their work (R135, R152, R165). -/
def takeUp (p : Part) : Part := (patrolTimers p).push [.repairTake, .patrolTry, .rebuildBegin]

/-- Entry into RUNNING from ATTACHING: a sweep is due, the poll timer starts, arrivals held on absent lanes are taken (R33,
R73, R188). A change held on a lane that identifies afresh since the governing record was chosen is taken in this step too,
as RUNNING takes changes at once (the model's choice, log 44). -/
def enterRunning (p : Part) : Part :=
  let p := p.modEngine fun g => { g with state := .running, attach := .idle }
  let p := sweepDue { p with docket := p.docket.startPoll }
  let arrive (q : Part) (l : LaneId) : Part := takeHeld l (q.modLane l fun L => { L with absent := false })
  takeUp (allLanes.foldl arrive p)

/-- Engine control waits for its commit to finish with commit-requested clear (R66, R73). -/
def commitDone (p : Part) : Part :=
  if p.committer.inFlight.isSome || p.committer.requested || p.engine.mark ≠ .none then p
  else
    match p.engine.state with
    | .attaching => if p.engine.attach = .firstCommits then enterRunning p else p
    | .detaching => detachedWithMessage p
    | _ => p

/-! ## HALT, RESUME, DETACH (R66, R189) -/

/-- HALT is taken (R189). -/
def haltTaken (p : Part) : Part :=
  let p := p.modEngine fun g => { g with refused := false, state := .halting }
  let p := docketNext { p with docket := p.docket.halt }
  repairPause (rebuildPause (patrolPause p))

/-- RESUME is taken (R189). -/
def resumeTaken (p : Part) : Part :=
  let p := p.modEngine fun g => { g with refused := false, state := .running }
  let p := { p with
    docket := p.docket.startPoll
    patrol := { p.patrol with paused := false }
    repair := { p.repair with paused := false }
    rebuild := { p.rebuild with paused := false } }
  takeUp (sweepDue p)

/-- DETACH is taken: from HALTED the final commit follows, from FAULTED the engine is DETACHED at once (R66, R191). -/
def detachTaken (p : Part) : Part :=
  let p := p.modEngine fun g => { g with refused := false }
  if p.engine.state = .faulted then detachedWithMessage p
  else
    let p := p.modEngine fun g => { g with state := .detaching, mark := .waiting }
    requestCommit { p with committer := { p.committer with clean := true } }

/-- ABANDON is taken (R190). -/
def abandonTaken (p : Part) : Part := abandon (p.modEngine fun g => { g with refused := false })

/-- A command that is not allowed changes no state and sets the refused flag (R187). -/
def commandRefused (p : Part) : Part := p.modEngine fun g => { g with refused := true }

/-- The states an engine command is allowed from (R187); no other code is a command. -/
def commandAllowed (code : Nat) (g : EngineState) : Bool :=
  match code with
  | 1 => g = .detached
  | 2 => g = .running
  | 3 => g = .halted
  | 4 => g = .halted || g = .faulted
  | 5 => g ≠ .detached
  | _ => false

/-- HALT with what the repair unit then does: it goes on while a room waiter stands (R135, R189). -/
def haltCommand (p : Part) : Part := (haltTaken p).push [.repairTake]

/-- The effect of an allowed command, by its code (R187). -/
def engineTaken (base : BitVec 64) (code : Nat) (p : Part) : Part :=
  match code with
  | 1 => attachTaken base p
  | 2 => haltCommand p
  | 3 => resumeTaken p
  | 4 => detachTaken p
  | _ => abandonTaken p

/-- An engine command is taken where it is allowed and refused otherwise (R187). -/
def engineCommand (code : Nat) (take : Part → Part) (p : Part) : Part :=
  if commandAllowed code p.engine.state then take p else commandRefused p

/-! ## Presence by engine state (R33, R193) -/

/-- A raw level change starts the qualification, and a change that reverts ends it (R193). -/
def Lane.rawChange (L : Lane) (level : Bool) : Lane := { L with raw := level, qualifying := level ≠ L.present }

/-- The qualified level is taken by the lane. -/
def Lane.qualified (L : Lane) (level : Bool) : Lane := { L with present := level, raw := level, qualifying := false }

/-- During assembly a change on a lane that is identifying, or was absent when assembly began, is held (R33, R68). -/
def Part.holds (p : Part) (l : LaneId) : Bool :=
  p.engine.state = .attaching && ((p.lane l).absent || (p.lane l).runtime = .identifying)

/-- Before assembly has begun a change is only noted, as while DETACHED: assembly takes the lanes as they then are (R33, R68;
log 49). -/
def Part.notes (p : Part) : Bool :=
  p.engine.state = .detached
    || (p.engine.state = .attaching && p.engine.attach ≠ .identifying && p.engine.attach ≠ .firstCommits)

/-- The raw level has changed from the sensed one to this level and has not reverted (R193). -/
def Lane.changing (L : Lane) (level : Bool) : Bool := L.qualifying && L.present != level && L.raw = level

/-- A qualified fall (R31, R33, R35, R193): the qualification of a fall that has not reverted ends (log 28). -/
def presenceFell (l : LaneId) (p : Part) : Part :=
  if !(p.lane l).changing false then p
  else
    let p := p.modLane l (·.qualified false)
    if p.notes then p
    else if p.holds l then p.modLane l fun L => { L with held := true, fell := true }
    else if (p.lane l).lineTest.isSome then p.modLane l fun L => { L with fell := true }
    else presenceLost l p

/-- A qualified rise (R32, R33, R35, R193): the qualification of a rise that has not reverted ends (log 28). -/
def presenceRose (l : LaneId) (p : Part) : Part :=
  if !(p.lane l).changing true then p
  else
    let p := p.modLane l (·.qualified true)
    if p.notes || p.engine.state = .faulted then p
    else if p.holds l then p.modLane l fun L => { L with held := true }
    else if (p.lane l).runtime = .empty then beginIdentify l p
    else p

end Sys2Proof.Machine
end

