-- ==== Sys2Proof/Machine/Settle.lean ====
section
/-!
DEFINITION. The end of a step: the work handed between blocks is taken in order (log 5), then the test of HALTED is made
(R189).
-/
namespace Sys2Proof.Machine

/-- The end of a lane operation is handed to its producer (R80). -/
def operationEnded (l : LaneId) (op : LaneOp) (r : OpEnd) (p : Part) : Part :=
  match op.producer with
  | .request e => requestOpEnded e l op r p
  | .patrol => patrolOpEnded l r p
  | .rebuild => rebuildOpEnded l op r p
  | .repair => repairOpEnded l r p
  | .committer => recordEnded l op r p

/-- A lock is handed to its holder (R89), unless it has been withdrawn or released since the grant. -/
def lockGranted (h : Holder) (p : Part) : Part :=
  if !p.locks.granted.any (·.holder = h) then p
  else match h with
  | .request e => requestLocked e p
  | .patrol => patrolLocked p
  | .rebuild => rebuildLocked p
  | .repair => repairLocked p

/-- Buffers are handed to their holder (R89), unless it waits again since the grant. -/
def buffersGranted (h : Holder) (p : Part) : Part :=
  if p.pool.waiting.any (·.1 = h) then p
  else match h with
  | .request e => requestBuffered e p
  | .patrol => patrolBuffered p
  | .rebuild => rebuildBuffered p
  | .repair => repairBuffered p

/-- Carry out one piece of handed work. -/
def runTask (t : Task) (p : Part) : Part :=
  match t with
  | .laneStart l => laneStart l p
  | .opEnded l op r => operationEnded l op r p
  | .lockGranted h => lockGranted h p
  | .buffersGranted h => buffersGranted h p
  | .holdCleared v => holdCleared v p
  | .waiterDone e => waiterDone e p
  | .commitTest => commitTest p
  | .commitDone => commitDone p
  | .fillTest e => fillTest e p
  | .repairTake => repairTake p
  | .repairLeave => repairLeave p
  | .repairGo => repairGo p
  | .patrolTry => patrolTry p
  | .patrolSettle => patrolSettle p
  | .rebuildBegin => rebuildBegin p
  | .rebuildLeave => rebuildLeave p
  | .assemble => assemble p

/-- Take handed work in order until none is left; `fuel` bounds the pieces taken (log 5). -/
def settle : Nat → Part → Part
  | 0, p => p
  | fuel + 1, p =>
    match p.agenda with
    | [] => p
    | t :: ts => settle fuel (runTask t { p with agenda := ts })

/-- All that R189 names holds. -/
def Part.drained (p : Part) : Bool :=
  p.table.all Option.isNone && p.patrol.chunk.isNone && p.repair.work.isNone && p.rebuild.chunk.isNone
    && p.committer.inFlight.isNone && !p.committer.requested && p.agenda.isEmpty

/-- The engine enters HALTED in the first step in which all of R189 holds, and a message is raised (R186). -/
def haltTest (p : Part) : Part :=
  if p.engine.state = .halting && p.drained then raiseMessage (p.modEngine fun g => { g with state := .halted }) else p

/-- A step of the part: the command's own effect, the work it hands on, the test of HALTED. -/
def Part.act (f : Part → Part) (p : Part) : Part := haltTest (settle Config.stepFuel (f p))

/-- The answer to a command that acts on the part. -/
def State.act (f : Part → Part) (s : State) : Host.Outcome State Fault Refusal := .next { s with part := s.part.act f }

end Sys2Proof.Machine
end

