-- ==== Sys2Proof/Machine/ExecEngine.lean ====
section
/-!
DEFINITION. Meanings of the register writes, the resets and the presence rows.
-/
namespace Sys2Proof.Machine

/-- ATTACH: ENGINE code 1 (R187, R188). -/
def execAttach (s : State) : Host.Outcome State Fault Refusal :=
  s.act (engineCommand 1 (attachTaken s.port.base))

/-- HALT: ENGINE code 2 (R187, R189). -/
def execHalt (s : State) : Host.Outcome State Fault Refusal := s.act (engineCommand 2 haltCommand)

/-- RESUME: ENGINE code 3 (R187, R189). -/
def execResume (s : State) : Host.Outcome State Fault Refusal := s.act (engineCommand 3 resumeTaken)

/-- DETACH: ENGINE code 4 (R66, R187, R189, R191). -/
def execDetach (s : State) : Host.Outcome State Fault Refusal := s.act (engineCommand 4 detachTaken)

/-- ABANDON: ENGINE code 5 (R187, R190). -/
def execAbandon (s : State) : Host.Outcome State Fault Refusal := s.act (engineCommand 5 abandonTaken)

/-- A word written to ENGINE as it is: a code that is not allowed sets the refused flag; a code that is allowed takes effect like
its own row (R187). -/
def execEngineCommandRefused (code : Word) (s : State) : Host.Outcome State Fault Refusal :=
  s.act (engineCommand code.toNat (engineTaken s.port.base code.toNat))

/-- The row of the table that a word written to ENGINE makes in an engine state (R187). -/
def engineWrite (g : EngineState) (value : Word) : Instr :=
  if commandAllowed value.toNat g then
    match value.toNat with
    | 1 => .attach
    | 2 => .halt
    | 3 => .resume
    | 4 => .detach
    | _ => .abandon
  else .engineCommandRefused value

/-- The row of the table that a write of a register makes, by its offset (13.1). -/
def State.registerWrite (s : State) (offset : Nat) (value : Word) : Option Instr :=
  if offset = 0x00 then some (.areaWrite false value)
  else if offset = 0x04 then some (.areaWrite true value)
  else if offset = 0x08 then some (.nudge value)
  else if offset = 0x0C then some (engineWrite s.part.engine.state value)
  else none

/-- NUDGE: a sweep is due while RUNNING; the value plays no part (R171, R187). -/
def execNudge (value : Word) (s : State) : Host.Outcome State Fault Refusal :=
  let _ := value
  s.act fun p => if p.running then sweepDue p else p

/-- AREA_LO or AREA_HI takes the value while DETACHED (R187). -/
def execAreaWrite (high : Bool) (value : Word) (s : State) : Host.Outcome State Fault Refusal :=
  if s.part.engine.state = .detached then
    .next { s with port := if high then { s.port with areaHi := value } else { s.port with areaLo := value } }
  else .next s

/-- The interrupt unit after a reset: no message is raised or sent, so the model's own counts of them go on (R192; log 7). -/
def Interrupt.afterReset (u : Interrupt) : Interrupt := { Interrupt.reset with raised := u.raised, sent := u.sent }

/-- Both resets: every block takes its reset values; the model's own counts of numbers drawn and of messages go on (R192;
logs 7, 12). -/
def State.afterReset (s : State) (levels : LaneMask) : State :=
  { s with
    port := .reset
    part := { Part.reset levels with free := s.part.free, interrupt := s.part.interrupt.afterReset } }

/-- POWER_ON_RESET (R192). -/
def execPowerOnReset (levels : LaneMask) (s : State) : Host.Outcome State Fault Refusal := .next (s.afterReset levels)

/-- PORT_RESET (R192). -/
def execPortReset (levels : LaneMask) (s : State) : Host.Outcome State Fault Refusal := .next (s.afterReset levels)

/-- PRESENT_LEVEL_CHANGE: the raw level changes (R193). -/
def execPresentLevelChange (l : LaneId) (level : Bool) (s : State) : Host.Outcome State Fault Refusal :=
  s.act fun p => p.modLane l (·.rawChange level)

/-- PRESENCE_LOSS: the new level has held for 1 ms (R31, R33, R35, R193). -/
def execPresenceLoss (l : LaneId) (s : State) : Host.Outcome State Fault Refusal := s.act (presenceFell l)

/-- PRESENCE_ARRIVAL (R32, R33, R35, R193). -/
def execPresenceArrival (l : LaneId) (s : State) : Host.Outcome State Fault Refusal := s.act (presenceRose l)

end Sys2Proof.Machine
end

