-- ==== Sys2Proof/Machine/ExecLink.lean ====
section
/-!
DEFINITION. Meanings of the lane link rows: replies, timers and pulses of a lane, the line test, departure requests.
-/
namespace Sys2Proof.Machine

/-- IDENT_REPLY (R22, R32). -/
def execIdentReply (l : LaneId) (serial : BitVec 64) (capacity largest : Word) (s : State) :
    Host.Outcome State Fault Refusal := s.act (identReplyTaken l serial capacity largest)

/-- READ_REPLY (R22, R29). -/
def execReadReply (l : LaneId) (statuses : List Byte) (data : List Block) (s : State) : Host.Outcome State Fault Refusal :=
  s.act (readReplyTaken l statuses data)

/-- WRITE_REPLY (R22, R29). -/
def execWriteReply (l : LaneId) (statuses : List Byte) (s : State) : Host.Outcome State Fault Refusal :=
  s.act (writeReplyTaken l statuses)

/-- FILL_REPLY (R22, R30). -/
def execFillReply (l : LaneId) (status : Byte) (s : State) : Host.Outcome State Fault Refusal := s.act (fillReplyTaken l status)

/-- MODULE_RESEND (R25). -/
def execModuleResend (l : LaneId) (s : State) : Host.Outcome State Fault Refusal := s.act (moduleResendTaken l)

/-- NOT_READY (R27). -/
def execNotReady (l : LaneId) (s : State) : Host.Outcome State Fault Refusal := s.act (notReadyTaken l)

/-- BAD_REPLY (R24). -/
def execBadReply (l : LaneId) (s : State) : Host.Outcome State Fault Refusal := s.act (badReplyTaken l)

/-- UNSOLICITED_MESSAGE: discarded (R23). -/
def execUnsolicitedMessage (l : LaneId) (s : State) : Host.Outcome State Fault Refusal :=
  let _ := l
  .next s

/-- REPLY_TIMEOUT (R26). -/
def execReplyTimeout (l : LaneId) (s : State) : Host.Outcome State Fault Refusal := s.act (replyTimedOut l)

/-- TIMEOUT_HOLD_END (R26). -/
def execTimeoutHoldEnd (l : LaneId) (s : State) : Host.Outcome State Fault Refusal := s.act (pulseEnded .timeout l)

/-- DEPARTURE_HOLD_END (R44). -/
def execDepartureHoldEnd (l : LaneId) (s : State) : Host.Outcome State Fault Refusal := s.act (pulseEnded .departure l)

/-- CUT_HOLD_END (R36). -/
def execCutHoldEnd (l : LaneId) (s : State) : Host.Outcome State Fault Refusal := s.act (pulseEnded .cut l)

/-- NOT_READY_WAIT_END (R27). -/
def execNotReadyWaitEnd (l : LaneId) (s : State) : Host.Outcome State Fault Refusal := s.act (notReadyWaited l)

/-- LINE_TEST_END (R34, R35). -/
def execLineTestEnd (l : LaneId) (sensed : LineLevels) (s : State) : Host.Outcome State Fault Refusal :=
  s.act (lineTestEnded l sensed)

/-- DEPARTURE: a departure request reaches the lane controller (R43). In FAULTED only presence losses are taken (R191). -/
def execDeparture (l : LaneId) (c : DepartureCause) (s : State) : Host.Outcome State Fault Refusal :=
  s.act fun p => if p.engine.state = .faulted && c ≠ .presenceLost then p else depart l c 0 p

end Sys2Proof.Machine
end

