-- ==== Sys2Proof/Machine/ExecRequests.lean ====
section
/-!
DEFINITION. Meanings of the request rows: the TAKEN write of the slot being taken ends, the request enters RECEIVED and is
checked (R172, R177), and the host buffer transfers of requests end.
-/
namespace Sys2Proof.Machine

/-- The request of the slot being taken. -/
def Part.taking (p : Part) : Option (EntryId × Request) :=
  match p.docket.xfer with
  | some (.takenWrite e) => (p.entry e).map fun x => (e, x.req)
  | _ => none

/-- The slot has been taken: the docket unit goes on, the entry enters RECEIVED, the generic checks are made, then the checks
of its kind (R172, R177; log 22). -/
def requestReceived (go : EntryId → Request → Part → Part) (e : EntryId) (r : Request) (p : Part) : Part :=
  let p := setEntryState e .received (takingDone p)
  match genericRefusal r with
  | some o => refuse e o p
  | none => go e r p

/-- The end of the TAKEN write, for the row whose requests `mine` selects; another row's request is not this row (log 3). -/
def requestTaken (mine : Request → Bool) (go : EntryId → Request → Part → Part) (d : DmaEnd) (p : Part) : Part :=
  match p.taking with
  | none => p
  | some (e, r) =>
    if !mine r then p
    else
      match d with
      | .fault => enterFaulted .slot p
      | .done => requestReceived go e r p

/-- READ (R92, R93, R96). -/
def execRead (d : DmaEnd) (s : State) : Host.Outcome State Fault Refusal :=
  s.act (requestTaken (·.kind = kindRead) readReceived d)

/-- WRITE (R92, R102). -/
def execWrite (d : DmaEnd) (s : State) : Host.Outcome State Fault Refusal :=
  s.act (requestTaken (·.kind = kindWrite) writeReceived d)

/-- VERIFY (R92, R106). -/
def execVerify (d : DmaEnd) (s : State) : Host.Outcome State Fault Refusal :=
  s.act (requestTaken (·.kind = kindVerify) verifyReceived d)

/-- DEFINE VOLUME (R11). -/
def execDefineVolume (d : DmaEnd) (s : State) : Host.Outcome State Fault Refusal :=
  s.act (requestTaken (·.kind = kindDefine) defineReceived d)

/-- DELETE VOLUME (R17). -/
def execDeleteVolume (d : DmaEnd) (s : State) : Host.Outcome State Fault Refusal :=
  s.act (requestTaken (·.kind = kindDelete) deleteReceived d)

/-- FREEZE (R18). -/
def execFreeze (d : DmaEnd) (s : State) : Host.Outcome State Fault Refusal :=
  s.act (requestTaken (·.kind = kindFreeze) (fun e _ => freezeReceived e) d)

/-- A LANE request of an action, or of no known action, which each of the three rows refuses (R50; log 21). -/
def laneRequest (action : Byte) (r : Request) : Bool :=
  r.kind = kindLane && (r.selector = action || !(r.selector ∈ [actionAdmit, actionRetire, actionProbe]))

/-- LANE ADMIT (R50 to R52). -/
def execAdmit (d : DmaEnd) (s : State) : Host.Outcome State Fault Refusal :=
  s.act (requestTaken (laneRequest actionAdmit) admitReceived d)

/-- LANE RETIRE (R50, R53). -/
def execRetire (d : DmaEnd) (s : State) : Host.Outcome State Fault Refusal :=
  s.act (requestTaken (laneRequest actionRetire) retireReceived d)

/-- LANE PROBE (R50, R54). -/
def execProbe (d : DmaEnd) (s : State) : Host.Outcome State Fault Refusal :=
  s.act (requestTaken (laneRequest actionProbe) probeReceived d)

/-- PATROL PLAN (R138). -/
def execPatrolPlan (d : DmaEnd) (s : State) : Host.Outcome State Fault Refusal :=
  s.act (requestTaken (·.kind = kindPlan) planReceived d)

/-- A PATROL CONTROL request of a code, or of no known code, which each of the two rows refuses (9.3; log 21). -/
def controlRequest (code : Byte) (r : Request) : Bool :=
  r.kind = kindControl && (r.selector = code || !(r.selector ∈ [controlStart, controlStop]))

/-- PATROL CONTROL START (R140). -/
def execPatrolControlStart (d : DmaEnd) (s : State) : Host.Outcome State Fault Refusal :=
  s.act (requestTaken (controlRequest controlStart) startReceived d)

/-- PATROL CONTROL STOP (R142). -/
def execPatrolControlStop (d : DmaEnd) (s : State) : Host.Outcome State Fault Refusal :=
  s.act (requestTaken (controlRequest controlStop) stopReceived d)

/-- SNAPSHOT (R179). -/
def execSnapshot (d : DmaEnd) (s : State) : Host.Outcome State Fault Refusal :=
  s.act (requestTaken (·.kind = kindSnapshot) snapshotReceived d)

/-- REFUSED_KIND: a request of no known kind (R177). -/
def execRefusedKind (d : DmaEnd) (s : State) : Host.Outcome State Fault Refusal :=
  s.act (requestTaken (fun r => !(r.kind ∈ knownKinds)) (fun e _ => refuse e .refusedKind) d)

/-- DEFINE_LABEL_FETCHED (R11, R12). -/
def execDefineLabelFetched (e : EntryId) (label : Option (List Byte)) (s : State) : Host.Outcome State Fault Refusal :=
  s.act (labelFetched e label)

/-- WRITE_DATA_FETCHED (R102). -/
def execWriteDataFetched (e : EntryId) (data : Option (List Block)) (s : State) : Host.Outcome State Fault Refusal :=
  s.act (writeFetched e data)

/-- READ_DELIVERED (R100, R101). -/
def execReadDelivered (e : EntryId) (d : DmaEnd) (s : State) : Host.Outcome State Fault Refusal := s.act (readDelivered e d)

/-- PATROL_PLAN_FETCHED (R138, R139). -/
def execPatrolPlanFetched (e : EntryId) (plan : Option (List Byte)) (s : State) : Host.Outcome State Fault Refusal :=
  s.act (planFetched e plan)

/-- SNAPSHOT_DELIVERED (R179). -/
def execSnapshotDelivered (e : EntryId) (d : DmaEnd) (s : State) : Host.Outcome State Fault Refusal :=
  s.act (snapshotDelivered e d)

end Sys2Proof.Machine
end

