-- ==== Sys2Proof/Machine/ExecTransfers.lean ====
section
/-!
DEFINITION. Meanings of the timers and of the ends of the exchange area transfers (chapters 9, 11, 12, 13).
-/
namespace Sys2Proof.Machine

/-- The holdoff counter has reached 0 (R141). -/
def holdoffExpired (p : Part) : Part :=
  if p.planRuns && p.patrol.state = .holdoff then patrolTimers (p.modPatrol fun q => { q with holdoff := 0 }) else p

/-- HOLDOFF_EXPIRY (R141). -/
def execHoldoffExpiry (s : State) : Host.Outcome State Fault Refusal := s.act holdoffExpired

/-- The rest counter has reached 0 (R141). -/
def restExpired (p : Part) : Part :=
  if p.planRuns && p.patrol.state = .resting then patrolTimers (p.modPatrol fun q => { q with rest := 0 }) else p

/-- REST_EXPIRY (R141). -/
def execRestExpiry (s : State) : Host.Outcome State Fault Refusal := s.act restExpired

/-- POLL_TIMER_EXPIRY: a sweep is due and the timer starts again (R175). -/
def execPollTimerExpiry (s : State) : Host.Outcome State Fault Refusal :=
  s.act fun p => if p.docket.pollRunning then sweepDue p else p

/-- The sweep's consumed count read has ended (R172, R184). -/
def consumedRead (value : Option Word) (p : Part) : Part :=
  match p.docket.xfer with
  | some (.consumedRead own) =>
    match value with
    | none => enterFaulted .consumed p
    | some v =>
      let note (w : Sweep) : Sweep := { w with consumed := true }
      docketNext { p with
        journal := p.journal.consumed v
        docket := { p.docket with xfer := none, sweep := if own then p.docket.sweep.map note else p.docket.sweep } }
  | _ => p

/-- CONSUMED_COUNT_READ (R172, R184). -/
def execConsumedCountRead (value : Option Word) (s : State) : Host.Outcome State Fault Refusal := s.act (consumedRead value)

/-- A slot read has ended (R172). -/
def slotReadEnded (slot : Option (List Byte)) (p : Part) : Part :=
  match p.docket.xfer with
  | some (.slotRead n own) =>
    match slot with
    | none => enterFaulted .slot p
    | some bs =>
      if own then slotExamined n bs p else docketNext { p with docket := { p.docket with xfer := none } }
  | _ => p

/-- SLOT_READ (R172). -/
def execSlotRead (slot : Option (List Byte)) (s : State) : Host.Outcome State Fault Refusal := s.act (slotReadEnded slot)

/-- The outcome fields have been written: the DONE write begins (R178). -/
def outcomeWritten (d : DmaEnd) (p : Part) : Part :=
  match p.docket.xfer, d with
  | some (.outcomeWrite e), .done => { p with docket := { p.docket with xfer := some (.doneWrite e) } }
  | some (.outcomeWrite _), .fault => enterFaulted .slot p
  | _, _ => p

/-- OUTCOME_WRITE (R178). -/
def execOutcomeWrite (d : DmaEnd) (s : State) : Host.Outcome State Fault Refusal := s.act (outcomeWritten d)

/-- DONE has been written: the done tally rises and its write begins (R178). -/
def doneWritten (d : DmaEnd) (p : Part) : Part :=
  match p.docket.xfer, d with
  | some (.doneWrite e), .done =>
    { p with docket := { p.docket with tally := p.docket.tally + 1, xfer := some (.tallyWrite e) } }
  | some (.doneWrite _), .fault => enterFaulted .slot p
  | _, _ => p

/-- DONE_WRITE (R178). -/
def execDoneWrite (d : DmaEnd) (s : State) : Host.Outcome State Fault Refusal := s.act (doneWritten d)

/-- The done tally has been written: an interrupt item, and the entry is freed (R178). -/
def tallyWritten (d : DmaEnd) (p : Part) : Part :=
  match p.docket.xfer, d with
  | some (.tallyWrite e), .done =>
    docketNext (freeEntry e (newItem { p with docket := { p.docket with xfer := none } }))
  | some (.tallyWrite _), .fault => enterFaulted .header p
  | _, _ => p

/-- DONE_TALLY_WRITE (R178). -/
def execDoneTallyWrite (d : DmaEnd) (s : State) : Host.Outcome State Fault Refusal := s.act (tallyWritten d)

/-- HEADER_READ (R166). -/
def execHeaderRead (header : Option (List Byte)) (s : State) : Host.Outcome State Fault Refusal := s.act (headerRead header)

/-- ATTACH_HEADER_WRITE (R167). -/
def execAttachHeaderWrite (d : DmaEnd) (s : State) : Host.Outcome State Fault Refusal := s.act (attachHeaderWritten d)

/-- An entry has been written: its header write begins (R183). -/
def entryWritten (d : DmaEnd) (p : Part) : Part :=
  match p.journal.xfer, d with
  | some .entryWrite, .done => { p with journal := { p.journal with xfer := some .writtenWrite } }
  | some .entryWrite, .fault => enterFaulted .journal p
  | _, _ => p

/-- ENTRY_WRITE (R183). -/
def execEntryWrite (d : DmaEnd) (s : State) : Host.Outcome State Fault Refusal := s.act (entryWritten d)

/-- The written count has been written (R183). -/
def writtenCountWritten (d : DmaEnd) (p : Part) : Part :=
  match p.journal.xfer, d with
  | some .writtenWrite, .done => writtenCountEnded p
  | some .writtenWrite, .fault => enterFaulted .header p
  | _, _ => p

/-- WRITTEN_COUNT_WRITE (R183). -/
def execWrittenCountWrite (d : DmaEnd) (s : State) : Host.Outcome State Fault Refusal := s.act (writtenCountWritten d)

/-- The lost count has been written (R183). -/
def lostCountWritten (d : DmaEnd) (p : Part) : Part :=
  match p.journal.xfer, d with
  | some (.lostWrite _), .done => { p with journal := { p.journal with xfer := none }.next }
  | some (.lostWrite _), .fault => enterFaulted .header p
  | _, _ => p

/-- LOST_COUNT_WRITE (R183). -/
def execLostCountWrite (d : DmaEnd) (s : State) : Host.Outcome State Fault Refusal := s.act (lostCountWritten d)

/-- The writer's own consumed count read has ended (R184). -/
def rereadEnded (value : Option Word) (p : Part) : Part :=
  match p.journal.xfer with
  | some .reread =>
    match value with
    | none => enterFaulted .consumed p
    | some v => { p with journal := { p.journal with xfer := none }.consumed v }
  | _ => p

/-- REREAD (R184). -/
def execReread (value : Option Word) (s : State) : Host.Outcome State Fault Refusal := s.act (rereadEnded value)

/-- DELAY_TIMER_EXPIRY (R185). -/
def execDelayTimerExpiry (s : State) : Host.Outcome State Fault Refusal :=
  s.act fun p => { p with interrupt := p.interrupt.expire }

end Sys2Proof.Machine
end

