-- ==== Sys2Proof/Machine/Dispatch.lean ====
section
/-! DEFINITION. The meaning of each command: one arm per row of the table, by everything but the queue. -/
namespace Sys2Proof.Machine

def exec (i : Instr) (s : State) : Host.Outcome State Fault Refusal :=
  match i with
  | .attach => Sys2Proof.Machine.execAttach s
  | .halt => Sys2Proof.Machine.execHalt s
  | .resume => Sys2Proof.Machine.execResume s
  | .detach => Sys2Proof.Machine.execDetach s
  | .abandon => Sys2Proof.Machine.execAbandon s
  | .engineCommandRefused code => Sys2Proof.Machine.execEngineCommandRefused code s
  | .nudge value => Sys2Proof.Machine.execNudge value s
  | .areaWrite high value => Sys2Proof.Machine.execAreaWrite high value s
  | .powerOnReset levels => Sys2Proof.Machine.execPowerOnReset levels s
  | .portReset levels => Sys2Proof.Machine.execPortReset levels s
  | .presentLevelChange lane level => Sys2Proof.Machine.execPresentLevelChange lane level s
  | .presenceLoss lane => Sys2Proof.Machine.execPresenceLoss lane s
  | .presenceArrival lane => Sys2Proof.Machine.execPresenceArrival lane s
  | .identReply lane serial capacity largest => Sys2Proof.Machine.execIdentReply lane serial capacity largest s
  | .readReply lane statuses data => Sys2Proof.Machine.execReadReply lane statuses data s
  | .writeReply lane statuses => Sys2Proof.Machine.execWriteReply lane statuses s
  | .fillReply lane status => Sys2Proof.Machine.execFillReply lane status s
  | .moduleResend lane => Sys2Proof.Machine.execModuleResend lane s
  | .notReady lane => Sys2Proof.Machine.execNotReady lane s
  | .badReply lane => Sys2Proof.Machine.execBadReply lane s
  | .unsolicitedMessage lane => Sys2Proof.Machine.execUnsolicitedMessage lane s
  | .replyTimeout lane => Sys2Proof.Machine.execReplyTimeout lane s
  | .timeoutHoldEnd lane => Sys2Proof.Machine.execTimeoutHoldEnd lane s
  | .departureHoldEnd lane => Sys2Proof.Machine.execDepartureHoldEnd lane s
  | .cutHoldEnd lane => Sys2Proof.Machine.execCutHoldEnd lane s
  | .notReadyWaitEnd lane => Sys2Proof.Machine.execNotReadyWaitEnd lane s
  | .lineTestEnd lane sensed => Sys2Proof.Machine.execLineTestEnd lane sensed s
  | .departure lane cause => Sys2Proof.Machine.execDeparture lane cause s
  | .read taken => Sys2Proof.Machine.execRead taken s
  | .write taken => Sys2Proof.Machine.execWrite taken s
  | .verify taken => Sys2Proof.Machine.execVerify taken s
  | .defineVolume taken => Sys2Proof.Machine.execDefineVolume taken s
  | .deleteVolume taken => Sys2Proof.Machine.execDeleteVolume taken s
  | .freeze taken => Sys2Proof.Machine.execFreeze taken s
  | .admitLane taken => Sys2Proof.Machine.execAdmit taken s
  | .retire taken => Sys2Proof.Machine.execRetire taken s
  | .probe taken => Sys2Proof.Machine.execProbe taken s
  | .patrolPlan taken => Sys2Proof.Machine.execPatrolPlan taken s
  | .patrolControlStart taken => Sys2Proof.Machine.execPatrolControlStart taken s
  | .patrolControlStop taken => Sys2Proof.Machine.execPatrolControlStop taken s
  | .snapshot taken => Sys2Proof.Machine.execSnapshot taken s
  | .refusedKind taken => Sys2Proof.Machine.execRefusedKind taken s
  | .defineLabelFetched entry label => Sys2Proof.Machine.execDefineLabelFetched entry label s
  | .writeDataFetched entry data => Sys2Proof.Machine.execWriteDataFetched entry data s
  | .readDelivered entry result => Sys2Proof.Machine.execReadDelivered entry result s
  | .patrolPlanFetched entry plan => Sys2Proof.Machine.execPatrolPlanFetched entry plan s
  | .snapshotDelivered entry result => Sys2Proof.Machine.execSnapshotDelivered entry result s
  | .holdoffExpiry => Sys2Proof.Machine.execHoldoffExpiry s
  | .restExpiry => Sys2Proof.Machine.execRestExpiry s
  | .pollTimerExpiry => Sys2Proof.Machine.execPollTimerExpiry s
  | .consumedCountRead value => Sys2Proof.Machine.execConsumedCountRead value s
  | .slotRead slot => Sys2Proof.Machine.execSlotRead slot s
  | .outcomeWrite result => Sys2Proof.Machine.execOutcomeWrite result s
  | .doneWrite result => Sys2Proof.Machine.execDoneWrite result s
  | .doneTallyWrite result => Sys2Proof.Machine.execDoneTallyWrite result s
  | .headerRead header => Sys2Proof.Machine.execHeaderRead header s
  | .attachHeaderWrite result => Sys2Proof.Machine.execAttachHeaderWrite result s
  | .entryWrite result => Sys2Proof.Machine.execEntryWrite result s
  | .writtenCountWrite result => Sys2Proof.Machine.execWrittenCountWrite result s
  | .lostCountWrite result => Sys2Proof.Machine.execLostCountWrite result s
  | .reread value => Sys2Proof.Machine.execReread value s
  | .delayTimerExpiry => Sys2Proof.Machine.execDelayTimerExpiry s

end Sys2Proof.Machine
end

