-- ==== Sys2Proof/Machine/Step.lean ====
section
/-!
DEFINITION. A step of the machine: the command at the front of the queue is taken, or the block idles (log 1).
-/
namespace Sys2Proof.Machine

/-- Take the command at the front of the queue and answer its outcome; on an empty queue the block idles (log 1). -/
def step (s : State) : Host.Outcome State Fault Refusal :=
  match s.pending with
  | [] => .next s
  | c :: rest => exec c { s with pending := rest }

/-- The command a word spells is put at the front of the queue; no word spells one (log 4). -/
def State.withFetchWord (s : State) (nbits w : Nat) : State :=
  match decodeTableWord nbits w with
  | some c => { s with pending := c :: s.pending }
  | none => s

end Sys2Proof.Machine
end

