-- ==== Sys2Proof/Safety.lean ====
section
/-!
DEFINITION. What a well-kept state of the part is: the capacity and mutual exclusion laws that every step keeps (R75, R82,
R86, R122, R182), and the words the statements use about a state at rest.
-/
namespace Sys2Proof.Machine

/-! ## The laws of the shared resources -/

/-- No two granted locks conflict (R86). -/
abbrev Locks.compatible (t : Locks) : Prop := t.granted.Pairwise fun a b => a.conflicts b = false

/-- Each lock of a wait list conflicts with a granted lock or with an earlier waiter (R86): `earlier` are the waiters before
the list. -/
def blockedBy (granted : List Lock) : List Lock → List Lock → Prop
  | _, [] => True
  | earlier, k :: ks => (k.clearOf granted && k.clearOf earlier) = false ∧ blockedBy granted (earlier ++ [k]) ks

/-- Every waiting lock has a reason to wait. -/
def Locks.blocked (t : Locks) : Prop := blockedBy t.granted [] t.waiting

/-- The head of the buffer wait list needs more buffers than are free (R82). -/
abbrev Pool.headWaits (q : Pool) : Prop := ∀ x ∈ q.waiting.head?, q.freeCount < x.2

/-- Two entries of the discrepancy list have different keys. -/
abbrev DiscEntry.apart (x y : DiscEntry) : Prop := ¬ (x.lane = y.lane ∧ x.volume = y.volume ∧ x.block = y.block)

/-- The list holds at most 32 entries, no two with the same lane, volume and block (R122). -/
abbrev Repair.listKept (r : Repair) : Prop := r.list.length ≤ Config.listSize ∧ r.list.Pairwise DiscEntry.apart

/-- The backlog holds at most 16 events (R182). -/
abbrev Journal.backlogKept (j : Journal) : Prop := j.backlog.length ≤ Config.backlogSize

/-- A lane queue holds at most 16 operations, every phase counted (R75). -/
abbrev Lane.placesKept (L : Lane) : Prop := L.places ≤ Config.queuePlaces

/-- The laws together: mutual exclusion of locks, no waiter without a reason to wait, and the capacity of every list. -/
structure Part.Kept (p : Part) : Prop where
  compatible : p.locks.compatible
  blocked : p.locks.blocked
  headWaits : p.pool.headWaits
  list : p.repair.listKept
  backlog : p.journal.backlogKept
  places : ∀ l, (p.lane l).placesKept

/-! ## States at rest -/

/-- The test of HALTED has been made: no state of the part that all of R189 holds in is left HALTING. -/
abbrev Part.haltTested (p : Part) : Prop := ¬ (p.engine.state = .halting ∧ p.drained = true)

/-- Between steps: nothing handed on is waiting (log 5), and the test of HALTED has been made (R189). -/
abbrev Part.atRest (p : Part) : Prop := p.agenda = [] ∧ p.haltTested

/-- Every volume in use and not FILLING stands in its derived state (R4). -/
abbrev Part.derived (p : Part) : Prop := ∀ v, p.ready v = true → (p.vol v).state = p.derivedState v

/-- No operation is in service, queued or waiting for a place on the lane. -/
abbrev Lane.workless (L : Lane) : Prop := L.service = none ∧ L.queue = [] ∧ L.waiters = []

/-- The patrol unit has nothing to begin: no plan work and no recovery pass. -/
abbrev Part.patrolIdle (p : Part) : Prop := p.patrol.state = .idle ∧ p.patrol.marker = false

/-- A holder has no lock, no buffer and no place in a wait list. -/
abbrev Part.holdsNothing (p : Part) (h : Holder) : Prop :=
  (∀ k ∈ p.locks.granted ++ p.locks.waiting, k.holder ≠ h) ∧ (∀ x ∈ p.pool.holders.toList, x ≠ some h)
    ∧ ∀ x ∈ p.pool.waiting, x.1 ≠ h

/-- Nothing waits for a lock or for buffers. -/
abbrev Part.noWaiters (p : Part) : Prop := p.locks.waiting = [] ∧ p.pool.waiting = []

/-- The buffers without those of a holder. -/
def Pool.without (q : Pool) (h : Holder) : Pool := { q with holders := q.holders.map fun x => if x = some h then none else x }

/-- A commit is in flight, so that a commit request is noted for later (R58), and the engine state takes requests. -/
abbrev Part.committing (p : Part) : Prop :=
  p.committer.inFlight.isSome = true ∧ (p.engine.state = .running ∨ p.engine.state = .halted)

/-- The TAKEN write of a slot is in hand: its entry is `x`, and it belongs to the sweep in flight (R172). -/
abbrev Part.takes (p : Part) (e : EntryId) (x : Entry) : Prop :=
  p.docket.xfer = some (.takenWrite e) ∧ p.entry e = some x ∧ p.docket.sweep.isSome = true

/-- The docket unit once the TAKEN write in hand has ended: the sweep goes on and the next transfer begins (R172). -/
def Docket.afterTaken (d : Docket) (running : Bool) : Docket := (({ d with xfer := none }).examined true running).next

/-- The docket unit once a request has joined its completion list: the completion's turn comes when no transfer is in hand
(R170, R178). -/
def Docket.completing (d : Docket) (e : EntryId) : Docket := ({ d with completions := d.completions ++ [e] }).next

/-- The entry of a finished request, with its outcome fields (R91, 13.3). -/
def Entry.finished (x : Entry) (o : ReqOutcome) (mask : LaneMask) (a b : Word) : Entry :=
  { x with state := .finishing, work := .none, outcome := o, laneMask := mask, detailA := a, detailB := b, mark := .none }

/-- The part with the request of entry `e` finished. -/
def Part.finished (p : Part) (e : EntryId) (x : Entry) (o : ReqOutcome) (mask : LaneMask) (a b : Word) : Part :=
  { p with table := p.table.set e.val (some (x.finished o mask a b)), docket := p.docket.completing e }

/-- The part with the slot of entry `e` taken: the entry stands as `x`, and the sweep has gone on (R172). -/
def Part.taken (p : Part) (e : EntryId) (x : Entry) : Part :=
  { p with table := p.table.set e.val (some x), docket := p.docket.afterTaken p.running }

/-! ## Words of the statements -/

/-- What every block holds with no attachment (R2, R39, R55, R81, R85, R90, R110, R121, R136, R153, R169, R181, R186). -/
structure Part.DetachedValues (q : Part) : Prop where
  engine : q.engine.state = .detached ∧ q.engine.share = 4
  docket : q.docket = .reset
  table : ∀ e, q.entry e = none
  volumes : ∀ v, q.vol v = .clear
  locks : q.locks = ⟨[], []⟩
  pool : q.pool.waiting = [] ∧ ∀ b ∈ q.pool.holders.toList, b = none
  lanes : ∀ l, (q.lane l).runtime = .empty ∧ (q.lane l).entryOf = ⟨.unbound, 0, 0⟩ ∧ (q.lane l).identified = false
    ∧ (q.lane l).serial = 0 ∧ (q.lane l).capacity = 0 ∧ (q.lane l).largest = 0
  remaps : ∀ l, (q.lane l).remap = [] ∧ (q.lane l).spareNext = 0 ∧ (q.lane l).deadSpares = 0 ∧ (q.lane l).sparesLow = false
  work : ∀ l, (q.lane l).service = none ∧ (q.lane l).queue = [] ∧ (q.lane l).waiters = [] ∧ (q.lane l).streak = 0
    ∧ (q.lane l).txn = none ∧ (q.lane l).lineTest = none ∧ (q.lane l).identification = none
  committer : q.committer = .reset
  repair : q.repair = .reset
  patrol : q.patrol = .reset
  rebuild : q.rebuild = .reset
  journal : q.journal = .reset
  interrupt : q.interrupt.items = 0 ∧ q.interrupt.timer = false ∧ q.interrupt.count = 0 ∧ q.interrupt.delay = 0

/-- What no entry into DETACHED changes (R18, R37, R39, R190). -/
structure Part.KeepsThroughDetach (p q : Part) : Prop where
  frozen : q.frozen = p.frozen
  lanes : ∀ l, (q.lane l).counters = (p.lane l).counters ∧ (q.lane l).present = (p.lane l).present

/-- The ranges and the disjointness of R166, test 3, over the header's bytes. -/
structure HeaderInRange (bs : List Byte) : Prop where
  docket : fieldAt bs 4 4 % 64 = 0 ∧ 256 ≤ fieldAt bs 4 4
  slots : 8 ≤ fieldAt bs 12 2 ∧ fieldAt bs 12 2 ≤ 128
  journal : fieldAt bs 8 4 % 32 = 0 ∧ 256 ≤ fieldAt bs 8 4
  entries : 16 ≤ fieldAt bs 14 2 ∧ fieldAt bs 14 2 ≤ 256
  count : 1 ≤ fieldAt bs 16 1 ∧ fieldAt bs 16 1 ≤ 32
  share : fieldAt bs 19 1 ≤ 15
  docketInside : fieldAt bs 4 4 + 64 * fieldAt bs 12 2 ≤ 2 ^ 20
  journalInside : fieldAt bs 8 4 + 32 * fieldAt bs 14 2 ≤ 2 ^ 20
  apart : fieldAt bs 4 4 + 64 * fieldAt bs 12 2 ≤ fieldAt bs 8 4 ∨ fieldAt bs 8 4 + 32 * fieldAt bs 14 2 ≤ fieldAt bs 4 4

/-- The row of the table for the end of a TAKEN write of a request, by its kind and, for LANE and PATROL CONTROL, its
action or code; a request of no known action or code is given to ADMIT's or START's row (log 21). -/
def takenRow (r : Request) (d : DmaEnd) : Instr :=
  if r.kind = kindRead then .read d
  else if r.kind = kindWrite then .write d
  else if r.kind = kindVerify then .verify d
  else if r.kind = kindDefine then .defineVolume d
  else if r.kind = kindDelete then .deleteVolume d
  else if r.kind = kindFreeze then .freeze d
  else if r.kind = kindLane then
    if r.selector = actionRetire then .retire d else if r.selector = actionProbe then .probe d else .admitLane d
  else if r.kind = kindPlan then .patrolPlan d
  else if r.kind = kindControl then
    if r.selector = controlStop then .patrolControlStop d else .patrolControlStart d
  else if r.kind = kindSnapshot then .snapshot d
  else .refusedKind d

/-- The answer to a command whose effect on the part is `p`: the registers and the queue stay. -/
def State.withPart (s : State) (p : Part) : State := { s with part := p }

/-- The step in which an operation of lane `l` ends, `p` being the part then: its place frees and the lane's next operation is
chosen, then the end goes to the operation's producer, then the operation chosen begins (R76, R77, R80; the order: log 32). -/
def State.opEnds (s : State) (p : Part) (l : LaneId) (op : LaneOp) (r : OpEnd) : Host.Outcome State Fault Refusal :=
  (s.withPart (freePlace l (p.push [.opEnded l op r]))).act id

end Sys2Proof.Machine
end

