-- ==== Sys2Proof/Certificates/Slice0/Obligations.lean ====
section
/-!
DEFINITION. The statements for the provers. A statement's docstring names the rules of spec/ it rests on, and the log entries
where it rests on a choice of the model.
-/
open Sys2Proof Sys2Proof.Machine

/-! ## The machine -/

/-- Step takes the command at the front of the queue and runs it on the state with the rest of the queue; on an empty queue
the block idles (the queue and the idle step are the model's: log 1). -/
def Obligations.StepTakesTheFrontCommand : Prop :=
  (∀ (c : Instr) (s : State) (rest : List Instr),
      step { s with pending := c :: rest } = exec c { s with pending := rest })
    ∧ ∀ s : State, s.pending = [] → step s = .next s

/-- From any state, any number of steps runs without a fault or a refusal and takes that many commands from the front of the
queue: no command of the table stops the block (the queue is the model's: log 1). -/
def Obligations.EveryRunTakesItsCommandsInOrder : Prop :=
  ∀ (n : Nat) (s : State), ∃ t : State, Sys2Proof.core.run n s = .next t ∧ t.pending = s.pending.drop n

/-- Every step keeps the laws of the shared resources: granted locks never conflict and every waiting lock has a conflict to
wait for (R86), the head of the buffer wait list does not fit (R82), the discrepancy list holds at most 32 entries with no key
twice (R122), the backlog at most 16 events (R182), each lane queue at most 16 operations (R75). -/
def Obligations.EveryStepKeepsTheLaws : Prop :=
  ∀ s t : State, s.part.Kept → step s = .next t → t.part.Kept

/-- The machine right after reset has the laws that every step keeps, and its engine is not HALTING. -/
def Obligations.ResetHasTheLaws : Prop := State.reset.part.Kept ∧ State.reset.part.haltTested

/-- The engine enters HALTED in the first step in which everything R189 names holds: no step leaves it HALTING with all of it
holding. -/
def Obligations.NoStepLeavesADrainedEngineHalting : Prop :=
  ∀ s t : State, s.part.haltTested → step s = .next t → t.part.haltTested

/-- Only the AREA writes and the resets change the AREA registers (R187), and no command touches the queue (log 1). -/
def Obligations.CommandsKeepTheAreaRegisters : Prop :=
  ∀ (c : Instr) (s t : State), exec c s = .next t →
    t.pending = s.pending
      ∧ ((∀ high value, c ≠ .areaWrite high value) → (∀ m, c ≠ .powerOnReset m) → (∀ m, c ≠ .portReset m) → t.port = s.port)

/-! ## Resets and registers -/

/-- Power-on reset and port reset have one effect, in any engine state (R192): the registers, the freeze flag, the share ratio,
every lane and every block at its reset values, PRESENT sensed afresh, no HOLD pulse and no interrupt message. The AREA
registers are 0 and ENGINE reads DETACHED with nothing else set (R187). That the docket's and the journal's places and counts
and the interrupt count and delay of no attachment are 0 (log 8), and that the counts of messages raised and sent are kept
(log 7), are the model's choices. -/
def Obligations.ResetsGiveEveryBlockItsResetValues : Prop :=
  ∀ (levels : LaneMask) (s : State), ∀ c ∈ [Instr.powerOnReset levels, Instr.portReset levels],
    ∃ t : State, exec c s = .next t ∧ t.pending = s.pending ∧ t.port = ⟨0, 0⟩ ∧ t.readRegister 0x0C = some 0
      ∧ t.part.DetachedValues ∧ t.part.frozen = false
      ∧ (∀ l, (t.part.lane l).present = levels.has l ∧ (t.part.lane l).hold = false
          ∧ (t.part.lane l).counters = ⟨0, 0, 0, 0, 0, 0, 0⟩)
      ∧ t.part.interrupt.raised = s.part.interrupt.raised ∧ t.part.interrupt.sent = s.part.interrupt.sent

/-- The four registers as read (13.1): AREA_LO and AREA_HI read back, NUDGE reads 0, and ENGINE shows the engine state, the
refused flag, the attach error and the fault cause in their bits, every other bit 0. -/
def Obligations.RegistersReadTheirFields : Prop :=
  ∀ s : State, s.readRegister 0x00 = some s.port.areaLo ∧ s.readRegister 0x04 = some s.port.areaHi
    ∧ s.readRegister 0x08 = some 0
    ∧ ∃ w : Word, s.readRegister 0x0C = some w
      ∧ (w.extractLsb' 0 4).toNat = s.part.engine.state.code ∧ w.getLsbD 4 = s.part.engine.refused
      ∧ w.extractLsb' 5 3 = 0 ∧ (w.extractLsb' 8 2).toNat = s.part.engine.attachError.code ∧ w.extractLsb' 10 6 = 0
      ∧ (w.extractLsb' 16 4).toNat = s.part.engine.faultCause.code ∧ w.extractLsb' 20 12 = 0

/-- AREA_LO and AREA_HI take the value written while the engine is DETACHED; a write in any other state is ignored and does
not set the refused flag (R187). Nothing else changes either way. -/
def Obligations.AreaWritesAreTakenWhileDetached : Prop :=
  ∀ (value : Word) (s : State),
    (s.part.engine.state = .detached →
      exec (.areaWrite false value) s = .next { s with port := { s.port with areaLo := value } }
        ∧ exec (.areaWrite true value) s = .next { s with port := { s.port with areaHi := value } })
    ∧ (s.part.engine.state ≠ .detached →
      exec (.areaWrite false value) s = .next s ∧ exec (.areaWrite true value) s = .next s)

/-- An engine command that its state does not allow, and a code of 0 or above 5, changes nothing but the refused flag, which
it sets (R187): the table of the states each command is allowed from. -/
def Obligations.RefusedEngineCommandsOnlySetTheFlag : Prop :=
  ∀ s : State, s.part.agenda = [] → s.part.haltTested →
    let g := s.part.engine.state
    let refused : Host.Outcome State Fault Refusal :=
      .next (s.withPart { s.part with engine := { s.part.engine with refused := true } })
    (g ≠ .detached → exec .attach s = refused ∧ exec (.engineCommandRefused 1) s = refused)
      ∧ (g ≠ .running → exec .halt s = refused ∧ exec (.engineCommandRefused 2) s = refused)
      ∧ (g ≠ .halted → exec .resume s = refused ∧ exec (.engineCommandRefused 3) s = refused)
      ∧ (g ≠ .halted → g ≠ .faulted → exec .detach s = refused ∧ exec (.engineCommandRefused 4) s = refused)
      ∧ (g = .detached → exec .abandon s = refused ∧ exec (.engineCommandRefused 5) s = refused)
      ∧ ∀ code : Word, code.toNat = 0 ∨ 5 < code.toNat → exec (.engineCommandRefused code) s = refused

/-! ## ATTACH, HALT, RESUME, DETACH, ABANDON -/

/-- ATTACH from DETACHED latches the base, clears the refused flag, the attach error and the fault cause, and reads the
header; a base whose low 12 bits are not 0 fails at once with LAYOUT and leaves the engine DETACHED (R188). -/
def Obligations.AttachLatchesTheBase : Prop :=
  ∀ s : State, s.part.agenda = [] → s.part.engine.state = .detached →
    let base : BitVec 64 := s.port.areaHi ++ s.port.areaLo
    let g := { s.part.engine with refused := false, attachError := .none, faultCause := .none, base := base }
    (base.toNat % 4096 = 0 →
      exec .attach s = .next (s.withPart { s.part with engine := { g with state := .attaching, attach := .headerRead } }))
    ∧ (base.toNat % 4096 ≠ 0 →
      exec .attach s = .next (s.withPart { s.part with engine :=
        { g with state := .detached, attach := .idle, mark := .none, share := 4, attachError := .layout } }))

/-- The tests of the header in order: BUS, MARK, LAYOUT, each returning the engine to DETACHED; a header that passes is handed
out field by field (R78, R166, R167, R181). That the done tally is the header write begun next, before the written and the lost
count, is the model's choice (log 48). -/
def Obligations.HeaderReadTestsAndHandsOut : Prop :=
  ∀ s : State, s.part.agenda = [] → s.part.engine.state = .attaching → s.part.engine.attach = .headerRead →
    let failed (x : AttachError) : Host.Outcome State Fault Refusal := .next (s.withPart { s.part with engine :=
      { s.part.engine with state := .detached, attach := .idle, mark := .none, share := 4, attachError := x } })
    exec (.headerRead none) s = failed .bus
      ∧ ∀ bs : List Byte,
        (bs.take 4 ≠ [0x45, 0x5A, 0x46, 0x31] → exec (.headerRead (some bs)) s = failed .mark)
        ∧ (bs.take 4 = [0x45, 0x5A, 0x46, 0x31] → ¬ HeaderInRange bs → exec (.headerRead (some bs)) s = failed .layout)
        ∧ (bs.take 4 = [0x45, 0x5A, 0x46, 0x31] → HeaderInRange bs →
          exec (.headerRead (some bs)) s = .next (s.withPart { s.part with
            engine := { s.part.engine with
              share := if fieldAt bs 19 1 = 0 then 4 else fieldAt bs 19 1
              attach := .tallyWrite }
            docket := { Docket.reset with
              offset := fieldAt bs 4 4, slots := fieldAt bs 12 2, pollInterval := fieldAt bs 18 1 }
            journal := { Journal.reset with
              offset := fieldAt bs 8 4, entries := fieldAt bs 14 2, lastRead := BitVec.ofNat 32 (fieldAt bs 32 4) }
            interrupt := { s.part.interrupt with
              items := 0, timer := false, count := fieldAt bs 16 1, delay := fieldAt bs 17 1 } }))

/-- The three ATTACH header writes follow one another: done tally, written count, lost count (this order is the model's choice,
log 48); each writes 0 in its field (R167, R181, R188), and when the last has ended every lane whose PRESENT is high identifies
and the others are noted absent (R33, R68). With no lane present the assembly of the empty set follows in that step, and its
first commit, which has no target, takes the engine to RUNNING with a sweep begun (R69, R73). A lane's identification that ends
in ATTACHING is followed by the test for assembly (R68; a lane identified stands as FOREIGN until then, log 23). Assembly, once
no lane identifies: the governing record is that of the candidate of highest generation, then of lowest lane (R69); the lane
table, the runtime states, the remap tables, the volume table and the patrol unit are loaded from it, a module with serial 0
matching no position (R70, R71, R149, R150); the ASSEMBLY event is passed with its cause and the first commit is requested (R72,
R73). -/
def Obligations.AttachHeaderWritesLeadToIdentification : Prop :=
  ∀ s : State, s.part.agenda = [] → s.part.engine.state = .attaching →
    (s.part.engine.attach = .tallyWrite →
      s.part.attachWrite = some (s.part.engine.base.toNat + 64, [0, 0, 0, 0])
      ∧ exec (.attachHeaderWrite .done) s =
        .next (s.withPart { s.part with engine := { s.part.engine with attach := .writtenWrite } }))
    ∧ (s.part.engine.attach = .writtenWrite →
      s.part.attachWrite = some (s.part.engine.base.toNat + 68, [0, 0, 0, 0])
      ∧ exec (.attachHeaderWrite .done) s =
        .next (s.withPart { s.part with engine := { s.part.engine with attach := .lostWrite } }))
    ∧ (s.part.engine.attach = .lostWrite →
      s.part.attachWrite = some (s.part.engine.base.toNat + 72, [0, 0, 0, 0])
      ∧ ((∃ l, (s.part.lane l).present = true) → (∀ l, (s.part.lane l).runtime = .empty ∧ (s.part.lane l).hold = false) →
        ∃ t : State, exec (.attachHeaderWrite .done) s = .next t
          ∧ t.part.engine = { s.part.engine with attach := .identifying }
          ∧ ∀ l, (t.part.lane l).present = (s.part.lane l).present
            ∧ ((s.part.lane l).present = true →
              (t.part.lane l).runtime = .identifying ∧ (t.part.lane l).txn = some (Txn.start .ident)
                ∧ (t.part.lane l).lastSent = some (.command .ident))
            ∧ ((s.part.lane l).present = false →
              (t.part.lane l).runtime = .empty ∧ (t.part.lane l).absent = true
                ∧ (t.part.lane l).txn = (s.part.lane l).txn))
      ∧ ((∀ l, (s.part.lane l).present = false ∧ (s.part.lane l).identified = false ∧ (s.part.lane l).runtime = .empty) →
        (∀ e, s.part.entry e = none) → (∀ v, s.part.vol v = .clear) → s.part.committer = .reset → s.part.repair = .reset →
        s.part.patrol = .reset → s.part.rebuild = .reset → s.part.docket.sweep = none → s.part.docket.xfer = none →
        s.part.docket.completions = [] →
        exec (.attachHeaderWrite .done) s = .next (s.withPart { s.part.mapLanes (fun L =>
              { L with held := false, fell := false, absent := false }) with
          engine := { s.part.engine with state := .running, attach := .idle, mark := .none }
          journal := s.part.journal.take (assemblyEvent none assemblyEmpty [.empty, .empty, .empty, .empty] 0)
          docket := { s.part.docket with
            pollRunning := decide (s.part.docket.pollInterval ≠ 0)
            sweep := some ⟨s.part.docket.position, 0, none, false, false⟩
            deferred := false
            xfer := some (.consumedRead true) } })))
    ∧ (∀ (l : LaneId), (s.part.lane l).runtime = .identifying → (s.part.lane l).held = false →
      (∀ v, (s.part.vol v).inUse = false) →
      let p := s.part
      let L := p.lane l
      (∀ serial capacity largest, L.awaited = some .ident → capacity.toNat < 1024 ∨ largest.toNat < 16 →
        exec (.identReply l serial capacity largest) s = (s.withPart { p.setLane l { L with
            runtime := .failed, identified := false, serial := 0, capacity := 0, largest := 0, identification := none
            txn := none } with
          agenda := [.patrolTry, .assemble] }).act id)
      ∧ ∀ serial capacity largest codes ss data a b, p.engine.attach = .identifying → L.awaited = some (.read 0 2) →
        L.identification = some (.slots serial capacity largest) → codes.length = 2 → readStatuses codes = some ss →
        data.length = (ss.filter Status.readable).length → slotContents ss data = [a, b] →
        let newest := newestRecord (parseRecord a) (parseRecord b)
        exec (.readReply l codes data) s = (s.withPart { p.setLane l { L with
              runtime := .foreign, identified := true, serial := serial, capacity := capacity, largest := largest
              identification := none, txn := none
              counters := { L.counters with
                corrected := satAdd L.counters.corrected (countStatus .corrected ss)
                unreadable := satAdd L.counters.unreadable (countStatus .unreadable ss) } } with
            committer := { p.committer with
              slotInUse := p.committer.slotInUse.set l.val (newest.map (·.1))
              newest := p.committer.newest.set l.val (newest.map (·.2))
              seen := p.committer.seen ++ ((parseRecord a).map (·.serial)).toList
                ++ ((parseRecord b).map (·.serial)).toList }
            agenda := [.patrolTry, .assemble] }).act id)
    ∧ (∀ p : Part,
      (∀ l r, p.candidate l = some r ↔ (p.lane l).identified = true ∧ p.committer.newest[l.val] = some r ∧ r.position = l)
      ∧ (p.governing allLanes = none ↔ ∀ l, p.candidate l = none)
      ∧ ∀ l r, p.governing allLanes = some (l, r) ↔ p.candidate l = some r
        ∧ ∀ k x, p.candidate k = some x →
          x.generation.toNat ≤ r.generation.toNat ∧ (k < l → x.generation.toNat < r.generation.toNat))
    ∧ (∀ p : Part, p.engine.state = .attaching → p.engine.attach = .identifying → (∀ v, (p.vol v).inUse = false) →
      let report (q : Part) (l : Option LaneId) (cause : Byte) : Part := requestCommit
        ((passEvent (assemblyEvent l cause (allLanes.map fun k => (q.lane k).runtime) q.committer.generation) q).modEngine
          fun g => { g with attach := .firstCommits, mark := .waiting })
      ((∃ l, (p.lane l).runtime = .identifying) → assemble p = p)
      ∧ ((∀ l, (p.lane l).runtime ≠ .identifying) →
        (p.governing allLanes = none → assemble p = report p none assemblyEmpty)
        ∧ ∀ l r, p.governing allLanes = some (l, r) →
          (r.clean = false → r.volumes ≠ [] → assemble p = report (loadSet r p) (some l) assemblyUnclean)
          ∧ (r.clean = true ∨ r.volumes = [] → assemble p = report (loadSet r p) (some l) assemblyClean)))
    ∧ ∀ (p : Part) (r : SetRecord), (∀ v, p.vol v = .clear) → (r.volumes.map (·.number)).Nodup →
      let t := loadSet r p
      let usable : Bool :=
        match r.plan.bind fun plan => plan.spans[r.checkpoint.span]? with
        | some sp => r.checkpoint.offset < sp.count
        | none => false
      let loaded : Patrol := { Patrol.reset with
        plan := r.plan, checkpoint := r.checkpoint, pass := r.checkpoint.pass
        holdoff := match r.plan with
          | some plan => plan.holdoff
          | none => 0 }
      let work : Patrol :=
        if r.patrol = .idle then loaded
        else if r.patrol = .done then { loaded with state := .done }
        else if usable = false then loaded
        else if r.patrol = .resting then { loaded with state := .holdoff, pass := r.checkpoint.pass + 1 }
        else { loaded with state := .holdoff, span := r.checkpoint.span, offset := r.checkpoint.offset }
      t.committer = { p.committer with
        serial := r.serial, generation := r.generation, clean := false, fresh := .replicate 4 false }
      ∧ (∀ k : LaneId,
        let own := r.lanes[k.val]
        let matching := p.matching r k
        let runtime : RuntimeState :=
          if (p.lane k).identified = false then (p.lane k).runtime
          else
            match matching with
            | none => .foreign
            | some x =>
              if own.recorded = .failed then .failed
              else if own.recorded = .offline then .offline
              else if own.recorded = .online ∧ x.generation = r.generation then
                if own.budget = 0 then .failed else .online
              else .stale
        (∀ x, matching = some x ↔ p.candidate k = some x ∧ x.serial = r.serial ∧ (p.lane k).serial = own.serial
          ∧ (p.lane k).serial ≠ 0 ∧ own.recorded ≠ .unbound)
        ∧ t.lane k = { p.lane k with
            runtime := runtime
            recorded := if (own.recorded = .online ∨ own.recorded = .rebuilding) ∧ runtime ≠ .online then .departed
              else own.recorded
            boundSerial := own.serial, budget := own.budget
            remap := (matching.map (·.remap)).getD [], spareNext := (matching.map (·.spareNext)).getD 0
            deadSpares := (matching.map (·.deadSpares)).getD 0
            sparesLow := decide (224 ≤ (matching.map (·.spareNext)).getD 0) })
      ∧ (∀ x ∈ r.volumes, t.vol x.number =
        ⟨true, t.derivedState x.number, x.members, x.reference, x.policy, x.first, x.length, x.label, x.reference, .none⟩)
      ∧ (∀ v, v ∉ r.volumes.map (·.number) → t.vol v = .clear)
      ∧ (r.clean = true ∨ r.volumes = [] → t.patrol = work)
      ∧ (r.clean = false → r.volumes ≠ [] → t.patrol = { work with
        marker := true, recovery := allVols.filter fun v => v ∈ r.volumes.map (·.number)
        resumeSpan := work.span, resumeOffset := work.offset, span := 0, offset := 0 })

/-- HALT from RUNNING (R135, R152, R165, R176, R189): the poll timer is stopped; a sweep in flight ends, or, with a TAKEN write in
hand, is marked to end with it; a background unit with no chunk or entry in hand is paused and one with work in hand goes on; the
commit in hand, the requests and the lanes stay. With none of these in hand the engine is HALTED in the same step and a message is
raised (R186); with any of them it is HALTING and no message is raised. A slot read or a consumed count read in hand does not keep
the sweep (log 17). The TAKEN write that a stopped sweep has waited for ends it. In HALTING the end of a patrol chunk pauses patrol,
and the repair unit with no entry in hand and no room waiter pauses; while the room waiter stands it takes the oldest entry. -/
def Obligations.HaltStopsSweepsAndEntersHalted : Prop :=
  (∀ s : State, s.part.agenda = [] → s.part.engine.state = .running →
    s.part.repair.work ≠ none ∨ s.part.repair.waiter = [] →
    (∀ e, s.part.docket.xfer = some (.takenWrite e) → s.part.entry e ≠ none) →
    let p := s.part
    let inHand : Prop := (∃ e, p.entry e ≠ none) ∨ p.patrol.chunk ≠ none ∨ p.repair.work ≠ none ∨ p.rebuild.chunk ≠ none
      ∨ p.committer.inFlight ≠ none ∨ p.committer.requested = true
    ∃ t : State, exec .halt s = .next t ∧ t.part.engine.refused = false
      ∧ t.part.docket.rerun = false ∧ t.part.docket.pollRunning = false
      ∧ ((∀ e, p.docket.xfer ≠ some (.takenWrite e)) → t.part.docket.sweep = none)
      ∧ (∀ e, p.docket.xfer = some (.takenWrite e) → t.part.docket = { p.docket with
          rerun := false, pollRunning := false, sweep := p.docket.sweep.map fun w => { w with stop := true } })
      ∧ t.part.patrol = { p.patrol with paused := p.patrol.paused || p.patrol.chunk.isNone }
      ∧ t.part.repair = { p.repair with paused := p.repair.paused || p.repair.work.isNone }
      ∧ t.part.rebuild = { p.rebuild with paused := p.rebuild.paused || p.rebuild.chunk.isNone }
      ∧ t.part.table = p.table ∧ t.part.lanes = p.lanes ∧ t.part.volumes = p.volumes ∧ t.part.committer = p.committer
      ∧ t.part.locks = p.locks ∧ t.part.pool = p.pool ∧ t.part.journal = p.journal
      ∧ (¬ inHand → t.part.engine.state = .halted ∧ t.part.interrupt.raised = p.interrupt.raised + 1
          ∧ t.part.interrupt.items = 0 ∧ t.part.interrupt.timer = false)
      ∧ (inHand → t.part.engine.state = .halting ∧ t.part.interrupt = p.interrupt))
  ∧ (∀ (d : Docket) (w : Sweep) (running : Bool), d.sweep = some w → w.stop = true → d.rerun = false →
    d.afterTaken running = ({ d with sweep := none, xfer := none, position := (w.slot + 1) % d.slots } : Docket).next)
  ∧ (∀ p : Part, p.engine.state = .halting → p.patrol.stops = [] →
    patrolGoOn false p = ({ p with patrol := { p.patrol with paused := true } } : Part).push [.patrolTry])
  ∧ ∀ p : Part, p.engine.state = .halting → p.repair.work = none →
    (p.repair.waiter = [] → repairTake p = { p with repair := { p.repair with paused := true } })
    ∧ ∀ x, p.repair.waiter ≠ [] → p.repair.paused = false → p.repair.list.find? (fun y => !y.inRepair) = some x →
      repairTake p = askLock ⟨.repair, x.volume, x.block, 1, true⟩ { p with repair := { p.repair with
        list := p.repair.list.map fun y => if y = x then { y with inRepair := true } else y
        work := some ⟨x.lane, x.volume, x.block, x.origin, x.number, .lock, false, false, [], [], none, none, none, false⟩ } }

/-- RESUME from HALTED: the engine is RUNNING, the paused flags are clear, the poll timer runs when its interval is not 0, and
a sweep begins at the sweep position with the deferred flag cleared (R171, R176, R189). Each unit takes up its work in the step:
patrol RUNNING or WAITING, or with a recovery chunk due, begins a chunk (R143, R152); the repair unit takes its oldest entry (R135);
a rebuild between chunks begins its next (R155, R165); here each asks for a lock that it has to wait for, the other two having
nothing to do. A patrol timer with time left counts on. -/
def Obligations.ResumeStartsSweepAndUnits : Prop :=
  ∀ s : State, s.part.agenda = [] → s.part.engine.state = .halted → s.part.docket.sweep = none →
    let p := s.part
    let q := p.patrol
    let resumed : Part := { p with
      engine := { p.engine with state := .running, refused := false }
      patrol := { q with paused := false }
      repair := { p.repair with paused := false }
      rebuild := { p.rebuild with paused := false }
      docket := ({ p.docket with
        pollRunning := decide (p.docket.pollInterval ≠ 0)
        sweep := some ⟨p.docket.position, 0, none, false, false⟩
        deferred := false } : Docket).next }
    let waits (k : Lock) : Locks := ⟨p.locks.granted, p.locks.waiting ++ [k]⟩
    let conflicts (k : Lock) : Prop := (k.clearOf p.locks.granted && k.clearOf p.locks.waiting) = false
    let patrolRests : Prop := q.marker = false ∧ q.state ≠ .running ∧ q.state ≠ .waiting
      ∧ (q.state = .holdoff → q.holdoff ≠ 0) ∧ (q.state = .resting → q.rest ≠ 0)
    let repairRests : Prop := p.repair.list = [] ∧ p.repair.work = none
    let rebuildRests : Prop := p.rebuild.target = none
    (patrolRests → repairRests → rebuildRests → exec .resume s = .next (s.withPart resumed))
    ∧ (∀ sp, q.chunk = none → q.marker = true ∨ q.state = .running ∨ q.state = .waiting → repairRests → rebuildRests →
      (q.marker = true → ∃ v rest, q.recovery = v :: rest ∧ sp = ⟨v, 0, (p.vol v).length⟩) →
      (q.marker = false → ∃ plan, q.plan = some plan ∧ plan.spans[q.span]? = some sp) →
      p.ready sp.volume = true → p.isLost sp.volume = false → sp.first + sp.count ≤ (p.vol sp.volume).length →
      let n := min 8 (sp.count - q.offset)
      let k : Lock := ⟨.patrol, sp.volume, sp.first + q.offset, n, false⟩
      conflicts k → exec .resume s = .next (s.withPart { resumed with
        patrol := { q with
          paused := false
          state := if q.marker then q.state else .running
          chunk := some ⟨sp.volume, sp.first + q.offset, n, .lock, [], [], 0, 0⟩ }
        locks := waits k }))
    ∧ (∀ x, patrolRests → p.repair.work = none → rebuildRests → p.repair.list.find? (fun y => !y.inRepair) = some x →
      let k : Lock := ⟨.repair, x.volume, x.block, 1, true⟩
      conflicts k → exec .resume s = .next (s.withPart { resumed with
        repair := { p.repair with
          paused := false
          list := p.repair.list.map fun y => if y = x then { y with inRepair := true } else y
          work := some ⟨x.lane, x.volume, x.block, x.origin, x.number, .lock, false, false, [], [], none, none, none, false⟩ }
        locks := waits k }))
    ∧ (∀ l, patrolRests → repairRests → p.rebuild.target = some l → p.rebuild.state = .running →
      p.rebuild.aborting = false → p.rebuild.chunk = none → p.rebuild.passed = false →
      let v := p.rebuild.cursorVol
      let n := min 16 ((p.vol v).length - p.rebuild.cursorBlock)
      let k : Lock := ⟨.rebuild, v, p.rebuild.cursorBlock, n, true⟩
      (p.vol v).inUse = true → (p.vol v).state ≠ .lost → conflicts k → exec .resume s = .next (s.withPart { resumed with
        rebuild := { p.rebuild with
          paused := false, chunk := some ⟨v, p.rebuild.cursorBlock, n, .lock, [], [], [], 0⟩ }
        locks := waits k }))

/-- DETACH from FAULTED enters DETACHED with one message and no commit (R191, R186): every block at its DETACHED values (those
that the spec does not give: log 8), the freeze flag, the lane counters and the PRESENT levels kept. DETACH from HALTED sets the
clean flag: with a commit in flight the final commit is requested and waited for in DETACHING; with none it starts at once and
its record writes with it, or, with no lane to write, finishes in the step; the finish of the final commit enters DETACHED with
one message (R66, R59, R62). -/
def Obligations.DetachEntersDetachedOrDetaching : Prop :=
  ∀ s : State,
    (s.part.engine.state = .faulted →
      ∃ t : State, exec .detach s = .next t ∧ t.port = s.port ∧ t.part.DetachedValues ∧ s.part.KeepsThroughDetach t.part
        ∧ t.part.interrupt.raised = s.part.interrupt.raised + 1 ∧ t.part.engine.refused = false
        ∧ t.part.engine.faultCause = s.part.engine.faultCause)
    ∧ (s.part.agenda = [] → s.part.engine.state = .halted → s.part.committer.inFlight.isSome = true →
      exec .detach s = .next (s.withPart { s.part with
        engine := { s.part.engine with refused := false, state := .detaching, mark := .waiting }
        committer := { s.part.committer with clean := true, requested := true } }))
    ∧ (s.part.agenda = [] → s.part.engine.state = .halted → s.part.committer.inFlight = none →
      (∀ e, s.part.entry e = none) → s.part.repair.work = none → s.part.rebuild.chunk = none →
      ((∀ l, s.part.serviceable l = false) →
        ∃ t : State, exec .detach s = .next t ∧ t.port = s.port ∧ t.part.DetachedValues ∧ s.part.KeepsThroughDetach t.part
          ∧ t.part.interrupt.raised = s.part.interrupt.raised + 1 ∧ t.part.engine.refused = false)
      ∧ ((∃ l, s.part.serviceable l = true) →
        (∀ l, s.part.serviceable l = true → (s.part.lane l).service = none ∧ (s.part.lane l).txn = none
          ∧ (s.part.lane l).hold = false ∧ (s.part.lane l).queue = []) →
        ∃ (t : State) (k : Commit), exec .detach s = .next t
          ∧ t.part.engine = { s.part.engine with refused := false, state := .detaching, mark := .bound }
          ∧ t.part.committer.inFlight = some k ∧ k.clean = true ∧ k.generation = t.part.committer.generation
          ∧ (∀ l, k.targets.has l = s.part.serviceable l) ∧ t.part.committer.requested = false
          ∧ ∀ l, s.part.serviceable l = true →
            let slot := s.part.committer.slotFor l
            let record := ({ s.part with committer := { s.part.committer with clean := true } }).buildRecord k.generation l
            (∃ sv, (t.part.lane l).service = some sv ∧ sv.op = recordOp l slot)
              ∧ (t.part.lane l).txn = some (.start (.write slot.block [record.block]))))
    ∧ ∀ (l : LaneId) (slot : RecordSlot) (block : Nat) (sent : Block) (sv : Service) (x : Piece) (k : Commit),
      let p := s.part
      let L := p.lane l
      p.agenda = [] → p.engine.state = .detaching → p.engine.mark = .bound → (∀ e, p.entry e = none) →
      p.repair.work = none → p.rebuild.chunk = none → L.awaited = some (.write block [sent]) → L.service = some sv →
      sv.op = recordOp l slot → sv.trial = none → sv.cur = some x → sv.todo = [] → sv.zeros = [] → sv.faults = [] →
      sv.results = [] → L.queue = [] → L.waiters = [] → p.committer.inFlight = some k → p.committer.requested = false →
      p.committer.fresh[l.val] = false ∨ slot = .b →
      (∀ m, m ≠ l → k.targets.has m = true → k.ends[m.val] ∈ [.written, .faulted, .lost]) →
      ∃ t : State, exec (.writeReply l [0]) s = .next t ∧ t.port = s.port ∧ t.part.DetachedValues
        ∧ p.KeepsThroughDetach t.part ∧ t.part.interrupt.raised = p.interrupt.raised + 1

/-- ABANDON from any state but DETACHED enters DETACHED in the step, without a message: every block at its DETACHED values, a
1 ms HOLD pulse on each lane with a transaction in flight and on no other, the AREA registers, the freeze flag, the lane
counters, the PRESENT levels, the attach error and the fault cause kept (R36, R190; the DETACHED values that the spec does not
give: log 8). -/
def Obligations.AbandonEndsTheAttachmentAtOnce : Prop :=
  ∀ s : State, s.part.engine.state ≠ .detached →
    ∃ t : State, exec .abandon s = .next t ∧ t.port = s.port ∧ t.part.DetachedValues ∧ s.part.KeepsThroughDetach t.part
      ∧ t.part.interrupt.raised = s.part.interrupt.raised ∧ t.part.engine.refused = false
      ∧ t.part.engine.attachError = s.part.engine.attachError ∧ t.part.engine.faultCause = s.part.engine.faultCause
      ∧ ∀ l, ((s.part.lane l).txn = none → (t.part.lane l).pulse = (s.part.lane l).pulse)
        ∧ ((s.part.lane l).txn ≠ none → (t.part.lane l).pulse = some ((s.part.lane l).pulse.getD .cut))

/-! ## Sweeps and timers -/

/-- A NUDGE while RUNNING and an expiry of the running poll timer make a sweep due: with no sweep in flight it begins at the
sweep position and the deferred flag is cleared, with one in flight the rerun flag is set (R171, R175). The value written
plays no part, and a NUDGE in any other state is ignored. That the expiry of a timer that does not run changes nothing is the
model's (logs 2, 3). -/
def Obligations.NudgeAndPollMakeASweepDue : Prop :=
  ∀ (value : Word) (s : State), s.part.atRest →
    (s.part.engine.state ≠ .running → exec (.nudge value) s = .next s)
    ∧ (s.part.docket.pollRunning = false → exec .pollTimerExpiry s = .next s)
    ∧ ∀ c : Instr, (c = .nudge value ∧ s.part.engine.state = .running)
        ∨ (c = .pollTimerExpiry ∧ s.part.docket.pollRunning = true) →
      (s.part.docket.sweep ≠ none →
        exec c s = .next (s.withPart { s.part with docket := { s.part.docket with rerun := true } }))
      ∧ (s.part.docket.sweep = none → s.part.docket.xfer = none → s.part.docket.completions = [] →
        exec c s = .next (s.withPart { s.part with docket := { s.part.docket with
          sweep := some ⟨s.part.docket.position, 0, none, false, false⟩
          deferred := false
          xfer := some (.consumedRead true) } }))

/-- Expiry of the running delay timer with items waiting raises one message and sets the count to 0 (R185); a message is sent
only while messages are enabled. With no item none is raised. That an expiry with the timer stopped changes nothing (logs 2, 3)
and the counts of messages raised and sent (log 7) are the model's. -/
def Obligations.DelayTimerExpiryRaisesTheMessage : Prop :=
  ∀ s : State, s.part.atRest →
    let u := s.part.interrupt
    (u.timer = true → 0 < u.items →
      exec .delayTimerExpiry s = .next (s.withPart { s.part with interrupt :=
        { u with items := 0, timer := false, raised := u.raised + 1, sent := u.sent + u.enabled.toNat } }))
    ∧ (u.timer = true → u.items = 0 →
      exec .delayTimerExpiry s = .next (s.withPart { s.part with interrupt := { u with timer := false } }))
    ∧ (u.timer = false → exec .delayTimerExpiry s = .next s)

/-! ## Presence -/

/-- A raw level change is noted and its 1 ms qualification starts; a change that reverts ends the qualification (R193). The
sensed level and everything else stay. -/
def Obligations.LevelChangesWaitForTheirQualification : Prop :=
  ∀ (l : LaneId) (level : Bool) (s : State), s.part.atRest →
    let L := s.part.lane l
    exec (.presentLevelChange l level) s =
      .next (s.withPart (s.part.setLane l { L with raw := level, qualifying := level ≠ L.present }))

/-- A qualified fall by engine state (R31, R33, R35, R193): noted while DETACHED; held while the lane identifies in ATTACHING;
noted for the end of a line test; a departure of a serviceable lane; a lane that identified, or was FOREIGN, STALE, FAILED or
OFFLINE, becomes EMPTY and unidentified, with its recorded state, counters and remap state kept. The row is the end of the
qualification: with none under way to the low level it changes nothing (logs 3, 28). -/
def Obligations.PresenceLossIsTakenByTheEngineState : Prop :=
  ∀ (l : LaneId) (s : State), s.part.atRest →
    let p := s.part
    let L := p.lane l
    let low : Lane := { L with present := false, raw := false, qualifying := false }
    let taken : Prop := p.engine.state ≠ .detached ∧ p.engine.state ≠ .attaching
    (L.present = false ∨ L.qualifying = false ∨ L.raw = true → exec (.presenceLoss l) s = .next s)
    ∧ (L.present = true → L.qualifying = true → L.raw = false →
      (p.engine.state = .detached → exec (.presenceLoss l) s = .next (s.withPart (p.setLane l low)))
      ∧ (p.engine.state = .attaching → p.engine.attach = .identifying → L.runtime = .identifying →
        exec (.presenceLoss l) s = .next (s.withPart (p.setLane l { low with held := true, fell := true })))
      ∧ (taken → L.lineTest ≠ none →
        exec (.presenceLoss l) s = .next (s.withPart (p.setLane l { low with fell := true })))
      ∧ (taken → L.lineTest = none → p.serviceable l = true →
        exec (.presenceLoss l) s = exec (.departure l .presenceLost) (s.withPart (p.setLane l low)))
      ∧ (taken → L.lineTest = none → L.runtime.idle = true ∨ L.runtime = .identifying → L.workless → p.derived →
        p.patrolIdle →
        exec (.presenceLoss l) s = .next (s.withPart (passEvent (laneStateEvent l L.runtime .empty .presenceLost 0)
          (p.setLane l { low with
            runtime := .empty, identified := false, serial := 0, capacity := 0, largest := 0, identification := none
            txn := none, streak := 0 }))))
      ∧ (taken → L.lineTest = none → L.runtime = .empty → L.workless →
        exec (.presenceLoss l) s = .next (s.withPart (p.setLane l { low with
          identified := false, serial := 0, capacity := 0, largest := 0, identification := none, txn := none
          streak := 0 }))))

/-- A qualified rise by engine state (R32, R33, R193): noted while DETACHED and FAULTED; held in ATTACHING on a lane that
identifies or was absent when assembly began; otherwise an EMPTY lane becomes IDENTIFYING and IDENT is sent. A lane that is not
EMPTY only notes the level. The row is the end of the qualification: with none under way to the high level it changes nothing
(logs 3, 28). -/
def Obligations.PresenceArrivalBeginsIdentification : Prop :=
  ∀ (l : LaneId) (s : State), s.part.atRest →
    let p := s.part
    let L := p.lane l
    let high : Lane := { L with present := true, raw := true, qualifying := false }
    let taken : Prop := p.engine.state ≠ .detached ∧ p.engine.state ≠ .attaching ∧ p.engine.state ≠ .faulted
    (L.present = true ∨ L.qualifying = false ∨ L.raw = false → exec (.presenceArrival l) s = .next s)
    ∧ (L.present = false → L.qualifying = true → L.raw = true →
      (p.engine.state = .detached ∨ p.engine.state = .faulted →
        exec (.presenceArrival l) s = .next (s.withPart (p.setLane l high)))
      ∧ (p.engine.state = .attaching → p.engine.attach = .identifying → L.absent = true ∨ L.runtime = .identifying →
        exec (.presenceArrival l) s = .next (s.withPart (p.setLane l { high with held := true })))
      ∧ (taken → L.runtime ≠ .empty → exec (.presenceArrival l) s = .next (s.withPart (p.setLane l high)))
      ∧ (taken → L.runtime = .empty → L.hold = false → p.derived → p.patrolIdle →
        exec (.presenceArrival l) s = .next (s.withPart (p.setLane l { high with
          runtime := .identifying, identification := some .ident, txn := some (.start .ident)
          lastSent := some (.command .ident)
          counters := { L.counters with transactions := satInc L.counters.transactions } }))))

/-! ## The lane link -/

/-- An IDENT reply: capacity at least 1024 and largest count at least 16, or the identification fails; when they pass, the
record slots, lane blocks 0 and 1, are read (R22, R28, R32). A failed identification leaves the lane FAILED and unidentified,
its recorded state and strike budget as they were. -/
def Obligations.IdentReplyLeadsToTheSlotRead : Prop :=
  ∀ (l : LaneId) (serial : BitVec 64) (capacity largest : Word) (s : State), s.part.atRest →
    let p := s.part
    let L := p.lane l
    L.awaited = some .ident →
    (1024 ≤ capacity.toNat → 16 ≤ largest.toNat →
      exec (.identReply l serial capacity largest) s = .next (s.withPart (p.setLane l { L with
        identification := some (.slots serial capacity largest), txn := some ⟨.read 0 2, 0, 0, 0, .awaiting⟩
        lastSent := some (.command (.read 0 2))
        counters := { L.counters with transactions := satInc L.counters.transactions } })))
    ∧ (capacity.toNat < 1024 ∨ largest.toNat < 16 → p.engine.state ≠ .attaching → L.runtime = .identifying → p.derived →
      p.patrolIdle →
      exec (.identReply l serial capacity largest) s =
        .next (s.withPart (passEvent (laneStateEvent l .identifying .failed .identFailed 0) (p.setLane l { L with
          runtime := .failed, identified := false, serial := 0, capacity := 0, largest := 0, identification := none
          txn := none }))))

/-- The record slot READ ends an identification (R32, R41, R57): the identity is kept, a slot read UNREADABLE is no record, the
newest valid record and its slot are noted, and outside ATTACHING the lane is mapped by its position's recorded state and bound
serial, a serial of 0 compared as any other (log 54). A slot holds a valid record by the tests of R57 and by no other but that
each code names a state (log 11); its fields are those of 4.2, at the byte places that the model chose (log 11). The newest of
two valid records is that of higher generation, slot B's where they are equal. -/
def Obligations.SlotReadEndsIdentification : Prop :=
  (∀ (l : LaneId) (s : State) (serial : BitVec 64) (capacity largest : Word) (codes : List Byte) (ss : List Status)
    (data : List Block) (a b : Option Block), s.part.atRest →
    let p := s.part
    let L := p.lane l
    let newest := newestRecord (parseRecord a) (parseRecord b)
    let new : RuntimeState :=
      if L.recorded = .unbound ∨ L.boundSerial ≠ serial then .foreign
      else if L.recorded = .failed then .failed
      else if L.recorded = .offline then .offline
      else .stale
    p.engine.state ≠ .attaching → L.awaited = some (.read 0 2) → L.identification = some (.slots serial capacity largest) →
    L.runtime = .identifying → p.derived → p.patrolIdle → codes.length = 2 → readStatuses codes = some ss →
    data.length = (ss.filter Status.readable).length → slotContents ss data = [a, b] →
    exec (.readReply l codes data) s = .next (s.withPart (passEvent (laneStateEvent l .identifying new .arrival 0)
      { p.setLane l { L with
          runtime := new, identified := true, serial := serial, capacity := capacity, largest := largest
          identification := none, txn := none
          counters := { L.counters with
            corrected := satAdd L.counters.corrected (countStatus .corrected ss)
            unreadable := satAdd L.counters.unreadable (countStatus .unreadable ss) } } with
        committer := { p.committer with
          slotInUse := p.committer.slotInUse.set l.val (newest.map (·.1))
          newest := p.committer.newest.set l.val (newest.map (·.2)) } })))
  ∧ (parseRecord none = none ∧ ∀ b, parseRecord (some b) = parseRecordBytes (fullBlock b))
  ∧ (∀ bs : List Byte,
    let count (i n : Nat) : Nat := fieldAt bs i n
    let keys := (List.range (count 42 2)).map fun i => count (512 + 8 * i) 4
    let spares := (List.range (count 42 2)).map fun i => count (516 + 8 * i) 2
    let planned : Prop := byteAt bs 22 ≠ 0
    let valid : Prop := bs.take 4 = [0x45, 0x5A, 0x52, 0x31] ∧ (crc (bs.take 4094)).toNat = count 4094 2
      ∧ count 4 8 ≠ 0 ∧ count 12 8 ≠ 0 ∧ count 40 1 ≤ 3 ∧ count 21 1 ≤ 8 ∧ count 23 1 ≤ 8 ∧ (planned → 1 ≤ count 23 1)
      ∧ count 42 2 ≤ 256 ∧ count 44 2 ≤ 256 ∧ count 46 2 ≤ 256 ∧ count 42 2 + count 46 2 = count 44 2
      ∧ keys.Nodup ∧ spares.Nodup
    let named : Prop := (∀ i : LaneId, count (64 + 16 * i.val) 1 ≤ 5) ∧ count 29 1 ≤ 5
      ∧ (∀ i, i < count 21 1 → count (128 + 32 * i) 1 ≤ 7 ∧ count (130 + 32 * i) 1 ≤ 3 ∧ count (131 + 32 * i) 1 ≤ 1)
      ∧ (planned → ∀ i, i < count 23 1 → count (384 + 12 * i) 1 ≤ 7)
    (¬ valid ∨ ¬ named → parseRecordBytes bs = none)
    ∧ (valid → named → ∃ r, parseRecordBytes bs = some r
      ∧ r.serial.toNat = count 4 8 ∧ r.generation.toNat = count 12 8 ∧ r.clean = decide (byteAt bs 20 ≠ 0)
      ∧ (∀ i : LaneId, (r.lanes[i.val]).recorded.code.toNat = count (64 + 16 * i.val) 1
        ∧ (r.lanes[i.val]).budget = count (65 + 16 * i.val) 1
        ∧ (r.lanes[i.val]).serial.toNat = count (72 + 16 * i.val) 8)
      ∧ r.volumes.length = count 21 1
      ∧ (∀ i x, r.volumes[i]? = some x → x.number.val = count (128 + 32 * i) 1
        ∧ x.members = (byteAt bs (129 + 32 * i)).setWidth 4 ∧ x.reference.val = count (130 + 32 * i) 1
        ∧ x.policy.code.toNat = count (131 + 32 * i) 1 ∧ x.first = count (132 + 32 * i) 4
        ∧ x.length = count (136 + 32 * i) 4 ∧ x.label = (bs.drop (140 + 32 * i)).take 16)
      ∧ (¬ planned → r.plan = none)
      ∧ (planned → ∃ plan, r.plan = some plan ∧ plan.spans.length = count 23 1 ∧ plan.repeats = decide (byteAt bs 24 ≠ 0)
        ∧ plan.rest = count 26 2 ∧ plan.holdoff = count 28 1
        ∧ ∀ i y, plan.spans[i]? = some y → y.volume.val = count (384 + 12 * i) 1 ∧ y.first = count (388 + 12 * i) 4
          ∧ y.count = count (392 + 12 * i) 4)
      ∧ r.patrol.code.toNat = count 29 1 ∧ r.checkpoint.span = count 30 1 ∧ r.checkpoint.offset = count 32 4
      ∧ r.checkpoint.pass.toNat = count 36 4 ∧ r.position.val = count 40 1 ∧ r.remap = keys.zip spares
      ∧ r.spareNext = count 44 2 ∧ r.deadSpares = count 46 2))
  ∧ ∀ a b : Option SetRecord,
    (newestRecord a b = none ↔ a = none ∧ b = none)
    ∧ ∀ x y, (newestRecord (some x) none = some (.a, x) ∧ newestRecord none (some y) = some (.b, y))
      ∧ newestRecord (some x) (some y) = if y.generation.toNat < x.generation.toNat then some (.a, x) else some (.b, y)

/-- A READ reply of an operation with a transaction to come (R23, R29, R37, R80): the statuses are counted and join the
operation's results, the data of each GOOD or CORRECTED block goes to the buffer the operation names for it and no other
buffer changes, and the next transaction begins. With none to come the operation ends: its place frees and its results go to its
producer, in the step (R76, R77, R80); that the lane's next operation is chosen before the producer takes the end, and begins after
it, is log 32. With no other operation waiting, the step's state is the one the producer's taking of the end leaves, where that
hands nothing on. The transactions of an operation are those that R79 splits it into when it becomes IN_SERVICE: a record-class one
is sent as addressed; otherwise each block with a remap entry is one transaction to its spare, and each maximal run of blocks
without one a transaction. -/
def Obligations.ReadReplyGoesOnWithTheOperation : Prop :=
  (∀ (l : LaneId) (s : State) (codes : List Byte) (ss : List Status) (data : List Block) (block n : Nat) (sv : Service)
    (x y : Piece) (rest : List Piece), s.part.atRest →
    let p := s.part
    let L := p.lane l
    let placed := placeData sv.op x.pos ss data p
    L.awaited = some (.read block n) → L.identification = none → L.service = some sv → sv.trial = none → sv.cur = some x →
    sv.faults = [] → sv.zeros = [] → sv.todo = y :: rest → y.kind = .read → codes.length = n →
    readStatuses codes = some ss → data.length = (ss.filter Status.readable).length →
    exec (.readReply l codes data) s = .next (s.withPart (placed.setLane l { L with
      service := some { sv with results := sv.results ++ ss, todo := rest, cur := some y }
      txn := some (.start (.read y.block y.count)), lastSent := some (.command (.read y.block y.count))
      counters := { L.counters with
        transactions := satInc L.counters.transactions
        corrected := satAdd L.counters.corrected (countStatus .corrected ss)
        unreadable := satAdd L.counters.unreadable (countStatus .unreadable ss) } })))
  ∧ (∀ (op : LaneOp) (i : Nat) (st : Status) (ss : List Status) (d : Block) (data : List Block) (b : BufId) (p : Part),
    op.bufs[i]? = some (.staging b) →
    (st = .good ∨ st = .corrected → placeData op i (st :: ss) (d :: data) p = placeData op (i + 1) ss data (p.setBuffer b d))
    ∧ (st ≠ .good → st ≠ .corrected → placeData op i (st :: ss) data p = placeData op (i + 1) ss data p)
    ∧ placeData op i [] data p = p)
  ∧ (∀ (l : LaneId) (s : State) (codes : List Byte) (ss : List Status) (data : List Block) (block n : Nat) (sv : Service)
    (x : Piece), s.part.agenda = [] →
    let p := s.part
    let L := p.lane l
    L.awaited = some (.read block n) → L.identification = none → L.service = some sv → sv.trial = none → sv.cur = some x →
    sv.faults = [] → sv.zeros = [] → sv.todo = [] → codes.length = n → readStatuses codes = some ss →
    data.length = (ss.filter Status.readable).length →
    exec (.readReply l codes data) s = s.opEnds ((placeData sv.op x.pos ss data p).setLane l { L with
      service := some { sv with results := sv.results ++ ss, cur := none }, txn := none
      counters := { L.counters with
        corrected := satAdd L.counters.corrected (countStatus .corrected ss)
        unreadable := satAdd L.counters.unreadable (countStatus .unreadable ss) } })
      l sv.op (.completed (sv.results ++ ss) sv.remapped))
  ∧ (∀ (l : LaneId) (s : State) (p t : Part) (op : LaneOp) (r : OpEnd), p.agenda = [] → (p.lane l).queue = [] →
    (p.lane l).waiters = [] → operationEnded l op r (p.setLane l { p.lane l with service := none }) = t → t.atRest →
    s.opEnds p l op r = .next (s.withPart t))
  ∧ (∀ (l : LaneId) (op : LaneOp) (p : Part), op.remapCall = false →
    p.serve l op = ⟨op, (p.lane l).translate op, none, [], [], none, [], false, false⟩)
  ∧ ∀ (L : Lane) (op : LaneOp),
    let pieces := L.translate op
    let remapped (x : Piece) : Prop := ∃ s, (op.start + x.pos, s) ∈ L.remap
    (op.cls = .record → 1 ≤ op.count → pieces = [⟨op.kind, op.start, op.count, 0⟩])
    ∧ (op.cls ≠ .record → (L.remap.map Prod.fst).Nodup →
      pieces.flatMap (fun x => List.range' x.pos x.count) = List.range op.count
      ∧ (∀ x ∈ pieces, x.kind = op.kind ∧ 1 ≤ x.count
        ∧ (∀ s, (op.start + x.pos, s) ∈ L.remap → x.count = 1 ∧ x.block = L.capacity.toNat - 256 + s)
        ∧ (¬ remapped x → x.block = op.start + x.pos ∧ ∀ i, i < x.count → ∀ s, (x.block + i, s) ∉ L.remap))
      ∧ ∀ i x y, pieces[i]? = some x → pieces[i + 1]? = some y → remapped x ∨ remapped y)

/-- A bad reply (R24): below three RESENDs a RESEND is sent and counted and a reply is awaited again; at three it is a link
failure; neither a NOT_READY nor a RESEND of the module changes that count. A NOT_READY (R27): below 50 the part waits 10 ms,
then the count and the lane's counter rise by 1, the command is sent, whatever the part sent last, and a reply is awaited; at
50 it is a link failure; during the wait whatever the module sends is discarded. -/
def Obligations.BadRepliesAndNotReadyRetryTheTransaction : Prop :=
  ∀ (l : LaneId) (s : State) (t : Txn), s.part.atRest → (s.part.lane l).txn = some t →
    let p := s.part
    let L := p.lane l
    (t.phase = .awaiting →
      (t.replyResends < 3 → exec (.badReply l) s = .next (s.withPart (p.setLane l { L with
        txn := some { t with replyResends := t.replyResends + 1 }, lastSent := some .resend
        counters := { L.counters with resends := satInc L.counters.resends } })))
      ∧ (3 ≤ t.replyResends → exec (.badReply l) s = s.act (linkFailure l))
      ∧ (t.commandResends < 3 → exec (.moduleResend l) s = .next (s.withPart (p.setLane l { L with
        txn := some { t with commandResends := t.commandResends + 1 }, lastSent := some (.command t.cmd)
        counters := { L.counters with resends := satInc L.counters.resends } })))
      ∧ (t.notReady < 50 → exec (.notReady l) s = .next (s.withPart (p.setLane l { L with
        txn := some { t with phase := .notReadyWait } })))
      ∧ (50 ≤ t.notReady → exec (.notReady l) s = s.act (linkFailure l)))
    ∧ (t.phase = .notReadyWait → t.timerMs = 10
      ∧ exec (.notReadyWaitEnd l) s = .next (s.withPart (p.setLane l { L with
        txn := some { t with phase := .awaiting, notReady := t.notReady + 1 }, lastSent := some (.command t.cmd)
        counters := { L.counters with notReadyRetries := satInc L.counters.notReadyRetries } })))
    ∧ (t.phase ≠ .awaiting →
      exec (.badReply l) s = .next s ∧ exec (.notReady l) s = .next s ∧ exec (.moduleResend l) s = .next s
      ∧ exec (.unsolicitedMessage l) s = .next s ∧ (∀ x c m, exec (.identReply l x c m) s = .next s)
      ∧ (∀ codes data, exec (.readReply l codes data) s = .next s) ∧ (∀ codes, exec (.writeReply l codes) s = .next s)
      ∧ ∀ code, exec (.fillReply l code) s = .next s)

/-- A RESEND of the module (R25): with the command-resend count below 3 the command is sent again, unchanged, the count and the
lane's resends counter rise by 1, and a reply is awaited again, whatever the part sent last; at 3 it is a link failure. -/
def Obligations.ModuleResendSendsTheCommandAgain : Prop :=
  ∀ (l : LaneId) (s : State) (t : Txn), s.part.atRest → (s.part.lane l).txn = some t → t.phase = .awaiting →
    let p := s.part
    let L := p.lane l
    (t.commandResends < 3 → exec (.moduleResend l) s = .next (s.withPart (p.setLane l { L with
      txn := some { t with commandResends := t.commandResends + 1, phase := .awaiting }
      lastSent := some (.command t.cmd)
      counters := { L.counters with resends := satInc L.counters.resends } })))
    ∧ (3 ≤ t.commandResends → exec (.moduleResend l) s = s.act (linkFailure l))

/-- A link failure (R28, R48): a serviceable lane loses a strike and begins the same transaction again with its counts at 0,
or with its last strike departs with cause STRIKES; an identification fails without a strike. -/
def Obligations.LinkFailuresCountAStrike : Prop :=
  ∀ (l : LaneId) (s : State) (t : Txn), s.part.atRest → (s.part.lane l).txn = some t →
    let p := s.part
    let L := p.lane l
    (p.serviceable l = true → 2 ≤ L.budget →
      s.act (linkFailure l) = .next (s.withPart (p.setLane l { L with
        budget := L.budget - 1, txn := some ⟨t.cmd, 0, 0, 0, .awaiting⟩, lastSent := some (.command t.cmd)
        counters := { L.counters with transactions := satInc L.counters.transactions } })))
    ∧ (p.serviceable l = true → L.budget ≤ 1 → p.engine.state ≠ .faulted →
      s.act (linkFailure l) = exec (.departure l .strikes) (s.withPart (p.setLane l { L with budget := 0, txn := none })))
    ∧ (L.runtime = .identifying → p.engine.state ≠ .attaching → p.derived → p.patrolIdle →
      s.act (linkFailure l) =
        .next (s.withPart (passEvent (laneStateEvent l .identifying .failed .identFailed 0) (p.setLane l { L with
          runtime := .failed, identified := false, serial := 0, capacity := 0, largest := 0, identification := none
          txn := none }))))

/-- What makes a link failure (R22, R24, R27, R28): the fourth bad reply, the 51st NOT_READY, and statuses that do not fit the
command. A reply of another kind than the command awaits, or of another size, is a bad reply. The messages as bytes (2.2, R20,
R21): a type byte, the payload's length in four bytes, the payload, and the check code over all before it, low bytes first; the
check code's feedback by x^16 + x^12 + x^5 + 1 from FFFFh, each byte most significant bit first (the bit order is log 33); the
five messages the part sends; what bytes from the module are by the command awaited, where no reply is awaited or the check code,
the length, the type or the size is wrong too (R20, R22, R23). -/
def Obligations.CausesOfLinkFailures : Prop :=
  (∀ (l : LaneId) (s : State) (t : Txn), (s.part.lane l).txn = some t → t.phase = .awaiting →
    let fails : Host.Outcome State Fault Refusal := s.act (linkFailure l)
    (3 ≤ t.replyResends → exec (.badReply l) s = fails) ∧ (50 ≤ t.notReady → exec (.notReady l) s = fails)
    ∧ (∀ codes data, (∀ b n, t.cmd ≠ .read b n) → exec (.readReply l codes data) s = exec (.badReply l) s)
    ∧ (∀ codes, (∀ b d, t.cmd ≠ .write b d) → exec (.writeReply l codes) s = exec (.badReply l) s)
    ∧ (∀ code, (∀ b n, t.cmd ≠ .fill b n) → exec (.fillReply l code) s = exec (.badReply l) s)
    ∧ (∀ x c m, t.cmd ≠ .ident → exec (.identReply l x c m) s = exec (.badReply l) s)
    ∧ (∀ b n codes data, t.cmd = .read b n →
      codes.length ≠ n ∨ data.length ≠ (codes.filter fun c => c = 0 ∨ c = 1).length →
      exec (.readReply l codes data) s = exec (.badReply l) s)
    ∧ (∀ b d codes, t.cmd = .write b d → codes.length ≠ d.length →
      exec (.writeReply l codes) s = exec (.badReply l) s)
    ∧ (∀ b n codes data, t.cmd = .read b n → codes.length = n →
      data.length = (codes.filter fun c => c = 0 ∨ c = 1).length → (∃ c ∈ codes, 3 ≤ c.toNat) →
      exec (.readReply l codes data) s = fails)
    ∧ (∀ b d codes, t.cmd = .write b d → codes.length = d.length → (∃ c ∈ codes, c ≠ 0 ∧ c ≠ 3) →
      exec (.writeReply l codes) s = fails)
    ∧ ∀ b n code, t.cmd = .fill b n → code ≠ 0 → code ≠ 3 → exec (.fillReply l code) s = fails)
  ∧ (crc [] = 0xFFFF ∧ ∀ (bs : List Byte) (b : Byte), crc (bs ++ [b]) =
      (List.range 8).foldl (fun (c : BitVec 16) _ => if c.msb = true then (c <<< 1) ^^^ 0x1021 else c <<< 1)
        (crc bs ^^^ (b.setWidth 16 <<< 8)))
  ∧ (∀ (type : Byte) (payload : List Byte),
    let body := type :: (leBytes 4 payload.length ++ payload)
    messageBytes type payload = body ++ leBytes 2 (crc body).toNat)
  ∧ (∀ (b n : Nat) (d : List Block),
    Sent.bytes .resend = messageBytes 0x5F [] ∧ Sent.bytes (.command .ident) = messageBytes 0x51 []
    ∧ Sent.bytes (.command (.read b n)) = messageBytes 0x52 (leBytes 4 b ++ leBytes 4 n)
    ∧ Sent.bytes (.command (.write b d)) = messageBytes 0x53 (leBytes 4 b ++ leBytes 4 d.length ++ d.flatMap fullBlock)
    ∧ Sent.bytes (.command (.fill b n)) = messageBytes 0x54 (leBytes 4 b ++ leBytes 4 n))
  ∧ (∀ (l : LaneId) (msg : List Byte), classify l none msg = .unsolicitedMessage l
    ∧ ∀ cmd, msg.length < 7 ∨ fieldAt msg 1 4 ≠ msg.length - 7
        ∨ fieldAt msg (msg.length - 2) 2 ≠ (crc (msg.take (msg.length - 2))).toNat →
      classify l (some cmd) msg = .badReply l)
  ∧ ∀ (l : LaneId) (cmd : Command) (type : Byte) (payload : List Byte), payload.length < 2 ^ 32 →
    let size := payload.length
    let reply := classify l (some cmd) (messageBytes type payload)
    let carried (n : Nat) : Nat := ((payload.take n).filter fun c => c = 0 ∨ c = 1).length
    let fits : Prop := match cmd with
      | .ident => type = 0xA1 ∧ size = 16
      | .read _ n => type = 0xA2 ∧ size = n + 4096 * carried n
      | .write _ d => type = 0xA3 ∧ size = d.length
      | .fill _ _ => type = 0xA4 ∧ size = 1
    (type = 0xAF → payload = [] → reply = .moduleResend l) ∧ (type = 0xAE → payload = [] → reply = .notReady l)
    ∧ (¬ fits → ¬ (type = 0xAF ∧ payload = []) → ¬ (type = 0xAE ∧ payload = []) → reply = .badReply l)
    ∧ (fits →
      (cmd = .ident → reply = .identReply l (BitVec.ofNat 64 (fieldAt payload 0 8)) (BitVec.ofNat 32 (fieldAt payload 8 4))
        (BitVec.ofNat 32 (fieldAt payload 12 4)))
      ∧ (∀ b n, cmd = .read b n → ∃ data, reply = .readReply l (payload.take n) data ∧ data.length = carried n
        ∧ ∀ i c, data[i]? = some c → c = ((payload.drop n).drop (4096 * i)).take 4096)
      ∧ (∀ b d, cmd = .write b d → reply = .writeReply l payload)
      ∧ ∀ b n, cmd = .fill b n → reply = .fillReply l (byteAt payload 0))

/-- The reply timer and the HOLD pulses (R19, R23, R26, R36, R44): an expiry counts a timeout and asserts HOLD, the end of
that pulse is a link failure; the end of a departure's or a cut's pulse deasserts HOLD, and an operation that the departure cut
ends LANE_LOST then (here a read of a patrol chunk with other reads outstanding, R144; that it ends then also where a line test
keeps HOLD asserted is log 50). A message with no transaction
outstanding changes nothing; that an expiry or the end of a pulse that is not under way changes nothing is the model's (logs 2,
3). -/
def Obligations.TimeoutsAndHoldPulses : Prop :=
  ∀ (l : LaneId) (s : State), s.part.atRest →
    let p := s.part
    let L := p.lane l
    exec (.unsolicitedMessage l) s = .next s
    ∧ (∀ t, L.txn = some t → t.phase = .awaiting → exec (.replyTimeout l) s = .next (s.withPart (p.setLane l { L with
        txn := some { t with phase := .timeoutHold }, pulse := some .timeout
        counters := { L.counters with timeouts := satInc L.counters.timeouts } })))
    ∧ (∀ t, L.txn = some t → L.pulse = some .timeout →
      exec (.timeoutHoldEnd l) s = (s.withPart (p.setLane l { L with pulse := none })).act (linkFailure l)
        ∧ (p.serviceable l = true → 2 ≤ L.budget →
          exec (.timeoutHoldEnd l) s = .next (s.withPart (p.setLane l { L with
            pulse := none, budget := L.budget - 1, txn := some ⟨t.cmd, 0, 0, 0, .awaiting⟩, lastSent := some (.command t.cmd)
            counters := { L.counters with transactions := satInc L.counters.transactions } }))))
    ∧ (L.txn = none → L.identification ≠ some .ident → L.service = none → L.queue = [] →
      (L.pulse = some .departure → exec (.departureHoldEnd l) s = .next (s.withPart (p.setLane l { L with pulse := none })))
      ∧ (L.pulse = some .cut → exec (.cutHoldEnd l) s = .next (s.withPart (p.setLane l { L with pulse := none }))))
    ∧ (L.txn = none → exec (.replyTimeout l) s = .next s)
    ∧ (L.pulse = none → exec (.timeoutHoldEnd l) s = .next s ∧ exec (.departureHoldEnd l) s = .next s
      ∧ exec (.cutHoldEnd l) s = .next s)
    ∧ ∀ (sv : Service) (c : PatrolChunk), L.txn = none → L.identification = none → L.pulse = some .departure →
      L.service = some sv → sv.ending = true → sv.op.producer = .patrol → L.queue = [] → L.waiters = [] →
      p.patrol.chunk = some c → 2 ≤ c.outstanding →
      exec (.departureHoldEnd l) s = .next (s.withPart { p.setLane l { L with pulse := none, service := none } with
        patrol := { p.patrol with chunk := some { c with outstanding := c.outstanding - 1 } } })

/-- The end of a line test (R34, R35): the first test whose sensed level differs gives the result, the PROBE finishes OK with
it (its second detail, which no rule gives, is 0: log 40), and the lane returns to its remembered state; a lane whose PRESENT fell during the test becomes EMPTY. -/
def Obligations.LineTestEndsTheProbe : Prop :=
  ∀ (l : LaneId) (x : LineLevels) (s : State) (t : LineTest) (y : Entry), s.part.atRest →
    let p := s.part
    let L := p.lane l
    let result : Word :=
      if x.clockLow then 2 else if !x.clockHigh then 1 else if x.dataLow then 4 else if !x.dataHigh then 3 else 0
    let q := p.finished t.entry y .ok (BitVec.ofNat 4 (2 ^ l.val)) result 0
    L.lineTest = some t → L.runtime = .probing → t.remembered.idle = true → p.entry t.entry = some y → p.Kept →
    p.holdsNothing (.request t.entry) → p.derived → p.patrolIdle →
    (L.fell = false →
      exec (.lineTestEnd l x) s = .next (s.withPart (q.setLane l { L with lineTest := none, runtime := t.remembered })))
    ∧ (L.fell = true → L.present = false → L.workless → p.engine.state ≠ .attaching →
      exec (.lineTestEnd l x) s = .next (s.withPart (passEvent (laneStateEvent l .probing .empty .presenceLost 0)
        (q.setLane l { L with
          lineTest := none, fell := false, runtime := .empty, identified := false, serial := 0, capacity := 0, largest := 0
          identification := none, txn := none, streak := 0 }))))

/-- A departure by its cause (R43 to R46, R104, R127): the lane's states, its own work cleared, the departure holds, the derived
volume states, the lost targets, the discrepancy entries removed, the commit request, and the events in order. A request for a
lane that is not serviceable is a no-op. In FAULTED a presence loss changes the lane and sets commit-requested, and what R2, R46,
R121 and R191 keep there stays (log 29). The operations that the departure ends at once, all but one cut by the HOLD pulse, are
handed to their producers LANE_LOST in the order in service, queue, place waiters (R31, R44; the order: log 45); in the step's
result they are reads of a patrol chunk with others outstanding (R144), or there is none. The end of a record write that asked
for the departure is noted faulted (log 15). A departure of the target aborts the rebuild (R163): one REBUILD event, before or
after the LANE_STATE event as a free value says (log 14), and the unit is IDLE at once with no chunk, or when the last operation
of the chunk has ended, its lock and buffers then released, or its wait withdrawn, after which the head of the buffer wait list
is tested too (log 52); that the cursor then stays where it stood is log 27. A VERIFY or a patrol chunk that waits for its
buffers notes the lane as departed (R83). -/
def Obligations.DeparturesByTheirCause : Prop :=
  (∀ (l : LaneId) (c : DepartureCause) (s : State), s.part.atRest →
    let p := s.part
    let L := p.lane l
    let states : RuntimeState × RecordedState × LaneCause :=
      match c with
      | .presenceLost => (.empty, .departed, .presenceLost)
      | .strikes => (.failed, .failed, .strikes)
      | .sparesExhausted => (.failed, .failed, .sparesExhausted)
      | .record => (.failed, .failed, .record)
      | .retire => (.offline, .offline, .retire)
    let ended : List LaneOp :=
      (match L.service with
        | some sv => if c ≠ .presenceLost ∧ (L.txn ≠ none ∨ sv.ending = true) then [] else [sv.op]
        | none => []) ++ L.queue ++ L.waiters
    let u := p.rebuild
    let aborts : Bool := u.state = .running && u.target = some l && !u.aborting
    let aborted : Event := rebuildEvent (some l) (some u.cursorVol) (departureLaneCause c).code u.cursorBlock u.copied
      (u.skip.setWidth 32) 0
    (p.serviceable l = false → exec (.departure l c) s = .next s)
    ∧ (p.serviceable l = true → p.committing → exec (.departure l c) s = s.act (depart l c 0)
      ∧ ∃ rest, (depart l c 0 p).agenda = (ended.map fun op => Task.opEnded l op .laneLost) ++ rest)
    ∧ (c = .presenceLost → p.engine.state = .faulted → p.serviceable l = true → ended = [] → aborts = false →
      exec (.departure l .presenceLost) s = .next (s.withPart { p.setLane l { L with
          runtime := .empty, recorded := .departed, service := none, queue := [], waiters := [], streak := 0, txn := none
          identified := false, serial := 0, capacity := 0, largest := 0, identification := none } with
        committer := { p.committer with requested := true } }))
    ∧ ∀ (k : Commit) (m : LaneId), p.serviceable l = true → p.committing → p.committer.inFlight = some k → m ≠ l →
      k.targets.has m = true → k.ends[m.val] = .pending → p.Kept →
      ended = [] ∨ (∃ ch, p.patrol.chunk = some ch ∧ ended.length < ch.outstanding ∧ ch.outstanding ≤ 4
        ∧ ∀ op ∈ ended, op.producer = .patrol) →
      p.repair.work = none → p.repair.waiter = [] → p.patrolIdle ∨ p.patrol.chunk ≠ none →
      aborts = false ∨ u.chunk = none → p.fillEntries = [] →
      ∃ t : State, exec (.departure l c) s = .next t ∧ t.port = s.port ∧ t.pending = s.pending
        ∧ t.part.lane l =
          (if c = .presenceLost then
            { L with
              runtime := .empty, recorded := .departed, service := none, queue := [], waiters := [], streak := 0
              txn := none, identified := false, serial := 0, capacity := 0, largest := 0, identification := none }
          else
            { L with
              runtime := states.1, recorded := states.2.1
              service := L.service.bind fun sv =>
                if L.txn ≠ none ∨ sv.ending = true then some { sv with ending := true } else none
              queue := [], waiters := [], streak := 0, txn := none
              pulse := if L.txn.isSome then some (L.pulse.getD .departure) else L.pulse })
        ∧ (∀ j, j ≠ l → t.part.lane j = p.lane j)
        ∧ (∀ v, t.part.vol v =
          if (p.vol v).inUse && (p.vol v).members.has l then
            { p.vol v with
              hold := .waiting
              state := if (p.vol v).state = .filling then .filling else t.part.derivedState v }
          else p.vol v)
        ∧ (∀ e, t.part.entry e = (p.entry e).map fun x => (x.loseTarget l).departVerify l)
        ∧ t.part.committer = { p.committer with
            requested := true
            inFlight := some { k with
              ends := if k.ends[l.val] = .faultAsked then k.ends.set l.val .faulted else k.ends } }
        ∧ t.part.repair.list = p.repair.list.filter (fun x => x.lane ≠ l) ∧ t.part.repair.dropped = p.repair.dropped
        ∧ t.part.free = (if aborts then p.free + 1 else p.free)
        ∧ t.part.journal = ((if aborts && Config.rebuildEventFirst p.free then [aborted] else []) ++
            laneStateEvent l L.runtime states.1 states.2.2 0 ::
            (allVols.filter fun v =>
              p.ready v && (p.vol v).members.has l && decide (t.part.derivedState v ≠ (p.vol v).state)).map
            (fun v => volumeStateEvent v (p.vol v).state (t.part.derivedState v) (some l) 0) ++
            (if aborts && !Config.rebuildEventFirst p.free then [aborted] else [])).foldl Journal.take p.journal
        ∧ t.part.locks = p.locks ∧ t.part.pool = p.pool ∧ t.part.docket = p.docket ∧ t.part.engine = p.engine
        ∧ t.part.patrol = { p.patrol with
            chunk := p.patrol.chunk.map fun ch => { ch with
              outstanding := ch.outstanding - ended.length
              gone := if ch.phase = .buffers then ch.gone.add l else ch.gone } }
        ∧ t.part.rebuild = (if aborts then { u with
            state := .idle, target := none, volumes := [], skip := 0, chunk := none, passed := false, aborting := false }
          else u)
        ∧ t.part.interrupt = p.interrupt ∧ t.part.frozen = p.frozen)
  ∧ (∀ (l : LaneId) (c : DepartureCause) (tag : Word) (p : Part), p.rebuild.state = .running → p.rebuild.target = some l →
    p.rebuild.aborting = false →
    let abort (q : Part) : Part :=
      ({ passEvent (rebuildEvent (some l) (some q.rebuild.cursorVol) (departureLaneCause c).code q.rebuild.cursorBlock
          q.rebuild.copied (q.rebuild.skip.setWidth 32) (if c = .retire then tag else 0)) q with
        rebuild := { q.rebuild with aborting := true } } : Part).push [.rebuildLeave]
    let change (q : Part) : Part := changeRuntime l (departedRuntime c) (departureLaneCause c) tag q
    let drawn : Part := { p with free := p.free + 1 }
    departLane l c tag p = if Config.rebuildEventFirst p.free then change (abort drawn) else abort (change drawn))
  ∧ ∀ (p : Part) (k : RebuildChunk), p.rebuild.aborting = true → p.rebuild.chunk = some k →
    (k.outstanding ≠ 0 → rebuildLeave p = p)
    ∧ (k.outstanding = 0 → rebuildLeave p = releaseAll .rebuild { p with rebuild := { p.rebuild with
        state := .idle, target := none, volumes := [], skip := 0, chunk := none, passed := false, aborting := false
        paused := p.rebuild.paused || decide (p.engine.state = .halting) } })
    ∧ ∀ (m : LaneId) (op : LaneOp) (r : OpEnd), op.producer = .rebuild →
      ∃ blocks, operationEnded m op r p = rebuildLeave { p with rebuild := { p.rebuild with
        chunk := some { k with outstanding := k.outstanding - 1, blocks := blocks } } }

/-! ## Writes, remaps and fills on a lane -/

/-- A WRITE reply of an operation (R29, R112, R113): with every block GOOD the next transaction begins; otherwise the first
faulted data block's trial begins on spare-next, a WRITE of its data to the spare's lane block. With every block GOOD and no
transaction to come the operation ends, and its end goes to its producer (R80; the order of the step: log 32). With every spare
used up the lane departs with cause SPARES_EXHAUSTED (R116), in this step (log 16). -/
def Obligations.WriteReplyGoesOnOrStartsATrial : Prop :=
  ∀ (l : LaneId) (s : State) (codes : List Byte) (ss : List Status) (block : Nat) (sent : List Block) (sv : Service)
    (x : Piece), s.part.atRest →
    let p := s.part
    let L := p.lane l
    let results := sv.results ++ ss.map fun _ => Status.good
    let counted := satAdd L.counters.writeFaults (countStatus .writeFault ss)
    L.awaited = some (.write block sent) → codes.length = sent.length → writeStatuses codes = some ss →
    L.service = some sv → sv.trial = none → sv.cur = some x → sv.zeros = [] → sv.op.cls ≠ .record → sv.op.kind = .write →
    (∀ y rest, (∀ st ∈ ss, st = .good) → sv.todo = y :: rest →
      exec (.writeReply l codes) s = .next (s.withPart (p.setLane l { L with
        service := some { sv with results := results, faults := [], todo := rest, cur := some y }
        txn := some (.start (p.pieceCommand sv.op y)), lastSent := some (.command (p.pieceCommand sv.op y))
        counters := { L.counters with transactions := satInc L.counters.transactions } })))
    ∧ ((∀ st ∈ ss, st = .good) → sv.todo = [] →
      exec (.writeReply l codes) s = s.opEnds
        (p.setLane l { L with service := some { sv with results := results, faults := [], cur := none }, txn := none })
        l sv.op (.completed results sv.remapped))
    ∧ (∀ b d more, p.faultsOf sv.op x.pos ss = (b, d) :: more → 256 ≤ L.spareNext → p.engine.state ≠ .faulted →
      exec (.writeReply l codes) s = exec (.departure l .sparesExhausted) (s.withPart (p.setLane l { L with
        service := some { sv with results := results, cur := none, faults := (b, d) :: more }, txn := none
        counters := { L.counters with writeFaults := counted } })))
    ∧ ∀ b d more, p.faultsOf sv.op x.pos ss = (b, d) :: more → L.spareNext < 256 →
      let command : Command := .write (L.capacity.toNat - 256 + L.spareNext) [d]
      exec (.writeReply l codes) s = .next (s.withPart (p.setLane l { L with
        service := some { sv with
          results := results, cur := none, faults := (b, d) :: more, trial := some ⟨b, d, L.spareNext, false⟩ }
        txn := some (.start command), lastSent := some (.command command)
        counters := { L.counters with
          transactions := satInc L.counters.transactions, writeFaults := counted } }))

/-- A trial's write that ended GOOD is read back; a readback that is GOOD and equal settles the spare as good (R113, R114): the
entry joins the remap table at the end of its order, in place of an older entry whose spare is then dead, spare-next advances,
a commit is requested, SPARES_LOW is passed when the advance asks for it (R119), and the operation's next transaction begins; with
none to come the operation ends, reported remapped (R80; the order of the step: log 32). -/
def Obligations.TrialsThatSucceedAreInserted : Prop :=
  ∀ (l : LaneId) (s : State) (block : Nat) (sv : Service) (tr : Trial), s.part.atRest →
    let p := s.part
    let L := p.lane l
    L.service = some sv → sv.trial = some tr →
    (∀ d, L.awaited = some (.write block [d]) →
      let command : Command := .read (L.capacity.toNat - 256 + tr.spare) 1
      exec (.writeReply l [0]) s = .next (s.withPart (p.setLane l { L with
        service := some { sv with trial := some { tr with reading := true } }
        txn := some (.start command), lastSent := some (.command command)
        counters := { L.counters with transactions := satInc L.counters.transactions } })))
    ∧ ∀ data, L.awaited = some (.read block 1) → L.identification = none → sameBlock data tr.data = true →
      p.committing → sv.faults = [(tr.block, tr.data)] → sv.zeros = [] →
      let dead := if L.remap.any (fun x => x.1 = tr.block) then L.deadSpares + 1 else L.deadSpares
      let low : Bool := 224 ≤ L.spareNext + 1
      let q := if low && !L.sparesLow then
          passEvent (sparesLowEvent l tr.block (L.spareNext + 1) dead (p.remapTag sv.op)) p else p
      let D : Lane := { L with
        spareNext := L.spareNext + 1, deadSpares := dead, sparesLow := L.sparesLow || low, readback := data
        remap := L.remap.filter (fun x => x.1 ≠ tr.block) ++ [(tr.block, tr.spare)] }
      let after : Service := { sv with trial := none, faults := [], remapped := true }
      (∀ y rest, sv.todo = y :: rest →
        exec (.readReply l [0] [data]) s = .next (s.withPart { q.setLane l { D with
            service := some { after with todo := rest, cur := some y }
            txn := some (.start (p.pieceCommand sv.op y)), lastSent := some (.command (p.pieceCommand sv.op y))
            counters := { L.counters with transactions := satInc L.counters.transactions } } with
          committer := { p.committer with requested := true } }))
      ∧ (sv.todo = [] →
        exec (.readReply l [0] [data]) s = s.opEnds { q.setLane l { D with service := some after, txn := none } with
          committer := { p.committer with requested := true } } l sv.op (.completed sv.results true))

/-- A trial that fails (R113, R115, R116, R119): a write of status WRITE_FAULT, a readback UNREADABLE or CORRECTED, a readback GOOD of
other content. Spare-next and the dead-spare count rise by 1, a commit is requested, SPARES_LOW is passed when the advance asks
for it, the remap table stays, and the next trial begins at once with the same data; with spare-next at 256 the lane departs
with cause SPARES_EXHAUSTED, in this step (log 16). Here a commit is in flight, so that the request is noted. -/
def Obligations.TrialsThatFailTryTheNextSpare : Prop :=
  ∀ (l : LaneId) (s : State) (block : Nat) (sent data : Block) (sv : Service) (tr : Trial) (c : Instr) (K : Lane),
    s.part.atRest →
    let p := s.part
    let L := p.lane l
    let failure : Prop :=
      (L.awaited = some (.write block [sent]) ∧ c = .writeReply l [3]
        ∧ K = { L with counters := { L.counters with writeFaults := satInc L.counters.writeFaults } })
      ∨ (L.awaited = some (.read block 1) ∧ c = .readReply l [2] []
        ∧ K = { L with counters := { L.counters with unreadable := satInc L.counters.unreadable } })
      ∨ (L.awaited = some (.read block 1) ∧ c = .readReply l [1] [data]
        ∧ K = { L with readback := data, counters := { L.counters with corrected := satInc L.counters.corrected } })
      ∨ (L.awaited = some (.read block 1) ∧ c = .readReply l [0] [data] ∧ sameBlock data tr.data = false
        ∧ K = { L with readback := data })
    let low : Bool := 224 ≤ L.spareNext + 1
    let event := sparesLowEvent l tr.block (L.spareNext + 1) (L.deadSpares + 1) (p.remapTag sv.op)
    let q : Part := { (if low && !L.sparesLow then passEvent event p else p) with
      committer := { p.committer with requested := true } }
    let D : Lane := { K with
      spareNext := L.spareNext + 1, deadSpares := L.deadSpares + 1, sparesLow := L.sparesLow || low }
    let command : Command := .write (L.capacity.toNat - 256 + (L.spareNext + 1)) [tr.data]
    L.service = some sv → sv.trial = some tr → L.identification = none → p.committing → failure →
    (L.spareNext + 1 < 256 → exec c s = .next (s.withPart (q.setLane l { D with
      service := some { sv with trial := some ⟨tr.block, tr.data, L.spareNext + 1, false⟩, cur := none }
      txn := some (.start command), lastSent := some (.command command)
      counters := { K.counters with transactions := satInc K.counters.transactions } })))
    ∧ (256 ≤ L.spareNext + 1 → exec c s = exec (.departure l .sparesExhausted)
      (s.withPart (q.setLane l { D with service := some { sv with trial := none }, txn := none })))

/-- A FILL reply (R30): GOOD ends the transaction with every block of the run written, and the next begins; WRITE_FAULT is
counted once and the run is written again by WRITEs of up to 16 zero blocks, one after the other. Those WRITEs cover the run in
ascending order. After the last transaction the operation ends, and its end goes to its producer (R80; the order of the
step: log 32). -/
def Obligations.FillRepliesAndTheirZeroWrites : Prop :=
  (∀ (l : LaneId) (s : State) (block n : Nat) (sv : Service) (x : Piece), s.part.atRest →
    let p := s.part
    let L := p.lane l
    let results := sv.results ++ List.replicate x.count Status.good
    L.awaited = some (.fill block n) → L.service = some sv → sv.cur = some x → sv.faults = [] → sv.op.bufs = [] →
    (∀ y rest, sv.todo = y :: rest → y.kind = .fill →
      exec (.fillReply l 0) s = .next (s.withPart (p.setLane l { L with
        service := some { sv with results := results, zeros := [], todo := rest, cur := some y }
        txn := some (.start (.fill y.block y.count)), lastSent := some (.command (.fill y.block y.count))
        counters := { L.counters with transactions := satInc L.counters.transactions } })))
    ∧ (sv.todo = [] → exec (.fillReply l 0) s = s.opEnds
        (p.setLane l { L with service := some { sv with results := results, zeros := [], cur := none }, txn := none })
        l sv.op (.completed results sv.remapped))
    ∧ (1 ≤ x.count →
      let command : Command := .write x.block (List.replicate (min x.count 16) zeroBlock)
      exec (.fillReply l 3) s = .next (s.withPart (p.setLane l { L with
        service := some { sv with
          results := results
          cur := some ⟨.write, x.block, min x.count 16, x.pos⟩
          zeros := (zeroPieces (x.count / 16 + 1) x.block x.count x.pos).tail }
        txn := some (.start command), lastSent := some (.command command)
        counters := { L.counters with
          transactions := satInc L.counters.transactions, writeFaults := satInc L.counters.writeFaults } }))))
  ∧ (∀ (l : LaneId) (s : State) (block : Nat) (sent : List Block) (sv : Service) (x : Piece) (codes : List Byte),
    s.part.atRest →
    let p := s.part
    let L := p.lane l
    L.awaited = some (.write block sent) → L.service = some sv → sv.op.kind = .fill → sv.op.cls ≠ .record →
    sv.op.bufs = [] → sv.trial = none → sv.cur = some x → codes = List.replicate sent.length 0 →
    (∀ z zs, sv.zeros = z :: zs → z.kind = .write →
      let command : Command := .write z.block (List.replicate z.count zeroBlock)
      exec (.writeReply l codes) s = .next (s.withPart (p.setLane l { L with
        service := some { sv with zeros := zs, cur := some z, faults := [] }
        txn := some (.start command), lastSent := some (.command command)
        counters := { L.counters with transactions := satInc L.counters.transactions } })))
    ∧ (sv.zeros = [] → sv.todo = [] → exec (.writeReply l codes) s = s.opEnds
        (p.setLane l { L with service := some { sv with faults := [], cur := none }, txn := none })
        l sv.op (.completed sv.results sv.remapped)))
  ∧ ∀ block count pos : Nat,
    let pieces := zeroPieces (count / 16 + 1) block count pos
    pieces.flatMap (fun z => List.range' z.block z.count) = List.range' block count
      ∧ pieces.flatMap (fun z => List.range' z.pos z.count) = List.range' pos count
      ∧ ∀ z ∈ pieces, z.kind = .write ∧ 1 ≤ z.count ∧ z.count ≤ 16

/-- A target's record write ends while another target's is pending (R60, R61): written, the record slot in use becomes the slot
written, or B after a fresh double write, which clears the fresh mark; slot A of a fresh lane ended written is followed by the
write of slot B; faulted, a departure with cause RECORD is asked for, which a later DEPARTURE command carries out (log 15), and
the slot in use stays. -/
def Obligations.RecordWritesEndInTheirSlot : Prop :=
  ∀ (l m : LaneId) (s : State) (slot : RecordSlot) (block : Nat) (sent : Block) (sv : Service) (x : Piece) (k : Commit),
    s.part.atRest →
    let p := s.part
    let L := p.lane l
    L.awaited = some (.write block [sent]) → L.service = some sv → sv.op = recordOp l slot → sv.trial = none →
    sv.cur = some x → sv.todo = [] → sv.zeros = [] → sv.faults = [] → sv.results = [] → L.queue = [] → L.waiters = [] →
    p.committer.inFlight = some k → m ≠ l → k.targets.has m = true → k.ends[m.val] = .pending →
    (p.committer.fresh[l.val] = false ∨ slot = .b →
      exec (.writeReply l [0]) s = .next (s.withPart { p.setLane l { L with service := none, txn := none } with
        committer := { p.committer with
          inFlight := some { k with ends := k.ends.set l.val .written }
          slotInUse := p.committer.slotInUse.set l.val (some slot)
          fresh := p.committer.fresh.set l.val false } }))
    ∧ (p.committer.fresh[l.val] = true → slot = .a → p.serviceable l = true → L.hold = false →
      let command : Command := .write 1 [p.refData (.record l)]
      exec (.writeReply l [0]) s = .next (s.withPart (p.setLane l { L with
        service := some ⟨recordOp l .b, [], some ⟨.write, 1, 1, 0⟩, [], [], none, [], false, false⟩
        txn := some (.start command), lastSent := some (.command command)
        counters := { L.counters with transactions := satInc L.counters.transactions } })))
    ∧ exec (.writeReply l [3]) s = .next (s.withPart { p.setLane l { L with
          service := none, txn := none
          counters := { L.counters with writeFaults := satInc L.counters.writeFaults } } with
        committer := { p.committer with inFlight := some { k with ends := k.ends.set l.val .faultAsked } } })

/-! ## Requests: the end of the TAKEN write and the checks -/

/-- The generic checks (R177): a request of no known kind ends REFUSED_KIND; one with a field set that its kind does not use
ends REFUSED_FORMAT; each with an empty lane mask and both details 0, the sweep going on (R172). That the docket begins its next
transfer before the refused request joins the completion list (log 22), and the row of an unknown action or code (log 21), are
the model's. The second clause says the table of the used fields. -/
def Obligations.GenericChecksRefuseRequests : Prop :=
  (∀ (e : EntryId) (x : Entry) (s : State), s.part.agenda = [] → s.part.takes e x → s.part.Kept →
    s.part.holdsNothing (.request e) →
    let refused (o : ReqOutcome) : Host.Outcome State Fault Refusal :=
      .next (s.withPart ((s.part.taken e x).finished e x o 0 0 0))
    (x.req.kind ∉ knownKinds → exec (.refusedKind .done) s = refused .refusedKind)
    ∧ (x.req.kind ∈ knownKinds → unusedField x.req = true → exec (takenRow x.req .done) s = refused .refusedFormat))
  ∧ ∀ r : Request, r.kind ∈ knownKinds →
    (unusedField r = false ↔
      r.reservedZero = true
      ∧ (r.flags = 0 ∨ (r.kind = kindVerify ∧ r.flags = 1) ∨ (r.kind = kindLane ∧ r.flags = 2))
      ∧ (r.kind ∈ [kindRead, kindWrite, kindVerify, kindDefine, kindDelete, kindLane] ∨ r.target = 0)
      ∧ (r.kind ∈ [kindRead, kindWrite, kindVerify] ∨ (r.first = 0 ∧ r.count = 0))
      ∧ (r.kind ∈ [kindRead, kindVerify, kindDefine, kindLane, kindControl] ∨ r.selector = 0)
      ∧ (r.kind ∈ [kindDefine, kindLane] ∨ r.parameter = 0)
      ∧ (r.kind ∈ [kindRead, kindWrite, kindDefine, kindPlan, kindSnapshot] ∨ r.address = 0)
      ∧ (r.kind = kindDefine ∨ (r.defFirst = 0 ∧ r.defLength = 0 ∧ r.defMembers = 0)))

/-- A fault on an exchange area transfer takes the engine to FAULTED with the cause of the transfer (R191): every transaction,
request, lock, grant, queue and waiter is cut, a commit in flight leaves commit-requested set (R67), the docket (R169), the repair
(R134), patrol (R136) and journal (R181) work goes, a running rebuild is HELD (R164), a line test is cut and its lane returns to
the state it had, also where PRESENT fell meanwhile (R35; log 25), the states that R191 names are kept, lost write due with them
(log 47), and one message is raised. -/
def Obligations.FaultedTransfersEnterFaulted : Prop :=
  ∀ (c : Instr) (cause : FaultCause) (s : State), (∀ l, (s.part.lane l).held = false) →
    let p := s.part
    let faults : Prop :=
      (∃ e x, p.takes e x ∧ c = takenRow x.req .fault ∧ cause = .slot)
      ∨ (∃ own, p.docket.xfer = some (.consumedRead own) ∧ c = .consumedCountRead none ∧ cause = .consumed)
      ∨ (∃ n own, p.docket.xfer = some (.slotRead n own) ∧ c = .slotRead none ∧ cause = .slot)
      ∨ (∃ e, p.docket.xfer = some (.outcomeWrite e) ∧ c = .outcomeWrite .fault ∧ cause = .slot)
      ∨ (∃ e, p.docket.xfer = some (.doneWrite e) ∧ c = .doneWrite .fault ∧ cause = .slot)
      ∨ (∃ e, p.docket.xfer = some (.tallyWrite e) ∧ c = .doneTallyWrite .fault ∧ cause = .header)
      ∨ (p.journal.xfer = some .entryWrite ∧ c = .entryWrite .fault ∧ cause = .journal)
      ∨ (p.journal.xfer = some .writtenWrite ∧ c = .writtenCountWrite .fault ∧ cause = .header)
      ∨ (∃ n, p.journal.xfer = some (.lostWrite n) ∧ c = .lostCountWrite .fault ∧ cause = .header)
      ∨ (p.journal.xfer = some .reread ∧ c = .reread none ∧ cause = .consumed)
      ∨ (p.engine.attach ∈ [.tallyWrite, .writtenWrite, .lostWrite] ∧ c = .attachHeaderWrite .fault ∧ cause = .header)
    faults →
    ∃ t : State, exec c s = .next t ∧ t.port = s.port ∧ t.pending = s.pending
      ∧ t.part.engine = { p.engine with state := .faulted, faultCause := cause, attach := .idle, mark := .none }
      ∧ t.part.interrupt = p.interrupt.raise ∧ (∀ e, t.part.entry e = none)
      ∧ t.part.docket = { p.docket with sweep := none, pollRunning := false, completions := [], xfer := none }
      ∧ t.part.locks = ⟨[], []⟩ ∧ t.part.pool.waiting = [] ∧ (∀ b ∈ t.part.pool.holders.toList, b = none)
      ∧ (∀ l, t.part.lane l = { p.lane l with
          runtime := match (p.lane l).lineTest with
            | some x => x.remembered
            | none => (p.lane l).runtime
          lineTest := none, identification := none, service := none, queue := [], waiters := [], streak := 0, txn := none
          pulse := if (p.lane l).txn.isSome then some ((p.lane l).pulse.getD .cut) else (p.lane l).pulse
          fell := false, absent := false })
      ∧ t.part.volumes = p.volumes ∧ t.part.frozen = p.frozen
      ∧ t.part.committer = { p.committer with
          requested := p.committer.requested || p.committer.inFlight.isSome, inFlight := none, buffers := .replicate 4 none }
      ∧ t.part.repair = { p.repair with
          work := none, waiter := [], list := p.repair.list.map fun x => { x with inRepair := false } }
      ∧ t.part.patrol = { p.patrol with chunk := none, stops := [] }
      ∧ (p.rebuild.aborting = false →
        t.part.rebuild = { p.rebuild with
          state := if p.rebuild.state = .running then .held else p.rebuild.state, chunk := none })
      ∧ t.part.journal = { p.journal with backlog := [], writeList := [], rereadDue := false, xfer := none }

/-- The checks of READ, WRITE and VERIFY in order (R92, R93): the first that fails gives the outcome, with an empty lane mask
and both details 0. That the docket begins its next transfer before the checks is the model's choice (log 22). -/
def Obligations.DataRequestsAreCheckedInOrder : Prop :=
  ∀ (e : EntryId) (x : Entry) (s : State) (o : ReqOutcome), s.part.agenda = [] → s.part.takes e x → s.part.Kept →
    s.part.holdsNothing (.request e) → genericRefusal x.req = none →
    x.req.kind = kindRead ∨ x.req.kind = kindWrite ∨ x.req.kind = kindVerify →
    let p := s.part
    let r := x.req
    let vol := p.vol r.volume
    let malformed : Bool :=
      r.count = 0 || 16 < r.count.toNat || (r.kind ≠ kindVerify && decide (r.address.toNat % 64 ≠ 0))
        || (r.kind = kindRead && decide (r.selector ∉ [0, 1, 2, 3, 0x0F]))
        || (r.kind = kindVerify && (16 ≤ r.selector.toNat
          || allLanes.any fun l => r.selector.getLsbD l.val && !vol.members.has l))
    let check : Option ReqOutcome :=
      if 8 ≤ r.target.toNat || !vol.inUse || vol.state = .filling then some .refusedVolume
      else if malformed then some .refusedFormat
      else if vol.length < r.first.toNat + r.count.toNat then some .refusedRange
      else if vol.state = .lost then some .lost
      else if r.kind = kindRead && r.selector.toNat ≤ 3
          && !(allLanes.any fun l => l.val = r.selector.toNat && vol.members.has l && p.online l) then some .refusedLane
      else none
    check = some o → exec (takenRow r .done) s = .next (s.withPart ((p.taken e x).finished e x o 0 0 0))

/-- A data request that passes its checks asks for its lock (R85, R86, R96, R102, R106): SHARED for READ and VERIFY, EXCLUSIVE
for WRITE, over its range. With a conflict it waits behind every waiter. Granted, a READ or WRITE asks for one buffer a block,
a VERIFY for one a block and ONLINE compare lane; with too few buffers free, or behind another waiter, it waits. The buffers a
grant gives are the lowest-numbered free ones (log 10); a VERIFY with no ONLINE compare lane is in
ReadsAndVerifiesIssueTheirOperations. -/
def Obligations.DataRequestsWaitForLockAndBuffers : Prop :=
  ∀ (e : EntryId) (x : Entry) (s : State), s.part.agenda = [] → s.part.takes e x → genericRefusal x.req = none →
    let p := s.part
    let r := x.req
    let lock (exclusive : Bool) : Lock := ⟨.request e, r.volume, r.first.toNat, r.count.toNat, exclusive⟩
    let free (k : Lock) : Bool := k.clearOf p.locks.granted && k.clearOf p.locks.waiting
    let waits (k : Lock) : Host.Outcome State Fault Refusal :=
      .next (s.withPart { p.taken e { x with state := .waitLock } with locks := ⟨p.locks.granted, p.locks.waiting ++ [k]⟩ })
    let locked (k : Lock) (y : Entry) (n : Nat) : Host.Outcome State Fault Refusal :=
      .next (s.withPart { p.taken e y with
        locks := ⟨p.locks.granted ++ [k], p.locks.waiting⟩
        pool := { p.pool with waiting := p.pool.waiting ++ [(.request e, n)] } })
    let full (n : Nat) : Prop := p.pool.waiting ≠ [] ∨ p.pool.freeCount < n
    dataRefusal r p = none → p.pool.headWaits →
    (r.kind = kindRead → namedRefusal r p = none →
      (free (lock false) = false → exec (.read .done) s = waits (lock false))
      ∧ (free (lock false) = true → full r.count.toNat →
        exec (.read .done) s = locked (lock false) { x with state := .waitBuffers } r.count.toNat))
    ∧ (r.kind = kindWrite →
      (free (lock true) = false → exec (.write .done) s = waits (lock true))
      ∧ (free (lock true) = true → full r.count.toNat →
        exec (.write .done) s = locked (lock true) { x with state := .waitBuffers } r.count.toNat)
      ∧ (free (lock true) = true → p.pool.waiting = [] → r.count.toNat ≤ p.pool.freeCount →
        exec (.write .done) s = .next (s.withPart { p.taken e { x with state := .fetching } with
          locks := ⟨p.locks.granted ++ [lock true], p.locks.waiting⟩
          pool := p.pool.give (.request e) r.count.toNat })))
    ∧ (r.kind = kindVerify →
      let lanes := (compareSet r.selector (p.vol r.volume).members).lanes.filter (p.onlineMember r.volume)
      (free (lock false) = false → exec (.verify .done) s = waits (lock false))
      ∧ (free (lock false) = true → lanes ≠ [] → full (r.count.toNat * lanes.length) →
        exec (.verify .done) s =
          locked (lock false) { x with state := .waitBuffers, work := .verify ⟨lanes, [], 0, 0⟩ } (r.count.toNat * lanes.length)))

/-- A READ by policy that is granted its lock and its buffers enters AT_LANES and issues one FOREGROUND READ of its range to its
first lane (R9, R10, R96): the acting reference on a FIXED volume, the rotation pointer's lane or the next ONLINE member on a
SPREAD one, whose pointer moves on in the same step. A READ that names its lane issues it to that lane, and no pointer moves
(R101). A VERIFY issues one to each ONLINE lane of its compare set, the j-th into the j-th run of its buffers; with no ONLINE
lane in it, it releases its lock and finishes REFUSED_LANE (R106), the docket beginning its next transfer first (log 22). The
lanes here are serving other operations and have places; the buffers granted are the lowest-numbered free ones (log 10). When a
round of a READ by policy has ended with blocks unresolved, the next ONLINE member that is untried gets one READ for each maximal
run of them, into the same buffers (R97); the lane of an operation that completed is noted, also where another of its operations
ended LANE_LOST (log 53). A VERIFY whose buffers are granted later issues nothing to a lane that has departed since its lanes
were fixed, be it ONLINE again or not, and each other lane keeps its own run of the buffers (R83); on a LOST volume it finishes
LOST (R94). The circular order is l+1, l+2, l+3, l, wrapping from 3 to 0; the next lane tried is the first of the three lanes
after the last one tried that is an ONLINE member and untried (R9, R10). -/
def Obligations.ReadsAndVerifiesIssueTheirOperations : Prop :=
  (∀ (e : EntryId) (x : Entry) (l : LaneId) (pointer : LaneId) (s : State), s.part.agenda = [] → s.part.takes e x →
    genericRefusal x.req = none → x.req.kind = kindRead → x.req.selector = 0x0F → dataRefusal x.req s.part = none →
    let p := s.part
    let L := p.lane l
    let r := x.req
    let vol := p.vol r.volume
    let n := r.count.toNat
    let k : Lock := ⟨.request e, r.volume, r.first.toNat, n, false⟩
    let pool := p.pool.give (.request e) n
    (vol.policy = .fixed → p.actingReference r.volume = some l ∧ pointer = vol.rotation) →
    (vol.policy = .spread → p.spreadFirst r.volume = some l
      ∧ pointer = (nextLane l (p.onlineMember r.volume)).getD l) →
    k.clearOf p.locks.granted = true → k.clearOf p.locks.waiting = true → p.pool.waiting = [] → n ≤ p.pool.freeCount →
    L.service ≠ none → L.places < 16 →
    exec (.read .done) s = .next (s.withPart { (p.setLane l { L with
        queue := L.queue ++ [⟨.foreground, .read, vol.first + r.first.toNat, n,
          ((pool.bufsOf (.request e)).map BufRef.staging).take n, .request e, false⟩] }).setVol r.volume
          { vol with rotation := pointer } with
      table := p.table.set e.val (some { x with
        state := .atLanes, work := .read ⟨false, l, [l], List.replicate n ⟨none, false, []⟩, 1, 0⟩ })
      docket := p.docket.afterTaken p.running
      locks := ⟨p.locks.granted ++ [k], p.locks.waiting⟩
      pool := pool }))
  ∧ (∀ (e : EntryId) (x : Entry) (s : State), s.part.agenda = [] → s.part.takes e x → genericRefusal x.req = none →
    x.req.kind = kindVerify → dataRefusal x.req s.part = none →
    let p := s.part
    let r := x.req
    let vol := p.vol r.volume
    let n := r.count.toNat
    let k : Lock := ⟨.request e, r.volume, r.first.toNat, n, false⟩
    let lanes := (compareSet r.selector vol.members).lanes.filter (p.onlineMember r.volume)
    let pool := p.pool.give (.request e) (n * lanes.length)
    k.clearOf p.locks.granted = true → k.clearOf p.locks.waiting = true → p.pool.waiting = [] →
    n * lanes.length ≤ p.pool.freeCount → lanes ≠ [] → (∀ l ∈ lanes, (p.lane l).service ≠ none ∧ (p.lane l).places < 16) →
    ∃ t : State, exec (.verify .done) s = .next t
      ∧ t.part.table = p.table.set e.val (some { x with state := .atLanes, work := .verify ⟨lanes, [], lanes.length, 0⟩ })
      ∧ (∀ (j : Fin 4) (l : LaneId), lanes[j.val]? = some l → t.part.lane l = { p.lane l with
          queue := (p.lane l).queue ++ [⟨.foreground, .read, vol.first + r.first.toNat, n,
            (((pool.bufsOf (.request e)).drop (j.val * n)).take n).map .staging, .request e, false⟩] })
      ∧ (∀ l, l ∉ lanes → t.part.lane l = p.lane l) ∧ t.part.locks = ⟨p.locks.granted ++ [k], p.locks.waiting⟩
      ∧ t.part.pool = pool ∧ t.part.docket = p.docket.afterTaken p.running ∧ t.part.volumes = p.volumes
      ∧ t.part.engine = p.engine ∧ t.part.committer = p.committer ∧ t.part.journal = p.journal)
  ∧ (∀ (e : EntryId) (x : Entry) (l : LaneId) (s : State), s.part.agenda = [] → s.part.takes e x →
    genericRefusal x.req = none → x.req.kind = kindRead → x.req.selector.toNat = l.val → dataRefusal x.req s.part = none →
    let p := s.part
    let L := p.lane l
    let r := x.req
    let vol := p.vol r.volume
    let n := r.count.toNat
    let k : Lock := ⟨.request e, r.volume, r.first.toNat, n, false⟩
    let pool := p.pool.give (.request e) n
    p.onlineMember r.volume l = true → k.clearOf p.locks.granted = true → k.clearOf p.locks.waiting = true →
    p.pool.waiting = [] → n ≤ p.pool.freeCount → L.service ≠ none → L.places < 16 →
    exec (.read .done) s = .next (s.withPart { p.setLane l { L with
        queue := L.queue ++ [⟨.foreground, .read, vol.first + r.first.toNat, n,
          ((pool.bufsOf (.request e)).map BufRef.staging).take n, .request e, false⟩] } with
      table := p.table.set e.val (some { x with
        state := .atLanes, work := .read ⟨true, l, [l], List.replicate n ⟨none, false, []⟩, 1, 0⟩ })
      docket := p.docket.afterTaken p.running
      locks := ⟨p.locks.granted ++ [k], p.locks.waiting⟩
      pool := pool }))
  ∧ (∀ (e : EntryId) (x : Entry) (s : State), s.part.agenda = [] → s.part.takes e x → s.part.Kept →
    s.part.holdsNothing (.request e) → genericRefusal x.req = none → x.req.kind = kindVerify →
    dataRefusal x.req s.part = none →
    let p := s.part
    let r := x.req
    let k : Lock := ⟨.request e, r.volume, r.first.toNat, r.count.toNat, false⟩
    k.clearOf p.locks.granted = true → k.clearOf p.locks.waiting = true →
    (compareSet r.selector (p.vol r.volume).members).lanes.filter (p.onlineMember r.volume) = [] →
    exec (.verify .done) s = .next (s.withPart ((p.taken e x).finished e x .refusedLane 0 0 0)))
  ∧ (∀ (e : EntryId) (x : Entry) (w : VerifyWork) (p : Part), p.entry e = some x → x.state = .waitBuffers →
    x.work = .verify w →
    (∀ l, (requestsDepart l p).entry e = some { x with work := .verify { w with gone := w.gone.add l } })
    ∧ (x.req.kind = kindVerify → w.got = [] →
      let r := x.req
      let n := r.count.toNat
      let start := (p.vol r.volume).first + r.first.toNat
      let bufs := p.pool.bufsOf (.request e)
      let read := w.lanes.zipIdx.filter fun y => !w.gone.has y.1 && p.online y.1
      let entered (u : VerifyWork) : Part :=
        { p with table := p.table.set e.val (some { x with state := .atLanes, work := .verify u }) }
      (p.isLost r.volume = true → requestBuffered e p = refuse e .lost (entered w))
      ∧ (p.isLost r.volume = false → read = [] →
        requestBuffered e p = refuse e .refusedLane (entered { w with outstanding := 0 }))
      ∧ (p.isLost r.volume = false → read ≠ [] → requestBuffered e p = read.foldl
        (fun q y => enqueue y.1
          ⟨.foreground, .read, start, n, ((bufs.drop (y.2 * n)).take n).map .staging, .request e, false⟩ q)
        (entered { w with outstanding := read.length }))))
  ∧ (∀ (e : EntryId) (x : Entry) (w : ReadWork) (l next : LaneId) (op : LaneOp) (r : OpEnd) (p : Part),
    op.producer = .request e → p.entry e = some x → x.work = .read w → w.named = false → w.outstanding ≤ 1 →
    let v := x.req.volume
    let start := (p.vol v).first + x.req.first.toNat
    let blocks := match r with
      | .completed ss _ => mergeTries l (op.start - start) ss w.blocks
      | .laneLost => w.blocks
    let completed := match r with
      | .completed _ _ => w.completed.add l
      | .laneLost => w.completed
    let rounds := runs BlockTry.unresolved 0 blocks
    let bufs := (p.pool.bufsOf (.request e)).map BufRef.staging
    (∃ b ∈ blocks, b.source = none) → p.nextTry v w.tried = some next →
    operationEnded l op r p = rounds.foldl
      (fun q y => enqueue next
        ⟨.foreground, .read, start + y.1, y.2, (bufs.drop y.1).take y.2, .request e, false⟩ q)
      { p with table := p.table.set e.val (some { x with work := .read { w with
        blocks := blocks, completed := completed, tried := w.tried ++ [next], outstanding := rounds.length } }) })
  ∧ (∀ (l : LaneId) (at_ i : Nat) (ss : List Status) (bs : List BlockTry) (b : BlockTry), bs[i]? = some b →
    (i < at_ ∨ at_ + ss.length ≤ i → (mergeTries l at_ ss bs)[i]? = some b)
    ∧ ∀ st, at_ ≤ i → ss[i - at_]? = some st → (mergeTries l at_ ss bs)[i]? = some
      (if st = .good then { b with source := some l, weak := false }
       else if st = .corrected then { b with source := some l, weak := true }
       else { b with failed := b.failed ++ [l] }))
  ∧ (∀ (want : BlockTry → Bool) (bs : List BlockTry),
    let rs := runs want 0 bs
    rs.flatMap (fun y => List.range' y.1 y.2) = (List.range bs.length).filter (fun i => (bs[i]?).any want)
      ∧ (∀ y ∈ rs, 1 ≤ y.2) ∧ rs.Pairwise fun y z => y.1 + y.2 < z.1)
  ∧ (∀ (l : LaneId) (ok : LaneId → Bool), nextLane l ok = [l + 1, l + 2, l + 3, l].find? ok)
  ∧ ∀ (p : Part) (v : VolId),
    let member (l : LaneId) : Bool := (p.vol v).members.has l && decide ((p.lane l).runtime = .online)
    let pointer := (p.vol v).rotation
    (member pointer = true → p.spreadFirst v = some pointer)
    ∧ (member pointer = false → p.spreadFirst v = [pointer + 1, pointer + 2, pointer + 3].find? member)
    ∧ ∀ (before : List LaneId) (last : LaneId), p.nextTry v (before ++ [last]) =
      [last + 1, last + 2, last + 3].find? fun m => member m && !before.contains m

/-- DEFINE VOLUME received (R11): REFUSED_FROZEN, REFUSED_FORMAT, or the entry stays in RECEIVED while its label is fetched
(log 18). FREEZE sets the flag and finishes OK in the step (R18), with an empty mask and zero details (log 40). The docket begins
its next transfer first (log 22). -/
def Obligations.DefineIsReceivedAndFreezeFinishes : Prop :=
  ∀ (e : EntryId) (x : Entry) (s : State), s.part.agenda = [] → s.part.takes e x → s.part.Kept →
    s.part.holdsNothing (.request e) → genericRefusal x.req = none →
    let p := s.part
    let r := x.req
    let refused (o : ReqOutcome) : Host.Outcome State Fault Refusal := .next (s.withPart ((p.taken e x).finished e x o 0 0 0))
    let wellFormed : Prop :=
      r.target.toNat < 8 ∧ r.defMembers.toNat ≤ 15 ∧ 2 ≤ (allLanes.filter fun l => r.defMembers.getLsbD l.val).length
      ∧ (∃ l : LaneId, (r.parameter &&& 0x0F).toNat = l.val ∧ r.defMembers.getLsbD l.val = true)
      ∧ ((r.parameter >>> 4) = 0 ∨ (r.parameter >>> 4) = 1) ∧ (r.selector = 0 ∨ r.selector = 1) ∧ r.defLength ≠ 0
      ∧ r.address.toNat % 64 = 0
    (r.kind = kindDefine →
      (p.frozen = true → exec (.defineVolume .done) s = refused .refusedFrozen)
      ∧ (p.frozen = false → ¬ wellFormed → exec (.defineVolume .done) s = refused .refusedFormat)
      ∧ (p.frozen = false → wellFormed →
        exec (.defineVolume .done) s = .next (s.withPart (p.taken e { x with state := .received }))))
    ∧ (r.kind = kindFreeze →
      exec (.freeze .done) s = .next (s.withPart { (p.taken e x).finished e x .ok 0 0 0 with frozen := true }))

/-- DELETE VOLUME (R17): the freeze, volume and busy checks, the cases of busy being those of R17; then in one step the volume's discrepancy entries go (R127), its
spans leave the plan, its entry is cleared and the request waits for a commit (R63), with an empty mask and zero details (log
40). The docket begins its next transfer first (log 22). With entries removed patrol makes its test again (R143): here it has a
chunk in flight, or stands neither RUNNING nor WAITING. -/
def Obligations.DeleteClearsTheVolume : Prop :=
  ∀ (e : EntryId) (x : Entry) (s : State), s.part.agenda = [] → s.part.takes e x → s.part.Kept →
    s.part.holdsNothing (.request e) → genericRefusal x.req = none → x.req.kind = kindDelete →
    let p := s.part
    let v := x.req.volume
    let busy : Prop :=
      (∃ z ∈ p.entries, z.1 ≠ e ∧ z.2.req.kind ∈ [kindRead, kindWrite, kindVerify, kindDefine, kindDelete]
        ∧ z.2.req.target.toNat = v.val)
      ∨ (p.vol v).state = .filling
      ∨ (p.patrol.state ≠ .idle ∧ p.patrol.state ≠ .done ∧ ∃ sp ∈ (p.patrol.plan.map (·.spans)).getD [], sp.volume = v)
      ∨ p.patrol.marker = true
      ∨ (p.rebuild.state ≠ .idle ∧ p.rebuild.target.any (p.vol v).members.has = true)
      ∨ p.repair.work.any (fun w => w.volume = v) = true
    let kept (plan : Plan) : List Span := plan.spans.filter fun sp => sp.volume ≠ v
    let refused (o : ReqOutcome) : Host.Outcome State Fault Refusal := .next (s.withPart ((p.taken e x).finished e x o 0 0 0))
    (p.frozen = true → exec (.deleteVolume .done) s = refused .refusedFrozen)
    ∧ (p.frozen = false → 8 ≤ x.req.target.toNat ∨ (p.vol v).inUse = false →
      exec (.deleteVolume .done) s = refused .refusedVolume)
    ∧ (p.frozen = false → x.req.target.toNat < 8 → (p.vol v).inUse = true → busy →
      exec (.deleteVolume .done) s = refused .refusedBusy)
    ∧ (p.frozen = false → x.req.target.toNat < 8 → (p.vol v).inUse = true → ¬ busy → p.committing →
      let deleted : Part := { p.taken e (x.await .ok 0 0 0) with
        volumes := p.volumes.set v.val .clear
        patrol := { p.patrol with
          plan := p.patrol.plan.bind fun plan => if kept plan = [] then none else some { plan with spans := kept plan } }
        committer := { p.committer with requested := true } }
      ((∀ y ∈ p.repair.list, y.volume ≠ v) → exec (.deleteVolume .done) s = .next (s.withPart deleted))
      ∧ ((∃ y ∈ p.repair.list, y.volume = v) → p.repair.waiter = [] → p.repair.list.length ≤ 32 →
        p.patrol.chunk ≠ none ∨ (p.patrol.state ≠ .running ∧ p.patrol.state ≠ .waiting) →
        exec (.deleteVolume .done) s = .next (s.withPart { deleted with repair := { p.repair with
          list := p.repair.list.filter fun y => y.volume ≠ v
          episode := false } })))

/-- A DEFINE's label fetch ends, the request standing in RECEIVED (log 18) (R11 to R13): a fault is BUS_FAULT; checks 4 to 8 in
order, each refusal with an empty mask and zero details (log 40); TRUST takes the entry, ACTIVE since every member is ONLINE, and
waits for a commit, with nothing written to the members. ZERO takes the entry FILLING and issues each member its first piece, of
up to 65536 blocks, or waits on the volume's departure hold (R14). The fill, with its request at the lanes, goes on piece by piece; a
departure loses a member that has not ended its last piece; and the fill ends when every member has ended its last piece or departed:
with a member ONLINE the volume takes its derived state and the request waits for a commit, and with none the entry is cleared and the
outcome is FAILED_MEDIA. A piece of a departed member that has not ended by then delays the finish only (R15). -/
def Obligations.DefineTakesTheVolumeEntry : Prop :=
  (∀ (e : EntryId) (x : Entry) (s : State) (label : List Byte), s.part.agenda = [] → s.part.entry e = some x →
    x.req.kind = kindDefine → x.state = .received → s.part.Kept → s.part.holdsNothing (.request e) →
    let p := s.part
    let r := x.req
    let v := r.volume
    let f := r.defFirst.toNat
    let n := r.defLength.toNat
    let clash (w : VolId) : Bool := (p.vol w).inUse && decide ((p.vol w).members &&& r.members ≠ 0)
      && f < (p.vol w).first + (p.vol w).length && (p.vol w).first < f + n
    let check : Option ReqOutcome :=
      if (p.vol v).inUse then some .refusedVolume
      else if p.rebuild.state ≠ .idle then some .refusedBusy
      else if r.members.lanes.any fun l => !p.online l then some .refusedLane
      else if f < 2 || (r.members.lanes.any fun l => (p.lane l).capacity.toNat - 256 < f + n) then some .refusedRange
      else if allVols.any clash then some .refusedRange
      else none
    exec (.defineLabelFetched e none) s = .next (s.withPart (p.finished e x .busFault 0 0 0))
    ∧ (∀ o, check = some o → exec (.defineLabelFetched e (some label)) s = .next (s.withPart (p.finished e x o 0 0 0)))
    ∧ (check = none → r.selector = 0 → r.members.lanes ≠ [] → p.committing → label.length = 16 →
      exec (.defineLabelFetched e (some label)) s = .next (s.withPart { p with
        volumes := p.volumes.set v.val
          ⟨true, .active, r.members, r.reference.getD 0, r.policy.getD .fixed, f, n, label, r.reference.getD 0, (p.vol v).hold⟩
        table := p.table.set e.val (some (x.await .ok r.members 0 0))
        committer := { p.committer with requested := true } }))
    ∧ (check = none → r.selector = 1 → r.members.lanes ≠ [] → 1 ≤ n → label.length = 16 →
      let filling : Volume :=
        ⟨true, .filling, r.members, r.reference.getD 0, r.policy.getD .fixed, f, n, label, r.reference.getD 0, (p.vol v).hold⟩
      let work (issued waits : Bool) : Work :=
        .fill ((n + 65535) / 65536) (r.members.lanes.map fun l => ⟨l, 0, issued, false, waits⟩)
      ((p.vol v).hold ≠ .none → exec (.defineLabelFetched e (some label)) s = .next (s.withPart { p with
        volumes := p.volumes.set v.val filling
        table := p.table.set e.val (some { x with state := .atLanes, work := work false true }) }))
      ∧ ((p.vol v).hold = .none → (∀ l ∈ r.members.lanes, (p.lane l).service ≠ none ∧ (p.lane l).places < 16) →
        ∃ t : State, exec (.defineLabelFetched e (some label)) s = .next t
          ∧ t.part.table = p.table.set e.val (some { x with state := .atLanes, work := work true false })
          ∧ t.part.volumes = p.volumes.set v.val filling
          ∧ (∀ l, t.part.lane l = if l ∈ r.members.lanes then { p.lane l with
              queue := (p.lane l).queue ++ [⟨.foreground, .fill, f, min 65536 n, [], .request e, false⟩] } else p.lane l)
          ∧ t.part.committer = p.committer ∧ t.part.locks = p.locks ∧ t.part.pool = p.pool ∧ t.part.docket = p.docket
          ∧ t.part.journal = p.journal ∧ t.part.engine = p.engine)))
  ∧ (∀ (e : EntryId) (x : Entry) (p : Part) (pieces : Nat) (fs : List FillLane) (l : LaneId) (op : LaneOp) (res : OpEnd)
      (g : FillLane), p.entry e = some x → x.state = .atLanes → x.work = .fill pieces fs → op.producer = .request e →
    g ∈ fs → g.lane = l → (fs.map (·.lane)).Nodup → g.outstanding = true → g.waitsHold = false →
    let v := x.req.volume
    let f := x.req.defFirst.toNat
    let n := x.req.defLength.toNat
    let ended (h : FillLane) : List FillLane := fs.map fun y => if y.lane = l then h else y
    let after (h : FillLane) (q : Part) : Part :=
      ({ q with table := p.table.set e.val (some { x with work := .fill pieces (ended h) }) }).push [.fillTest e]
    (res = .laneLost → operationEnded l op res p = after { g with outstanding := false, lost := true } p)
    ∧ ∀ ss remapped, g.lost = false → res = .completed ss remapped →
      (pieces ≤ g.next + 1 → operationEnded l op res p = after { g with outstanding := false, next := g.next + 1 } p)
      ∧ (g.next + 1 < pieces → p.serviceable l = false → operationEnded l op res p =
        after { g with outstanding := false, next := g.next + 1, lost := true } p)
      ∧ (g.next + 1 < pieces → p.serviceable l = true → (p.vol v).hold ≠ .none → operationEnded l op res p =
        after { g with outstanding := false, next := g.next + 1, waitsHold := true } p)
      ∧ (g.next + 1 < pieces → p.serviceable l = true → (p.vol v).hold = .none → operationEnded l op res p =
        after { g with next := g.next + 1 } (enqueue l ⟨.foreground, .fill, f + 65536 * (g.next + 1),
          min 65536 (n - 65536 * (g.next + 1)), [], .request e, false⟩ p)))
  ∧ (∀ (e : EntryId) (x : Entry) (p : Part) (pieces : Nat) (fs : List FillLane) (l : LaneId), p.entry e = some x →
    x.state = .atLanes → x.work = .fill pieces fs →
    let filled (g : FillLane) : Bool := !g.lost && decide (pieces ≤ g.next) && !g.outstanding
    (requestsDepart l p).entry e = some { x with work := .fill pieces (fs.map fun g =>
        if g.lane = l && !filled g then { g with waitsHold := false, lost := true } else g) }
      ∧ .fillTest e ∈ (requestsDepart l p).agenda)
  ∧ (∀ (e : EntryId) (x : Entry) (p : Part) (pieces : Nat) (fs : List FillLane), p.entry e = some x → x.state = .atLanes →
    x.work = .fill pieces fs →
    let r := x.req
    let v := r.volume
    let filled (g : FillLane) : Bool := !g.lost && decide (pieces ≤ g.next) && !g.outstanding
    let left := (fs.filter fun g => g.outstanding).length
    let rest : Work := if left = 0 then .none else .fillLeft left
    let freed : Part := { p with volumes := p.volumes.set v.val .clear }
    ((∃ g ∈ fs, g.lost = false ∧ filled g = false) → fillTest e p = p)
    ∧ ((∀ g ∈ fs, g.lost = true ∨ filled g = true) →
      (p.onlineMembers v = [] →
        (left = 0 → fillTest e p = complete e .failedMedia 0 0 0
          { freed with table := p.table.set e.val (some { x with work := .none }) })
        ∧ (left ≠ 0 → fillTest e p =
          { freed with table := p.table.set e.val (some { x with work := rest, outcome := .failedMedia }) }))
      ∧ (p.onlineMembers v ≠ [] → p.committing → p.engine.state = .running →
        fillTest e p = { passEvent (volumeStateEvent v .filling (p.derivedState v) (some (p.vol v).reference) r.tag) p with
          volumes := p.volumes.set v.val { p.vol v with state := p.derivedState v }
          table := p.table.set e.val (some { x with
            state := .waitCommit, work := rest, mark := .waiting, outcome := .ok
            laneMask := LaneMask.ofList ((fs.filter filled).map (·.lane)), detailA := 0, detailB := 0 })
          committer := { p.committer with requested := true } })))
  ∧ ∀ (e : EntryId) (x : Entry) (p : Part), p.entry e = some x →
    let finished (q : Part) : Part := complete e x.outcome x.laneMask x.detailA x.detailB q
    (∀ n l op res, x.work = .fillLeft n → op.producer = .request e →
      (2 ≤ n → operationEnded l op res p = { p with table := p.table.set e.val (some { x with work := .fillLeft (n - 1) }) })
      ∧ (n ≤ 1 →
        let idle : Part := { p with table := p.table.set e.val (some { x with work := .none }) }
        (x.mark = .none → operationEnded l op res p = finished idle)
        ∧ (x.mark ≠ .none → operationEnded l op res p = idle)))
    ∧ (x.state = .waitCommit → x.mark = .none →
      (x.work = .none → waiterDone e p = finished p) ∧ (x.work ≠ .none → waiterDone e p = p))

/-- LANE ADMIT (R50 to R52, R60, R65): the checks in order; then the lane's own state is set afresh, its fresh mark is set, the
set serial of an empty set is chosen, and the lane is ONLINE, or REBUILDING with a rebuild started when an in-use volume names it
(R154 to R156); the request waits for a commit with the lane in its mask. The serial's value and the counter of the draws are the
model's (log 12), as is the docket beginning its next transfer first (log 22). The rebuild then goes on chunk by chunk: the ends
of its reads and writes, the next source, the wait on the departure hold, the end of a chunk with its counts and the cursor's
advance, and the completion, which makes the lane ONLINE (R157 to R162). A LOST volume is skipped: one REBUILD event with the
blocks left uncopied, its number joins the skip list, the cursor moves on and the test is made again (R155). That the cursor
stays where it stood once the last volume has been passed is log 27, that a volume LOST during a chunk is skipped with
SOURCE_LOST also at block 0 is log 36, and that the details, which no rule gives, are 0 is log 40. -/
def Obligations.AdmitBringsALaneIntoService : Prop :=
  (∀ (e : EntryId) (x : Entry) (l : LaneId) (s : State), s.part.agenda = [] → s.part.takes e x → s.part.Kept →
    s.part.holdsNothing (.request e) → genericRefusal x.req = none → x.req.kind = kindLane → x.req.selector = 1 →
    let p := s.part
    let L := p.lane l
    let r := x.req
    let vs := p.volumesOf l
    let refused (o : ReqOutcome) : Host.Outcome State Fault Refusal := .next (s.withPart ((p.taken e x).finished e x o 0 0 0))
    let formatted : Prop := r.target.toNat < 4 ∧ r.parameter.toNat ≤ 15 ∧ r.flags &&& 2 = 0
    let check : Option ReqOutcome :=
      if !L.runtime.idle || !L.identified then some .refusedLane
      else if p.rebuild.state ≠ .idle || vs.any (fun v => (p.vol v).state = .filling) then some .refusedBusy
      else if vs.any (fun v => L.capacity.toNat < (p.vol v).first + (p.vol v).length + 256) then some .refusedCapacity
      else none
    let admitted (runtime : RuntimeState) (recorded : RecordedState) : Lane := { L with
      runtime := runtime, recorded := recorded, boundSerial := L.serial
      budget := if r.parameter = 0 then 8 else r.parameter.toNat
      remap := [], spareNext := 0, deadSpares := 0, sparesLow := false, counters := ⟨0, 0, 0, 0, 0, 0, 0⟩ }
    let after (runtime : RuntimeState) (recorded : RecordedState) : Part :=
      { passEvent (laneStateEvent l L.runtime runtime .admitLane r.tag) (p.setLane l (admitted runtime recorded)) with
        table := p.table.set e.val (some (x.await .ok (BitVec.ofNat 4 (2 ^ l.val)) 0 0))
        docket := p.docket.afterTaken p.running
        committer := { p.committer with
          requested := true, fresh := p.committer.fresh.set l.val true
          serial := if p.committer.serial = 0 then chooseSerial p else p.committer.serial }
        free := if p.committer.serial = 0 then p.free + 1 else p.free }
    (¬ formatted → exec (.admitLane .done) s = refused .refusedFormat)
    ∧ (formatted → r.target.toNat = l.val →
      (∀ o, check = some o → exec (.admitLane .done) s = refused o)
      ∧ (check = none → p.committing → p.patrolIdle →
        (vs = [] → exec (.admitLane .done) s = .next (s.withPart (after .online .online)))
        ∧ ∀ v rest, vs = v :: rest → p.derived → p.engine.state = .running → p.rebuild.paused = false →
          (p.vol v).state ≠ .lost →
          let k : Lock := ⟨.rebuild, v, 0, min 16 (p.vol v).length, true⟩
          (k.clearOf p.locks.granted && k.clearOf p.locks.waiting) = false →
          exec (.admitLane .done) s = .next (s.withPart { after .rebuilding .rebuilding with
            locks := ⟨p.locks.granted, p.locks.waiting ++ [k]⟩
            rebuild := ⟨.running, some l, vs, v, 0, false, 0, 0, 0, some ⟨v, 0, min 16 (p.vol v).length, .lock, [], [], [], 0⟩,
              false, false⟩ }))))
  ∧ (∀ (l : LaneId) (op : LaneOp) (r : OpEnd) (k : RebuildChunk) (p : Part), op.producer = .rebuild →
    p.rebuild.chunk = some k → p.rebuild.aborting = false →
    let blocks := match r with
      | .completed ss _ =>
        if k.phase = .source then mergeTries l (op.start - ((p.vol k.volume).first + k.first)) ss k.blocks else k.blocks
      | .laneLost => k.blocks
    let j : RebuildChunk := { k with outstanding := k.outstanding - 1, blocks := blocks }
    let q (j : RebuildChunk) : Part := { p with rebuild := { p.rebuild with chunk := some j } }
    let source := k.order.find? fun m => p.online m && !k.tried.contains m
    (2 ≤ k.outstanding → operationEnded l op r p = q j)
    ∧ (k.outstanding ≤ 1 → k.phase = .write → operationEnded l op r p = rebuildChunkEnd j (q j))
    ∧ (k.outstanding ≤ 1 → k.phase = .source →
      (∀ m, (∃ b ∈ blocks, b.source = none) → source = some m →
        operationEnded l op r p = rebuildIssue m .read BlockTry.unresolved { j with tried := k.tried ++ [m] } (q j))
      ∧ ((∀ b ∈ blocks, b.source ≠ none) ∨ source = none →
        (p.isLost k.volume = true →
          operationEnded l op r p = rebuildGoOn (rebuildSkip rebuildSourceLost (rebuildDrop (q j))))
        ∧ (p.isLost k.volume = false → (∀ b ∈ blocks, b.source = none) → operationEnded l op r p = rebuildChunkEnd j (q j))
        ∧ (p.isLost k.volume = false → (∃ b ∈ blocks, b.source ≠ none) →
          operationEnded l op r p = rebuildHold (q { j with phase := .hold })))))
  ∧ (∀ (k : RebuildChunk) (l : LaneId) (p : Part), p.rebuild.chunk = some k → p.rebuild.target = some l →
    ((p.vol k.volume).hold ≠ .none → rebuildHold p = p)
    ∧ ((p.vol k.volume).hold = .none → p.serviceable l = true →
      rebuildHold p = rebuildIssue l .write (fun b => b.source.isSome) { k with phase := .write } p)
    ∧ ∀ (kind : OpKind) (want : BlockTry → Bool) (m : LaneId),
      let rounds := runs want 0 k.blocks
      let bufs := (p.pool.bufsOf .rebuild).map BufRef.staging
      rebuildIssue m kind want k p = rounds.foldl
        (fun q y => enqueue m ⟨.background, kind, (p.vol k.volume).first + k.first + y.1, y.2, (bufs.drop y.1).take y.2,
          .rebuild, false⟩ q)
        { p with rebuild := { p.rebuild with chunk := some { k with outstanding := rounds.length } } })
  ∧ (∀ (k : RebuildChunk) (p : Part), p.rebuild.chunk = some k →
    let t := rebuildChunkEnd k p
    let lost := unresolvedAt k.first k.blocks
    let ended := p.rebuild.cursorBlock + k.count
    let counted : Rebuild := { p.rebuild with
      chunk := none, cursorBlock := ended
      copied := satAdd p.rebuild.copied (k.count - lost.length)
      unrecoverable := satAdd p.rebuild.unrecoverable lost.length
      paused := p.rebuild.paused || decide (p.engine.state = .halting) }
    t.locks = (releaseAll .rebuild p).locks ∧ t.pool = (releaseAll .rebuild p).pool
    ∧ (ended < (p.vol k.volume).length → t.rebuild = counted)
    ∧ ((p.vol k.volume).length ≤ ended →
      (∀ v, p.rebuild.volumes.find? (fun v => p.rebuild.cursorVol < v) = some v →
        t.rebuild = { counted with cursorVol := v, cursorBlock := 0 })
      ∧ (p.rebuild.volumes.find? (fun v => p.rebuild.cursorVol < v) = none → t.rebuild = { counted with passed := true }))
    ∧ (tryDiscoveries k.volume .rebuild 0 k.first k.blocks = [] →
      t.journal = (passEvents (lost.map fun i => unrecoverableEvent p.rebuild.target k.volume i .rebuild 0) p).journal
        ∧ t.repair = p.repair))
  ∧ (∀ (l : LaneId) (p : Part), p.rebuild.target = some l → p.rebuild.state = .running → p.rebuild.aborting = false →
    p.rebuild.chunk = none → p.rebuild.passed = true →
    let u := p.rebuild
    let done := passEvent (rebuildEvent (some l) none rebuildDoneCode 0 (u.skip.setWidth 32) u.unrecoverable 0) p
    rebuildBegin p = requestCommit ((changeRuntime l .online .rebuildDone 0
      (done.setLane l { p.lane l with recorded := .online })).modRebuild fun u => { u with
        state := .idle, target := none, volumes := [], skip := 0, chunk := none, passed := false, aborting := false }))
  ∧ ∀ (cause : Byte) (p : Part),
    let u := p.rebuild
    let v := u.cursorVol
    let told : Part := passEvent ⟨.rebuild, u.target, some v, cause, 0, 0, BitVec.ofNat 32 u.cursorBlock,
      BitVec.ofNat 32 ((p.vol v).length - u.cursorBlock), 0, 0⟩ p
    let skipped : Rebuild := { u with skip := u.skip ||| BitVec.ofNat 8 (2 ^ v.val) }
    (∀ w, u.volumes.find? (fun w => v < w) = some w →
      rebuildSkip cause p = { told with rebuild := { skipped with cursorVol := w, cursorBlock := 0 } })
    ∧ (u.volumes.find? (fun w => v < w) = none → rebuildSkip cause p = { told with rebuild := { skipped with passed := true } })
    ∧ rebuildNoSource = 0x10 ∧ rebuildSourceLost = 0x11
    ∧ (u.target ≠ none → u.state = .running → u.aborting = false → u.chunk = none → u.passed = false → u.paused = false →
      (p.vol v).state = .lost →
      rebuildBegin p =
        (rebuildSkip (if u.cursorBlock = 0 then rebuildNoSource else rebuildSourceLost) p).push [.rebuildBegin])
    ∧ ∀ k, u.chunk = some k → u.aborting = false → k.phase = .buffers → p.onlineMembers k.volume = [] →
      (p.vol k.volume).reference ∈ (p.vol k.volume).members.lanes →
      rebuildBuffered p =
        rebuildGoOn (rebuildSkip (if u.cursorBlock = 0 then rebuildNoSource else rebuildSourceLost) (rebuildDrop p))

/-- A set serial chosen by the part is not 0 and is none that the assembly read (R65); which one it is, the spec leaves to the
part's number source (log 12). -/
def Obligations.ChosenSerialsAreNewAndNotZero : Prop :=
  ∀ p : Part, p.committer.seen.length < 2 ^ 32 → chooseSerial p ≠ 0 ∧ chooseSerial p ∉ p.committer.seen

/-- LANE RETIRE (R50, R53): a STALE or FAILED lane becomes OFFLINE and is recorded so; a serviceable lane departs with cause
RETIRE and the request's tag, unless it is the last copy of a volume and FORCE is not set. LANE PROBE (R34, R50, R54): an idle
lane becomes PROBING with its state remembered, the request at the lanes. The docket begins its next transfer before the checks
(log 22); masks and details that no rule gives are empty and 0 (log 40). -/
def Obligations.RetireAndProbeActOnTheirLane : Prop :=
  ∀ (e : EntryId) (x : Entry) (l : LaneId) (s : State), s.part.agenda = [] → s.part.takes e x → s.part.Kept →
    s.part.holdsNothing (.request e) → genericRefusal x.req = none → x.req.kind = kindLane →
    let p := s.part
    let L := p.lane l
    let r := x.req
    let refused (o : ReqOutcome) : Host.Outcome State Fault Refusal := .next (s.withPart ((p.taken e x).finished e x o 0 0 0))
    let waiting := p.taken e (x.await .ok (BitVec.ofNat 4 (2 ^ l.val)) 0 0)
    let last : Prop := L.runtime = .online ∧ ∃ v, (p.vol v).inUse = true ∧ p.onlineMembers v = [l]
    (r.selector = 2 →
      (4 ≤ r.target.toNat ∨ r.parameter ≠ 0 → exec (.retire .done) s = refused .refusedFormat)
      ∧ (r.target.toNat = l.val → r.parameter = 0 →
        (p.serviceable l = false → L.runtime ≠ .stale → L.runtime ≠ .failed → exec (.retire .done) s = refused .refusedLane)
        ∧ (last → r.flags &&& 2 = 0 → exec (.retire .done) s = refused .refusedLastCopy)
        ∧ (p.serviceable l = true → ¬ last ∨ r.flags &&& 2 ≠ 0 →
          exec (.retire .done) s = (s.withPart waiting).act (depart l .retire r.tag))
        ∧ (L.runtime = .stale ∨ L.runtime = .failed → p.committing → p.derived → p.patrolIdle →
          exec (.retire .done) s =
            .next (s.withPart { passEvent (laneStateEvent l L.runtime .offline .retire r.tag)
              (waiting.setLane l { L with runtime := .offline, recorded := .offline }) with
              committer := { p.committer with requested := true } }))))
    ∧ (r.selector = 3 →
      (4 ≤ r.target.toNat ∨ r.parameter ≠ 0 ∨ r.flags &&& 2 ≠ 0 → exec (.probe .done) s = refused .refusedFormat)
      ∧ (r.target.toNat = l.val → r.parameter = 0 → r.flags &&& 2 = 0 →
        (L.runtime.idle = false → exec (.probe .done) s = refused .refusedLane)
        ∧ (L.runtime.idle = true → p.derived → p.patrolIdle →
          exec (.probe .done) s = .next (s.withPart ((p.taken e { x with state := .atLanes }).setLane l { L with
            runtime := .probing, lineTest := some ⟨L.runtime, e⟩, fell := false })))))

/-- PATROL PLAN and SNAPSHOT received (R138, R179): a buffer address that is not a multiple of 64 is REFUSED_FORMAT, PLAN is
refused while frozen; each asks for one buffer and waits for it, or has it: PLAN then fetches (log 18), and SNAPSHOT's buffer
holds the report, to be delivered with the ONLINE lanes in its mask. The buffer granted is the lowest free one (log 10), the
docket begins its next transfer first (log 22), and the mask and details of a refusal are empty and 0 (log 40). The report holds the
fields of R179 at the places of 13.3. -/
def Obligations.PlanAndSnapshotAskForOneBuffer : Prop :=
  (∀ (e : EntryId) (x : Entry) (s : State), s.part.agenda = [] → s.part.takes e x → s.part.Kept →
    s.part.holdsNothing (.request e) → genericRefusal x.req = none →
    let p := s.part
    let refused (o : ReqOutcome) : Host.Outcome State Fault Refusal := .next (s.withPart ((p.taken e x).finished e x o 0 0 0))
    let waits : Host.Outcome State Fault Refusal := .next (s.withPart { p.taken e { x with state := .waitBuffers } with
      pool := { p.pool with waiting := p.pool.waiting ++ [(.request e, 1)] } })
    let full : Prop := p.pool.waiting ≠ [] ∨ p.pool.freeCount = 0
    (x.req.kind = kindPlan →
      (p.frozen = true → exec (.patrolPlan .done) s = refused .refusedFrozen)
      ∧ (p.frozen = false → x.req.address.toNat % 64 ≠ 0 → exec (.patrolPlan .done) s = refused .refusedFormat)
      ∧ (p.frozen = false → x.req.address.toNat % 64 = 0 →
        (full → exec (.patrolPlan .done) s = waits)
        ∧ (¬ full → exec (.patrolPlan .done) s =
          .next (s.withPart { p.taken e { x with state := .fetching } with pool := p.pool.give (.request e) 1 }))))
    ∧ (x.req.kind = kindSnapshot →
      (x.req.address.toNat % 64 ≠ 0 → exec (.snapshot .done) s = refused .refusedFormat)
      ∧ (x.req.address.toNat % 64 = 0 →
        (full → exec (.snapshot .done) s = waits)
        ∧ ∀ b rest, p.pool.waiting = [] → p.pool.freeBufs = b :: rest →
          exec (.snapshot .done) s = .next (s.withPart ({ p.taken e { x with
              state := .delivering, laneMask := LaneMask.ofList (allLanes.filter p.online) } with
            pool := p.pool.give (.request e) 1 }.setBuffer b p.snapshotBytes)))))
  ∧ ∀ p : Part, (∀ v, (p.vol v).label.length = 16) →
    let at_ (i n : Nat) : Nat := fieldAt p.snapshotBytes i n
    (p.snapshotBytes.length = 744 ∧ at_ 0 1 = p.engine.state.code ∧ at_ 1 1 = p.frozen.toNat
      ∧ at_ 8 8 = p.committer.serial.toNat ∧ at_ 16 8 = p.committer.generation.toNat)
    ∧ (∀ l : LaneId,
      let L := p.lane l
      let o := 64 + 64 * l.val
      at_ o 1 = L.runtime.code.toNat ∧ at_ (o + 1) 1 = L.recorded.code.toNat ∧ at_ (o + 4) 8 = L.serial.toNat
      ∧ at_ (o + 12) 4 = L.capacity.toNat ∧ at_ (o + 16) 1 = L.budget % 2 ^ 8 ∧ at_ (o + 18) 2 = L.remap.length % 2 ^ 16
      ∧ at_ (o + 20) 2 = L.spareNext % 2 ^ 16 ∧ at_ (o + 22) 2 = L.deadSpares % 2 ^ 16
      ∧ at_ (o + 24) 4 = L.counters.transactions.toNat ∧ at_ (o + 28) 4 = L.counters.resends.toNat
      ∧ at_ (o + 32) 4 = L.counters.timeouts.toNat ∧ at_ (o + 36) 4 = L.counters.notReadyRetries.toNat
      ∧ at_ (o + 40) 4 = L.counters.corrected.toNat ∧ at_ (o + 44) 4 = L.counters.unreadable.toNat
      ∧ at_ (o + 48) 4 = L.counters.writeFaults.toNat)
    ∧ (∀ v : VolId,
      let x := p.vol v
      let o := 320 + 48 * v.val
      at_ o 1 = x.inUse.toNat ∧ at_ (o + 1) 1 = x.state.code.toNat ∧ at_ (o + 2) 1 = x.members.toNat
      ∧ at_ (o + 3) 1 = x.reference.val ∧ at_ (o + 4) 1 = x.policy.code.toNat ∧ at_ (o + 8) 4 = x.first % 2 ^ 32
      ∧ at_ (o + 12) 4 = x.length % 2 ^ 32 ∧ (p.snapshotBytes.drop (o + 16)).take 16 = x.label)
    ∧ at_ 704 1 = p.patrol.state.code.toNat ∧ at_ 705 1 = p.patrol.marker.toNat
    ∧ (p.patrol.marker = false → at_ 708 1 = p.patrol.span % 2 ^ 8)
    ∧ (∀ v rest, p.patrol.marker = true → p.patrol.recovery = v :: rest → at_ 708 1 = v.val)
    ∧ at_ 712 4 = p.patrol.offset % 2 ^ 32 ∧ at_ 716 4 = p.patrol.pass.toNat ∧ at_ 720 1 = p.rebuild.state.code.toNat
    ∧ (p.rebuild.target = none → at_ 721 1 = 0xFF) ∧ (∀ l, p.rebuild.target = some l → at_ 721 1 = l.val)
    ∧ at_ 722 1 = p.rebuild.cursorVol.val ∧ at_ 724 4 = p.rebuild.cursorBlock % 2 ^ 32
    ∧ at_ 728 4 = p.rebuild.copied.toNat ∧ at_ 732 4 = p.rebuild.unrecoverable.toNat
    ∧ at_ 736 4 = p.repair.list.length % 2 ^ 32 ∧ at_ 740 4 = p.repair.dropped.toNat

/-- PATROL CONTROL (R140 to R142): START begins a new pass in HOLDOFF with its counts at 0 and its checkpoint at the start; STOP
makes an active unit without a chunk IDLE, waits at the lanes for the chunk in flight, and changes nothing of an inactive unit;
both are refused while a recovery pass is due or running, START also while a plan is walked or there is none. With a holdoff of 0
plan work that runs goes from HOLDOFF to RUNNING in the step and tests for its first chunk (R141). An unknown code is answered by
both rows (log 21), the mask is empty and the details are 0 (log 40), and the docket begins its next transfer first (log 22). -/
def Obligations.PatrolControlStartsAndStops : Prop :=
  ∀ (e : EntryId) (x : Entry) (s : State), s.part.agenda = [] → s.part.takes e x → s.part.Kept →
    s.part.holdsNothing (.request e) → genericRefusal x.req = none → x.req.kind = kindControl →
    let p := s.part
    let q := p.patrol
    let refused (o : ReqOutcome) : Host.Outcome State Fault Refusal := .next (s.withPart ((p.taken e x).finished e x o 0 0 0))
    let active : Prop := q.state ≠ .idle ∧ q.state ≠ .done
    let waits (q' : Patrol) : Host.Outcome State Fault Refusal := .next (s.withPart { p.taken e (x.await .ok 0 0 0) with
      patrol := q', committer := { p.committer with requested := true } })
    (x.req.selector ≠ 1 → x.req.selector ≠ 2 →
      exec (.patrolControlStart .done) s = refused .refusedFormat
        ∧ exec (.patrolControlStop .done) s = refused .refusedFormat)
    ∧ (x.req.selector = 1 →
      (q.marker = true ∨ active → exec (.patrolControlStart .done) s = refused .refusedBusy)
      ∧ (q.marker = false → ¬ active → q.plan = none → exec (.patrolControlStart .done) s = refused .refusedFormat)
      ∧ ∀ plan, q.marker = false → ¬ active → q.plan = some plan → p.committing →
        let started : Patrol := { q with
          state := .holdoff, span := 0, offset := 0, pass := q.pass + 1, checked := 0, made := 0, unrecoverable := 0
          sinceCheckpoint := 0, checkpoint := ⟨0, 0, q.pass + 1⟩, holdoff := plan.holdoff }
        (1 ≤ plan.holdoff ∨ p.engine.state ≠ .running ∨ q.paused = true →
          exec (.patrolControlStart .done) s = waits started)
        ∧ (plan.holdoff = 0 → p.engine.state = .running → q.paused = false →
          exec (.patrolControlStart .done) s = (s.withPart { p.taken e (x.await .ok 0 0 0) with
            patrol := { started with state := .running }, committer := { p.committer with requested := true }
            agenda := [.patrolTry] }).act id))
    ∧ (x.req.selector = 2 →
      (q.marker = true → exec (.patrolControlStop .done) s = refused .refusedBusy)
      ∧ (q.marker = false → ¬ active →
        exec (.patrolControlStop .done) s = .next (s.withPart ((p.taken e x).finished e x .ok 0 0 0)))
      ∧ (q.marker = false → active → q.chunk ≠ none →
        exec (.patrolControlStop .done) s = .next (s.withPart { p.taken e { x with state := .atLanes } with
          patrol := { q with stops := q.stops ++ [e] } }))
      ∧ (q.marker = false → active → q.chunk = none → p.committing →
        exec (.patrolControlStop .done) s = waits { q with state := .idle, holdoff := 0, rest := 0 }))

/-! ## Requests: their own transfers -/

/-- A WRITE's data fetch (R94, R102, R103): a fault ends it BUS_FAULT with its lock and buffers released; the blocks go to its
buffers in order, the lowest-numbered buffer holding the first block (log 10); on a LOST volume it finishes LOST; under a
departure hold it waits at the lanes, otherwise it issues one FOREGROUND WRITE of the range to each ONLINE or REBUILDING member,
which takes a place, waits for one, or is served at once (R76, R77; while HOLD is asserted nothing is begun: log 24). The choice of
a lane's next operation is R77's: the oldest RECORD one, else FOREGROUND or BACKGROUND by the streak and the share ratio; a place
that frees goes to the oldest place waiter, before the choice (log 32). Each target's end is noted; when every target has ended, the
buffers and the lock are released, and the outcome of R104 stands (OK where all completed: log 46), finished at once or when the
commit of a lost target has finished. -/
def Obligations.WriteDataGoesToTheTargets : Prop :=
  (∀ (e : EntryId) (x : Entry) (s : State) (data : List Block), s.part.agenda = [] → s.part.entry e = some x →
    x.req.kind = kindWrite → x.state = .fetching → data.length = x.req.count.toNat →
    let p := s.part
    let r := x.req
    let vol := p.vol r.volume
    let bufs := p.pool.bufsOf (.request e)
    let filled := fillBuffers bufs data p
    let targets := vol.members.lanes.filter p.serviceable
    let op : LaneOp :=
      ⟨.foreground, .write, vol.first + r.first.toNat, r.count.toNat, bufs.map .staging, .request e, false⟩
    (p.noWaiters → exec (.writeDataFetched e none) s = .next (s.withPart ({ p with
        locks := ⟨p.locks.granted.filter (fun k => k.holder ≠ Holder.request e), []⟩
        pool := p.pool.without (.request e) }.finished e x .busFault 0 0 0)))
    ∧ (p.noWaiters → vol.state = .lost → exec (.writeDataFetched e (some data)) s = .next (s.withPart ({ filled with
        locks := ⟨p.locks.granted.filter (fun k => k.holder ≠ Holder.request e), []⟩
        pool := filled.pool.without (.request e) }.finished e x .lost 0 0 0)))
    ∧ (vol.state ≠ .lost → vol.hold = .none →
      exec (.writeDataFetched e (some data)) s = (s.withPart (enqueueEach targets (fun _ => op) { filled with
        table := p.table.set e.val (some { x with
          state := .atLanes, work := .write ⟨false, LaneMask.ofList targets, 0, 0⟩ }) })).act id)
    ∧ (vol.state ≠ .lost → vol.hold ≠ .none → exec (.writeDataFetched e (some data)) s = .next (s.withPart { filled with
        table := p.table.set e.val (some { x with state := .atLanes, work := .write ⟨true, 0, 0, 0⟩ }) }))
    ∧ (vol.state ≠ .lost → vol.hold = .none → (∀ l ∈ targets, (p.lane l).service ≠ none ∧ (p.lane l).places < 16) →
      ∃ t : State, exec (.writeDataFetched e (some data)) s = .next t
        ∧ t.part.table = p.table.set e.val (some { x with
            state := .atLanes, work := .write ⟨false, LaneMask.ofList targets, 0, 0⟩ })
        ∧ (∀ l, t.part.lane l =
            if l ∈ targets then { p.lane l with queue := (p.lane l).queue ++ [op] } else p.lane l)
        ∧ t.part.pool = filled.pool ∧ t.part.locks = p.locks ∧ t.part.volumes = p.volumes ∧ t.part.docket = p.docket
        ∧ t.part.committer = p.committer ∧ t.part.engine = p.engine ∧ t.part.journal = p.journal))
  ∧ (∀ (l : LaneId) (op : LaneOp) (p : Part),
    let L := p.lane l
    (16 ≤ L.places → enqueue l op p = p.setLane l { L with waiters := L.waiters ++ [op] })
    ∧ (L.places < 16 → L.service ≠ none ∨ L.txn ≠ none ∨ L.hold = true →
      enqueue l op p = p.setLane l { L with queue := L.queue ++ [op] })
    ∧ (L.service = none → L.queue = [] → L.txn = none → L.hold = false → p.serviceable l = true →
      enqueue l op p = (p.setLane l { L with
        service := some (p.serve l op)
        streak := match op.cls with
          | .record => L.streak
          | .foreground => min 15 (L.streak + 1)
          | .background => 0 }).push [.laneStart l]))
  ∧ (∀ (share streak : Nat) (queue : List LaneOp),
    let has (c : OpClass) : Prop := ∃ op ∈ queue, op.cls = c
    (choose share streak queue = none ↔ queue = [])
    ∧ ∀ op rest after, choose share streak queue = some (op, rest, after) →
      (∃ xs ys, queue = xs ++ op :: ys ∧ rest = xs ++ ys ∧ ∀ y ∈ xs, y.cls ≠ op.cls)
      ∧ (has .record → op.cls = .record)
      ∧ (¬ has .record → has .foreground → ¬ has .background ∨ streak < share → op.cls = .foreground)
      ∧ (¬ has .record → has .background → ¬ has .foreground ∨ share ≤ streak → op.cls = .background)
      ∧ after = match op.cls with
        | .record => streak
        | .foreground => min 15 (streak + 1)
        | .background => 0)
  ∧ (∀ (l : LaneId) (p : Part),
    let L := p.lane l
    (L.service ≠ none ∨ L.txn ≠ none ∨ L.hold = true ∨ p.serviceable l = false → laneChoose l p = p)
    ∧ (L.service = none → L.txn = none → L.hold = false → p.serviceable l = true →
      (L.queue = [] → laneChoose l p = p)
      ∧ ∀ op rest after, choose p.engine.share L.streak L.queue = some (op, rest, after) →
        laneChoose l p =
          (p.setLane l { L with queue := rest, streak := after, service := some (p.serve l op) }).push [.laneStart l])
    ∧ freePlace l p = laneChoose l (p.setLane l { L with
      service := none, queue := L.queue ++ L.waiters.take 1, waiters := L.waiters.drop 1 })
    ∧ ∀ op, L.places < 16 → enqueue l op p = laneChoose l (p.setLane l { L with queue := L.queue ++ [op] }))
  ∧ ∀ (e : EntryId) (x : Entry) (w : WriteWork) (l : LaneId) (op : LaneOp) (r : OpEnd) (p : Part),
    op.producer = .request e → p.entry e = some x → x.work = .write w →
    let completed := match r with
      | .completed _ _ => w.completed.add l
      | .laneLost => w.completed
    let lost := match r with
      | .completed _ _ => w.lost
      | .laneLost => w.lost.add l
    let noted : Part := { p with
      table := p.table.set e.val (some { x with work := .write { w with completed := completed, lost := lost } }) }
    let outcome : ReqOutcome :=
      if lost = 0 then .ok else if completed.lanes.any p.online then .degraded else .failedMedia
    ((∃ m, w.targets.has m = true ∧ completed.has m = false ∧ lost.has m = false) → operationEnded l op r p = noted)
    ∧ ((∀ m, w.targets.has m = true → completed.has m = true ∨ lost.has m = true) →
      (x.mark = .none →
        operationEnded l op r p =
          complete e outcome completed (w.targets.setWidth 32) 0 (releaseAll (.request e) noted))
      ∧ (x.mark ≠ .none →
        operationEnded l op r p = { releaseAll (.request e) noted with
          table := p.table.set e.val (some { x with
            state := .waitCommit, work := .none, outcome := outcome, laneMask := completed
            detailA := w.targets.setWidth 32, detailB := 0 }) }))

/-- The transfers into host buffers end (R95, R100, R101, R179): a READ releases and finishes OK, RECOVERED when a block came
from a lane other than the first chosen, or BUS_FAULT, each with the lanes that supplied a block, the number of such blocks and
the first lane; a SNAPSHOT finishes OK with its mask, or BUS_FAULT. A READ comes to its delivery when its last operation has
ended with every block resolved, its discoveries handed on (R97, R99): the transfer is of count times 4096 bytes to the buffer
address, its buffers' contents in block order (R100). A READ by policy with no lane left for an unresolved block finishes LOST or
FAILED_MEDIA (R98), and one that names its lane finishes REFUSED_LANE or FAILED_MEDIA (R101). The discoveries handed are, in
ascending block order, for each block that a lane supplied one UNREADABLE for each lane that failed there, in the order tried,
then one WEAK for the supplier that read it CORRECTED (R99). A lane is in the mask of FAILED_MEDIA when any of its operations for
the READ completed, also where another ended LANE_LOST (log 53). That a FAILED_MEDIA READ releases, passes its UNRECOVERABLE
events and then hands its discoveries, in this order, is the model's choice but for the release before the events (R84; log 55).
Masks and details that no rule gives are empty and 0 (log 40). -/
def Obligations.DeliveriesFinishTheirRequests : Prop :=
  (∀ (e : EntryId) (x : Entry) (s : State), s.part.agenda = [] → s.part.entry e = some x → x.state = .delivering →
    s.part.noWaiters →
    let p := s.part
    let released : Part := { p with
      locks := ⟨p.locks.granted.filter (fun k => k.holder ≠ Holder.request e), []⟩, pool := p.pool.without (.request e) }
    let ends (o : ReqOutcome) (mask : LaneMask) (a b : Word) : Host.Outcome State Fault Refusal :=
      .next (s.withPart (released.finished e x o mask a b))
    (∀ w : ReadWork, x.work = .read w →
      let mask := LaneMask.ofList (w.blocks.filterMap (·.source))
      let others := (w.blocks.filter fun b => b.source ≠ none ∧ b.source ≠ some w.firstLane).length
      let first : Word := BitVec.ofNat 32 w.firstLane.val
      exec (.readDelivered e .fault) s = ends .busFault mask (BitVec.ofNat 32 others) first
        ∧ (others = 0 → exec (.readDelivered e .done) s = ends .ok mask 0 first)
        ∧ (others ≠ 0 → exec (.readDelivered e .done) s = ends .recovered mask (BitVec.ofNat 32 others) first))
    ∧ (x.req.kind = kindSnapshot →
      exec (.snapshotDelivered e .done) s = ends .ok x.laneMask 0 0
        ∧ exec (.snapshotDelivered e .fault) s = ends .busFault 0 0 0))
  ∧ (∀ (e : EntryId) (x : Entry) (p : Part), p.entry e = some x → x.state = .delivering → x.req.kind = kindRead →
    p.hostTransfer e = some (x.req.address.toNat, 4096 * x.req.count.toNat)
    ∧ (p.deliveredBytes e).length = 4096 * (p.pool.bufsOf (.request e)).length
    ∧ ∀ i b, (p.pool.bufsOf (.request e))[i]? = some b →
      ((p.deliveredBytes e).drop (4096 * i)).take 4096 = fullBlock (p.buffer b))
  ∧ (∀ (e : EntryId) (x : Entry) (w : ReadWork) (l : LaneId) (op : LaneOp) (r : OpEnd) (p : Part),
    op.producer = .request e → p.entry e = some x → x.work = .read w →
    let v := x.req.volume
    let first := x.req.first.toNat
    let tag := x.req.tag
    let blocks := match r with
      | .completed ss _ => mergeTries l (op.start - ((p.vol v).first + first)) ss w.blocks
      | .laneLost => w.blocks
    let completed := match r with
      | .completed _ _ => w.completed.add l
      | .laneLost => w.completed
    let q : Part := { p with table := p.table.set e.val (some { x with work := .read { w with
      outstanding := w.outstanding - 1, blocks := blocks, completed := completed } }) }
    let lost := unresolvedAt first blocks
    let found := tryDiscoveries v .read tag first blocks
    let delivers : Part := (handDiscoveries found q).modEntry e fun y => { y with state := .delivering }
    let fails (events : List Nat) (ds : List Discovery) : Part :=
      complete e .failedMedia completed (BitVec.ofNat 32 (lost.headD 0)) (BitVec.ofNat 32 lost.length)
        (handDiscoveries ds (passEvents (events.map fun i => unrecoverableEvent none v i .read tag)
          (releaseAll (.request e) q)))
    (2 ≤ w.outstanding → operationEnded l op r p = q)
    ∧ (w.outstanding ≤ 1 → w.named = false →
      ((∀ b ∈ blocks, b.source ≠ none) → operationEnded l op r p = delivers)
      ∧ ((∃ b ∈ blocks, b.source = none) → (∀ m ∈ p.onlineMembers v, m ∈ w.tried) →
        (p.isLost v = true → operationEnded l op r p = finish e .lost 0 0 0 q)
        ∧ (p.isLost v = false → operationEnded l op r p = fails lost found)))
    ∧ (w.outstanding ≤ 1 → w.named = true →
      (completed = 0 → operationEnded l op r p = finish e .refusedLane 0 0 0 q)
      ∧ (completed ≠ 0 →
        ((∀ b ∈ blocks, b.source ≠ none) → operationEnded l op r p = delivers)
        ∧ ((∃ b ∈ blocks, b.source = none) →
          ((∃ m ∈ p.onlineMembers v, m ≠ w.firstLane) → operationEnded l op r p =
            fails [] (lost.map fun i => ⟨w.firstLane, v, i, .unreadable, .read, tag⟩))
          ∧ ((∀ m ∈ p.onlineMembers v, m = w.firstLane) → operationEnded l op r p = fails lost [])))))
  ∧ ∀ (v : VolId) (o : Origin) (tag : Word) (first : Nat) (bs : List BlockTry),
    unresolvedAt first bs = (bs.zipIdx.filter fun y => y.1.source = none).map (fun y => first + y.2)
    ∧ tryDiscoveries v o tag first bs = bs.zipIdx.flatMap fun y =>
      match y.1.source with
      | none => []
      | some l => y.1.failed.map (fun f => ⟨f, v, first + y.2, .unreadable, o, tag⟩)
          ++ if y.1.weak = true then [⟨l, v, first + y.2, .weak, o, tag⟩] else []

/-- A PATROL PLAN's fetch ends (R138, R139): a fault is BUS_FAULT; its buffer is released; REFUSED_BUSY while a plan is walked
or a recovery pass stands, REFUSED_FORMAT for a malformed plan or a volume that is not in use or is FILLING, REFUSED_RANGE
for a span past its volume's end; otherwise the plan is stored with the cursor and the checkpoint at its start and the request
waits for a commit. The plan stands in FETCHING during its fetch (log 18), and the mask is empty and the details 0 (log 40). The plan that 128
bytes give, and which are malformed by themselves, are those of 9.2 and R138. -/
def Obligations.FetchedPlansAreCheckedAndStored : Prop :=
  (∀ (e : EntryId) (x : Entry) (s : State) (bs : List Byte) (b : BufId), s.part.agenda = [] → s.part.entry e = some x →
    x.req.kind = kindPlan → x.state = .fetching → s.part.noWaiters → s.part.pool.bufsOf (.request e) = [b] →
    let p := s.part
    let q := p.patrol
    let released (filled : Part) : Part := { filled with
      locks := ⟨p.locks.granted.filter (fun k => k.holder ≠ Holder.request e), []⟩, pool := filled.pool.without (.request e) }
    let after := released (p.setBuffer b bs)
    let refused (o : ReqOutcome) : Host.Outcome State Fault Refusal := .next (s.withPart (after.finished e x o 0 0 0))
    let busy : Prop := q.marker = true ∨ (q.state ≠ .idle ∧ q.state ≠ .done)
    exec (.patrolPlanFetched e none) s = .next (s.withPart ((released p).finished e x .busFault 0 0 0))
    ∧ (busy → exec (.patrolPlanFetched e (some bs)) s = refused .refusedBusy)
    ∧ (¬ busy → parsePlan bs = none → exec (.patrolPlanFetched e (some bs)) s = refused .refusedFormat)
    ∧ ∀ plan, ¬ busy → parsePlan bs = some plan →
      ((∃ y ∈ plan.spans, p.ready y.volume = false) → exec (.patrolPlanFetched e (some bs)) s = refused .refusedFormat)
      ∧ ((∀ y ∈ plan.spans, p.ready y.volume = true) → (∃ y ∈ plan.spans, (p.vol y.volume).length < y.first + y.count) →
        exec (.patrolPlanFetched e (some bs)) s = refused .refusedRange)
      ∧ ((∀ y ∈ plan.spans, p.ready y.volume = true ∧ y.first + y.count ≤ (p.vol y.volume).length) → p.committing →
        exec (.patrolPlanFetched e (some bs)) s = .next (s.withPart { after with
          table := p.table.set e.val (some (x.await .ok 0 0 0))
          patrol := { q with plan := some plan, span := 0, offset := 0, checkpoint := ⟨0, 0, q.pass⟩ }
          committer := { p.committer with requested := true } })))
  ∧ ∀ bs : List Byte,
    let n := (byteAt bs 0).toNat
    let malformed : Prop := n = 0 ∨ 8 < n ∨ (∃ i, 1 ≤ i ∧ i < 8 ∧ (byteAt bs 1).getLsbD i = true) ∨ 1440 < fieldAt bs 2 2
      ∨ (∃ i, ((5 ≤ i ∧ i ≤ 15) ∨ (16 + 12 * n ≤ i ∧ i ≤ 127)) ∧ byteAt bs i ≠ 0)
      ∨ ∃ i, i < n ∧ (7 < (byteAt bs (16 + 12 * i)).toNat ∨ byteAt bs (17 + 12 * i) ≠ 0 ∨ byteAt bs (18 + 12 * i) ≠ 0
        ∨ byteAt bs (19 + 12 * i) ≠ 0 ∨ fieldAt bs (24 + 12 * i) 4 = 0)
    (parsePlan bs = none ↔ malformed)
    ∧ ∀ plan, parsePlan bs = some plan →
      plan.spans.length = n ∧ plan.repeats = (byteAt bs 1).getLsbD 0 ∧ plan.rest = fieldAt bs 2 2
      ∧ plan.holdoff = (byteAt bs 4).toNat
      ∧ ∀ i y, plan.spans[i]? = some y → y.volume.val = (byteAt bs (16 + 12 * i)).toNat
        ∧ y.first = fieldAt bs (20 + 12 * i) 4 ∧ y.count = fieldAt bs (24 + 12 * i) 4

/-! ## Patrol timers -/

/-- The holdoff and the rest run out while plan work runs (R141, R143): the state becomes RUNNING, after a rest with a new pass,
and the next chunk is begun in the step: up to 8 blocks of the span at the cursor, its SHARED lock asked for (R144; here behind a
conflict), or WAITING when the list has too little room for what the chunk may find. That an expiry in another state changes
nothing is the model's (logs 2, 3). With its buffers granted the chunk reads each lane that has been ONLINE since its lanes were
fixed, into that lane's own run of them (R83, R144). The chunk's reads end, its blocks are judged, or its span is skipped (R144,
R145); a span whose volume is not in use, FILLING, LOST or too short is skipped too (R143): one SPAN_SKIPPED event, and the
cursor moves on as at a span's end, with the checkpoint, or ends the pass (R147). Once its discoveries are settled the cursor
moves on, and a checkpoint, a span's end, a pass's end or the recovery pass's end follows (R146, R148, R151); then a pending STOP
is taken, or patrol tests for the next chunk (R142, R143). The checkpoint counter rises in the recovery pass too, past 4096 if
the pass is long (log 51). -/
def Obligations.HoldoffAndRestBeginPatrol : Prop :=
  (∀ (c : Instr) (s : State) (sp : Span), s.part.atRest →
    let p := s.part
    let q := p.patrol
    let started : Patrol :=
      if c = .holdoffExpiry then { q with holdoff := 0, state := .running }
      else { q with
        rest := 0, pass := q.pass + 1, span := 0, offset := 0, checked := 0, made := 0, unrecoverable := 0, sinceCheckpoint := 0
        state := .running }
    let n := min 8 (sp.count - started.offset)
    let k : Lock := ⟨.patrol, sp.volume, sp.first + started.offset, n, false⟩
    (q.state ≠ .holdoff → exec .holdoffExpiry s = .next s) ∧ (q.state ≠ .resting → exec .restExpiry s = .next s)
    ∧ (p.engine.state = .running → q.paused = false → q.marker = false → q.chunk = none →
      (c = .holdoffExpiry ∧ q.state = .holdoff) ∨ (c = .restExpiry ∧ q.state = .resting) →
      (q.plan.bind fun pl => pl.spans[started.span]?) = some sp → p.ready sp.volume = true → p.isLost sp.volume = false →
      sp.first + sp.count ≤ (p.vol sp.volume).length →
      (n * ((p.onlineMembers sp.volume).length - 1) ≤ p.repair.room →
        (k.clearOf p.locks.granted && k.clearOf p.locks.waiting) = false →
        exec c s = .next (s.withPart { p with
          patrol := { started with chunk := some ⟨sp.volume, sp.first + started.offset, n, .lock, [], [], 0, 0⟩ }
          locks := ⟨p.locks.granted, p.locks.waiting ++ [k]⟩ }))
      ∧ (p.repair.room < n * ((p.onlineMembers sp.volume).length - 1) →
        exec c s = .next (s.withPart { p with patrol := { started with state := .waiting } }))))
  ∧ (∀ (c : PatrolChunk) (p : Part), p.patrol.chunk = some c → c.phase = .buffers → c.got = [] →
    let start := (p.vol c.volume).first + c.first
    let bufs := p.pool.bufsOf .patrol
    let read := c.lanes.zipIdx.filter fun y => !c.gone.has y.1 && p.online y.1
    let has (d : PatrolChunk) : Part := { p with patrol := { p.patrol with chunk := some d } }
    let skipped := skipSpan c.volume (patrolDrop p)
    (∀ l, patrolDepart l p = has { c with gone := c.gone.add l })
    ∧ (read ≠ [] → patrolBuffered p = read.foldl
      (fun q y => enqueue y.1 ⟨.background, .read, start, c.count, ((bufs.drop (y.2 * c.count)).take c.count).map .staging,
        .patrol, false⟩ q)
      (has { c with phase := .reads, outstanding := read.length }))
    ∧ (read = [] → p.isLost c.volume = false → patrolBuffered p = patrolGoOn false (patrolDrop p))
    ∧ (read = [] → p.isLost c.volume = true → patrolBuffered p = patrolGoOn skipped.2 skipped.1))
  ∧ (∀ (l : LaneId) (op : LaneOp) (r : OpEnd) (c : PatrolChunk) (p : Part), op.producer = .patrol →
    p.patrol.chunk = some c →
    let got := match r with
      | .completed ss _ => c.got ++ [(l, ss)]
      | .laneLost => c.got
    let d : PatrolChunk := { c with outstanding := c.outstanding - 1, got := got }
    let q (d : PatrolChunk) : Part := { p with patrol := { p.patrol with chunk := some d } }
    let js := p.judgements .patrol c.volume c.count c.lanes got
    let o : Origin := if p.patrol.marker then .recovery else .patrol
    let lost := judgedLost js
    let skipped := skipSpan c.volume (patrolDrop (q d))
    (2 ≤ c.outstanding → operationEnded l op r p = q d)
    ∧ (c.outstanding ≤ 1 → p.isLost c.volume = true → operationEnded l op r p = patrolGoOn skipped.2 skipped.1)
    ∧ (c.outstanding ≤ 1 → p.isLost c.volume = false → got = [] →
      operationEnded l op r p = patrolGoOn false (patrolDrop (q d)))
    ∧ (c.outstanding ≤ 1 → p.isLost c.volume = false → got ≠ [] →
      operationEnded l op r p = (handDiscoveries (judgedDiscoveries c.volume c.first o 0 js)
        (passEvents (lost.map fun i => unrecoverableEvent none c.volume (c.first + i) o 0)
          { releaseAll .patrol p with patrol := { p.patrol with
            chunk := some { d with phase := .settle }
            checked := satAdd p.patrol.checked c.count
            sinceCheckpoint := p.patrol.sinceCheckpoint + c.count
            unrecoverable := satAdd p.patrol.unrecoverable lost.length } })).push [.patrolSettle]))
  ∧ (∀ (c : PatrolChunk) (sp : Span) (p : Part), p.patrol.chunk = some c → c.phase = .settle → p.currentSpan = some sp →
    let u := p.patrol
    let offset := u.offset + c.count
    let next : Patrol := { u with chunk := none, sinceCheckpoint := 0 }
    (p.repair.waiter ≠ [] → patrolSettle p = p)
    ∧ (p.repair.waiter = [] → offset < sp.count →
      (u.marker = true ∨ u.sinceCheckpoint < 4096 →
        patrolSettle p = patrolGoOn false { p with patrol := { u with chunk := none, offset := offset } })
      ∧ (u.marker = false → 4096 ≤ u.sinceCheckpoint → patrolSettle p =
        patrolGoOn true { p with patrol := { next with offset := offset, checkpoint := ⟨u.span, offset, u.pass⟩ } }))
    ∧ (p.repair.waiter = [] → sp.count ≤ offset → u.marker = false → ∀ plan, u.plan = some plan →
      (u.span + 1 < plan.spans.length → patrolSettle p = patrolGoOn true { p with
        patrol := { next with span := u.span + 1, offset := 0, checkpoint := ⟨u.span + 1, 0, u.pass⟩ } })
      ∧ (plan.spans.length ≤ u.span + 1 → patrolSettle p = patrolGoOn true
        { passEvent (passEndEvent patrolPassEnd u.pass u.checked u.made u.unrecoverable) p with
          patrol := { next with
            span := 0, offset := 0, checkpoint := ⟨0, 0, u.pass⟩
            state := if plan.repeats then .resting else .done
            rest := if plan.repeats then plan.rest else u.rest } }))
    ∧ (p.repair.waiter = [] → sp.count ≤ offset → u.marker = true → ∀ v rest, u.recovery = v :: rest →
      (rest ≠ [] → patrolSettle p = patrolGoOn false
        { p with patrol := { u with chunk := none, recovery := rest, offset := 0 } })
      ∧ (rest = [] → patrolSettle p = patrolGoOn false
        { passEvent (passEndEvent patrolRecoveryEnd 0 u.checked u.made u.unrecoverable) p with
          patrol := { next with
            recovery := [], marker := false, checked := 0, made := 0, unrecoverable := 0, span := u.resumeSpan
            offset := u.resumeOffset } })))
  ∧ (∀ p : Part, p.engine.state ≠ .halting →
    let u := p.patrol
    (u.stops = [] → u.state ≠ .holdoff → u.state ≠ .resting →
      patrolGoOn false p = p.push [.patrolTry]
      ∧ (p.committing → patrolGoOn true p =
        ({ p with committer := { p.committer with requested := true } } : Part).push [.patrolTry]))
    ∧ ∀ e x commit, u.stops = [e] → p.entry e = some x → p.committing → patrolGoOn commit p =
      ({ p with
        table := p.table.set e.val (some (x.await .ok 0 0 0))
        patrol := { u with stops := [], state := .idle, holdoff := 0, rest := 0 }
        committer := { p.committer with requested := true } } : Part).push [.patrolTry])
  ∧ (∀ (cause : Byte) (pass checked made lost : Word),
    passEndEvent cause pass checked made lost = ⟨.patrol, none, none, cause, 0, 0, pass, checked,
      BitVec.ofNat 32 (min made.toNat 0xFFFF + 2 ^ 16 * min lost.toNat 0xFFFF), 0⟩)
  ∧ (∀ (v : VolId) (p : Part),
    let u := p.patrol
    let told : Part := passEvent ⟨.patrol, none, some v, 1, 0, 0, BitVec.ofNat 32 u.offset, u.pass,
      if u.marker then 0 else BitVec.ofNat 32 u.span, 0⟩ p
    (u.marker = false → ∀ plan, u.plan = some plan →
      let next (k : Nat) : Patrol := { u with span := k, offset := 0, sinceCheckpoint := 0, checkpoint := ⟨k, 0, u.pass⟩ }
      (u.span + 1 < plan.spans.length → skipSpan v p = ({ told with patrol := next (u.span + 1) }, true))
      ∧ (plan.spans.length ≤ u.span + 1 → skipSpan v p =
        ({ passEvent (passEndEvent patrolPassEnd u.pass u.checked u.made u.unrecoverable) told with
          patrol := { next 0 with
            state := if plan.repeats then .resting else .done
            rest := if plan.repeats then plan.rest else u.rest } }, true)))
    ∧ (u.marker = true → ∀ w rest, u.recovery = w :: rest →
      (rest ≠ [] → skipSpan v p = ({ told with patrol := { u with recovery := rest, offset := 0 } }, false))
      ∧ (rest = [] → skipSpan v p =
        ({ passEvent (passEndEvent patrolRecoveryEnd 0 u.checked u.made u.unrecoverable) told with
          patrol := { u with
            recovery := [], marker := false, checked := 0, made := 0, unrecoverable := 0, sinceCheckpoint := 0
            span := u.resumeSpan, offset := u.resumeOffset } }, false))))
  ∧ ∀ (sp : Span) (p : Part), p.engine.state = .running → p.patrol.paused = false → p.patrol.chunk = none →
    p.patrol.marker = true ∨ p.patrol.state = .running ∨ p.patrol.state = .waiting → p.currentSpan = some sp →
    (p.vol sp.volume).inUse = false ∨ (p.vol sp.volume).state = .filling ∨ (p.vol sp.volume).state = .lost
      ∨ (p.vol sp.volume).length < sp.first + sp.count →
    patrolTry p = patrolGoOn (skipSpan sp.volume p).2 (skipSpan sp.volume p).1

/-! ## Exchange area transfers -/

/-- A sweep's reads while RUNNING (R172 to R174): the consumed count goes to the journal writer and the first slot is read; a
slot that is not POSTED, or that an entry holds, is passed over; a POSTED slot is copied into the lowest free entry (log 9) and
TAKEN is written; with no entry free the sweep ends with the deferred flag set; after the last slot it ends, its position the
slot after the last taken. The copy of a slot's bytes is the request of the slot format: each field at its place, low bytes
first, with whether bytes 33 to 47 are 0 (13.3). -/
def Obligations.SweepsReadAndTakeSlots : Prop :=
  (∀ (s : State) (w : Sweep) (bs : List Byte), s.part.agenda = [] → s.part.engine.state = .running →
    let p := s.part
    let d := p.docket
    let position := match w.lastTaken with
      | some n => (n + 1) % d.slots
      | none => d.position
    let posted : Prop := byteAt bs 0 = 1 ∧ ∀ e x, p.entry e = some x → x.slot ≠ w.slot
    d.sweep = some w → w.stop = false → d.completions = [] →
    (∀ value, d.xfer = some (.consumedRead true) →
      exec (.consumedCountRead (some value)) s = .next (s.withPart { p with
        journal := p.journal.consumed value
        docket := { d with sweep := some { w with consumed := true }, xfer := some (.slotRead w.slot true) } }))
    ∧ (d.xfer = some (.slotRead w.slot true) → w.consumed = true →
      (¬ posted → w.examined + 1 < d.slots →
        exec (.slotRead (some bs)) s = .next (s.withPart { p with docket := { d with
          sweep := some { w with slot := (w.slot + 1) % d.slots, examined := w.examined + 1 }
          xfer := some (.slotRead ((w.slot + 1) % d.slots) true) } }))
      ∧ (¬ posted → d.slots ≤ w.examined + 1 → d.rerun = false →
        exec (.slotRead (some bs)) s = .next (s.withPart { p with docket := { d with
          sweep := none, xfer := none, position := position } }))
      ∧ (posted → (∀ e, p.entry e ≠ none) → d.rerun = false →
        exec (.slotRead (some bs)) s = .next (s.withPart { p with docket := { d with
          sweep := none, xfer := none, position := position, deferred := true } }))
      ∧ ∀ e, posted → p.entry e = none → (∀ e', e' < e → p.entry e' ≠ none) →
        exec (.slotRead (some bs)) s = .next (s.withPart { p with
          table := p.table.set e.val (some ⟨w.slot, parseRequest bs, .taking, .none, .none, .ok, 0, 0, 0⟩)
          docket := { d with xfer := some (.takenWrite e) } })))
  ∧ ∀ bs : List Byte,
    let r := parseRequest bs
    r.kind = byteAt bs 1 ∧ r.flags = byteAt bs 2 ∧ r.target = byteAt bs 3 ∧ r.tag.toNat = fieldAt bs 4 4
    ∧ r.first.toNat = fieldAt bs 8 4 ∧ r.count.toNat = fieldAt bs 12 2 ∧ r.selector = byteAt bs 14
    ∧ r.parameter = byteAt bs 15 ∧ r.address.toNat = fieldAt bs 16 8 ∧ r.defFirst.toNat = fieldAt bs 24 4
    ∧ r.defLength.toNat = fieldAt bs 28 4 ∧ r.defMembers = byteAt bs 32
    ∧ (r.reservedZero = true ↔ ∀ i, 33 ≤ i → i < 48 → byteAt bs i = 0)

/-- The writes of a completion (R178, R185, R189): the outcome fields with the completion number, the done tally plus 1, at
byte 48 of the slot; then DONE; then the tally raised by 1; then an interrupt item, and the entry is freed. With the last entry
freed in HALTING and nothing else in hand the engine is HALTED in the step, with its message. -/
def Obligations.CompletionsAreWrittenInThreeSteps : Prop :=
  ∀ (s : State) (e : EntryId) (x : Entry), s.part.agenda = [] → s.part.entry e = some x →
    let p := s.part
    let d := p.docket
    let slot := p.engine.base.toNat + d.offset + 64 * x.slot
    let freed : Part := { p with
      table := p.table.set e.val none, interrupt := p.interrupt.item, docket := ({ d with xfer := none } : Docket).next }
    (d.xfer = some (.outcomeWrite e) →
      p.docketAddress = some (slot + 48)
      ∧ p.docketBytes = [x.outcome.code, x.laneMask.setWidth 8, 0, 0] ++ leBytes 4 x.detailA.toNat
          ++ leBytes 4 x.detailB.toNat ++ leBytes 4 (d.tally + 1).toNat
      ∧ exec (.outcomeWrite .done) s = .next (s.withPart { p with docket := { d with xfer := some (.doneWrite e) } }))
    ∧ (d.xfer = some (.doneWrite e) →
      p.docketAddress = some slot ∧ p.docketBytes = [3]
      ∧ exec (.doneWrite .done) s =
        .next (s.withPart { p with docket := { d with tally := d.tally + 1, xfer := some (.tallyWrite e) } }))
    ∧ (d.xfer = some (.tallyWrite e) →
      p.docketAddress = some (p.engine.base.toNat + 64) ∧ p.docketBytes = leBytes 4 d.tally.toNat
      ∧ (p.engine.state ≠ .halting ∨ (∃ f, f ≠ e ∧ p.entry f ≠ none) → d.deferred = false ∨ p.engine.state ≠ .running →
        exec (.doneTallyWrite .done) s = .next (s.withPart freed))
      ∧ (p.engine.state = .running → d.deferred = true → d.sweep = none → d.completions = [] →
        exec (.doneTallyWrite .done) s = .next (s.withPart { freed with docket := { d with
          deferred := false, sweep := some ⟨d.position, 0, none, false, false⟩, xfer := some (.consumedRead true) } }))
      ∧ (p.engine.state = .halting → (∀ f, f ≠ e → p.entry f = none) → p.patrol.chunk = none → p.repair.work = none →
        p.rebuild.chunk = none → p.committer.inFlight = none → p.committer.requested = false →
        exec (.doneTallyWrite .done) s = .next (s.withPart { freed with
          engine := { p.engine with state := .halted }, interrupt := p.interrupt.item.raise })))

/-- The journal writer (R182 to R184). An event is placed when the backlog is empty, no reread is in hand and the used room is
below the entry count; else it joins a backlog of fewer than 16; else it is lost. The writer's transfers end: an entry write is
followed by its header write, which raises the header written count and gives an interrupt item; the lost count write; a reread,
whose value frees events from the backlog, in order, as many as the room it shows takes. With none in hand the next transfer
begun is a reread that is due, then the lost count write, cleared as it begins with the count of that moment, then the write of
the oldest entry on the write list (R183). The 32 bytes of an entry by the event's fields and codes, and the address and bytes of
each transfer: the entry at its sequence modulo the entry count, the written count its sequence plus 1 (R180, R183, 13.3). -/
def Obligations.JournalTakesAndWritesEvents : Prop :=
  (∀ (j : Journal) (e : Event),
    let looksFull : Prop := j.entries ≤ (j.written - j.lastRead).toNat
    (j.backlog = [] → j.xfer ≠ some .reread → ¬ looksFull →
      j.take e = ({ j with written := j.written + 1, writeList := j.writeList ++ [⟨j.written, e⟩] } : Journal).next)
    ∧ (j.backlog ≠ [] ∨ j.xfer = some .reread ∨ looksFull →
      (j.backlog.length < 16 → j.take e = ({ j with
        backlog := j.backlog ++ [e]
        rereadDue := j.rereadDue || (decide looksFull && decide (j.xfer ≠ some .reread)) } : Journal).next)
      ∧ (16 ≤ j.backlog.length → j.take e = ({ j with lost := satInc j.lost, lostDue := true } : Journal).next)))
  ∧ (∀ s : State, s.part.atRest →
    let p := s.part
    let j := p.journal
    (j.xfer = some .entryWrite →
      exec (.entryWrite .done) s = .next (s.withPart { p with journal := { j with xfer := some .writtenWrite } }))
    ∧ (∀ x rest, j.xfer = some .writtenWrite → j.writeList = x :: rest →
      exec (.writtenCountWrite .done) s = .next (s.withPart { p with
        interrupt := p.interrupt.item
        journal := ({ j with headerWritten := x.sequence + 1, writeList := rest, xfer := none } : Journal).next }))
    ∧ (∀ n, j.xfer = some (.lostWrite n) →
      exec (.lostCountWrite .done) s = .next (s.withPart { p with journal := ({ j with xfer := none } : Journal).next }))
    ∧ (∀ v, j.xfer = some .reread →
      (j.backlog = [] → exec (.reread (some v)) s =
        .next (s.withPart { p with journal := ({ j with lastRead := v, xfer := none } : Journal).next }))
      ∧ ∀ e, j.backlog = [e] → (j.written - v).toNat < j.entries →
        exec (.reread (some v)) s = .next (s.withPart { p with journal := ({ j with
          lastRead := v, xfer := none, backlog := [], written := j.written + 1
          writeList := j.writeList ++ [⟨j.written, e⟩] } : Journal).next }))
    ∧ ∀ v, j.xfer = some .reread → j.entries ≤ 256 →
      let n := min j.backlog.length (j.entries - (j.written - v).toNat)
      exec (.reread (some v)) s = .next (s.withPart { p with journal := ({ j with
        lastRead := v, xfer := none, backlog := j.backlog.drop n, written := j.written + BitVec.ofNat 32 n
        writeList := j.writeList ++ (j.backlog.take n).zipIdx.map fun x => ⟨j.written + BitVec.ofNat 32 x.2, x.1⟩ }
          : Journal).next }))
  ∧ (∀ j : Journal,
    (j.xfer ≠ none → j.next = j)
    ∧ (j.xfer = none → j.rereadDue = true → j.next = { j with rereadDue := false, xfer := some .reread })
    ∧ (j.xfer = none → j.rereadDue = false → j.lostDue = true →
      j.next = { j with lostDue := false, xfer := some (.lostWrite j.lost) })
    ∧ (j.xfer = none → j.rereadDue = false → j.lostDue = false →
      (j.writeList ≠ [] → j.next = { j with xfer := some .entryWrite }) ∧ (j.writeList = [] → j.next = j)))
  ∧ [EventKind.laneState, .volumeState, .repaired, .unrecoverable, .sparesLow, .listFull, .patrol, .rebuild, .assembly].map
      EventKind.code = [1, 2, 3, 4, 5, 6, 7, 8, 9]
  ∧ (∀ x : Placed,
    let bs := x.bytes
    let y := x.event
    bs.length = 32 ∧ fieldAt bs 0 4 = x.sequence.toNat ∧ byteAt bs 4 = y.kind.code
    ∧ (byteAt bs 5).toNat = (y.lane.map (·.val)).getD 0xFF ∧ (byteAt bs 6).toNat = (y.volume.map (·.val)).getD 0xFF
    ∧ byteAt bs 7 = y.cause ∧ byteAt bs 8 = y.old ∧ byteAt bs 9 = y.new ∧ byteAt bs 10 = 0 ∧ byteAt bs 11 = 0
    ∧ fieldAt bs 12 4 = y.block.toNat ∧ fieldAt bs 16 4 = y.value1.toNat ∧ fieldAt bs 20 4 = y.value2.toNat
    ∧ fieldAt bs 24 4 = y.tag.toNat ∧ fieldAt bs 28 4 = 0)
  ∧ ∀ p : Part,
    let j := p.journal
    let base := p.engine.base.toNat
    (∀ x rest, j.writeList = x :: rest →
      (j.xfer = some .entryWrite → p.journalBytes = x.bytes
        ∧ p.journalAddress = some (base + j.offset + 32 * (x.sequence.toNat % j.entries)))
      ∧ (j.xfer = some .writtenWrite → p.journalBytes = leBytes 4 (x.sequence + 1).toNat
        ∧ p.journalAddress = some (base + 68)))
    ∧ (j.xfer = some .writtenWrite → j.writeList = [] → p.journalBytes = leBytes 4 0 ∧ p.journalAddress = some (base + 68))
    ∧ (∀ n, j.xfer = some (.lostWrite n) → p.journalBytes = leBytes 4 n.toNat ∧ p.journalAddress = some (base + 72))
    ∧ (j.xfer = some .reread → p.journalBytes = [] ∧ p.journalAddress = some (base + 32))

/-! ## The volume model, the committer, the discrepancy list -/

/-- The agreement rule over the copies read for a block (R6 to R8): a group of more than half of the readable copies, else the
acting reference's group, else the lowest-numbered lane's; with no readable copy the block is unrecoverable and every lane is
outvoted. The derived state of a volume and its acting reference follow its ONLINE members (R4, R6). A VERIFY whose last read has
ended judges its blocks by the rule over the lanes that completed: the UNRECOVERABLE events, with REPAIR the discoveries, then
the release and OK or DIFFERENT; with no read completed it finishes LOST or REFUSED_LANE (R107 to R109). The discoveries of
judged blocks, in block and lane order: none for an unrecoverable block, else for each lane at most one, UNREADABLE for a failed
copy, MISMATCH for one outside the authoritative group, WEAK for one of the group read CORRECTED (R108). -/
def Obligations.AgreementRuleAndDerivedStates : Prop :=
  (∀ (acting : Option LaneId) (rs : List Read), (rs.map (·.lane)).Pairwise (· < ·) →
    let v := agree acting (copiesOf rs)
    let ok := rs.filter (·.status.readable)
    let same (x : Read) : List Read := ok.filter fun y => sameBlock y.content x.content
    (ok = [] → v.unrecoverable = true ∧ v.authority = 0 ∧ v.outvoted = LaneMask.ofList (rs.map (·.lane)))
    ∧ ∀ x ∈ ok,
      (ok.length < 2 * (same x).length
        ∨ ((∀ y ∈ ok, 2 * (same y).length ≤ ok.length) ∧ acting = some x.lane)
        ∨ ((∀ y ∈ ok, 2 * (same y).length ≤ ok.length) ∧ (∀ y ∈ ok, acting ≠ some y.lane) ∧ ok.head? = some x)) →
      v.unrecoverable = false ∧ v.authority = LaneMask.ofList ((same x).map (·.lane))
        ∧ (∀ y ∈ rs, v.outvoted.has y.lane = !(same x).contains y)
        ∧ ∀ y ∈ rs, v.weak.has y.lane = decide (y.status = .corrected))
  ∧ (∀ (p : Part) (v : VolId),
    let members := (p.vol v).members
    let online (l : LaneId) : Prop := members.has l = true ∧ (p.lane l).runtime = .online
    ((∀ l, ¬ online l) → p.derivedState v = .lost ∧ ((p.vol v).reference ∈ members.lanes → p.actingReference v = none))
    ∧ ((∃ l, online l) → (∀ l, members.has l = true → online l) → p.derivedState v = .active)
    ∧ ((∃ l, online l) → (∃ l, members.has l = true ∧ ¬ online l) → p.derivedState v = .degraded)
    ∧ (online (p.vol v).reference → p.actingReference v = some (p.vol v).reference)
    ∧ ∀ l, (p.lane (p.vol v).reference).runtime ≠ .online → online l → (∀ k, k < l → ¬ online k) →
      p.actingReference v = some l)
  ∧ (∀ (e : EntryId) (x : Entry) (w : VerifyWork) (l : LaneId) (op : LaneOp) (res : OpEnd) (p : Part),
    op.producer = .request e → p.entry e = some x → x.work = .verify w →
    let r := x.req
    let v := r.volume
    let n := r.count.toNat
    let first := r.first.toNat
    let got := match res with
      | .completed ss _ => w.got ++ [(l, ss)]
      | .laneLost => w.got
    let q : Part := { p with table := p.table.set e.val (some { x with
      work := .verify { w with outstanding := w.outstanding - 1, got := got } }) }
    let js := (List.range n).map fun i =>
      let copies := copiesOf (p.readsOf (.request e) n i got 0 w.lanes)
      (i, copies, agree (p.actingReference v) copies)
    let lost := (js.filter fun j => j.2.2.unrecoverable).map (·.1)
    let told := passEvents (lost.map fun i => unrecoverableEvent none v (first + i) .verify r.tag) q
    let handed := if r.flags &&& 1 = 0 then told else handDiscoveries (judgedDiscoveries v first .verify r.tag js) told
    let bad := js.filter fun j => j.2.2.outvoted ≠ 0
    (2 ≤ w.outstanding → operationEnded l op res p = q)
    ∧ (w.outstanding ≤ 1 → got = [] →
      operationEnded l op res p = finish e (if p.isLost v then .lost else .refusedLane) 0 0 0 q)
    ∧ (w.outstanding ≤ 1 → got ≠ [] →
      (bad = [] → operationEnded l op res p = finish e .ok (LaneMask.ofList (got.map (·.1))) 0 0 handed)
      ∧ ∀ j rest, bad = j :: rest → operationEnded l op res p =
        finish e .different (bad.foldl (fun m j => m ||| j.2.2.outvoted) 0)
          (BitVec.ofNat 32 (bad.length + 2 ^ 16 * lost.length)) (BitVec.ofNat 32 (first + j.1)) handed))
  ∧ ∀ (v : VolId) (first : Nat) (o : Origin) (tag : Word),
    judgedDiscoveries v first o tag [] = []
    ∧ (∀ j js, judgedDiscoveries v first o tag (j :: js) =
      judgedDiscoveries v first o tag [j] ++ judgedDiscoveries v first o tag js)
    ∧ ∀ (i : Nat) (acting : Option LaneId) (rs : List Read), (rs.map (·.lane)).Pairwise (· < ·) →
      let verdict := agree acting (copiesOf rs)
      (verdict.unrecoverable = true → judgedDiscoveries v first o tag [(i, copiesOf rs, verdict)] = [])
      ∧ (verdict.unrecoverable = false → judgedDiscoveries v first o tag [(i, copiesOf rs, verdict)] =
        rs.filterMap fun x =>
          let found (k : DiscKind) : Option Discovery := some ⟨x.lane, v, first + i, k, o, tag⟩
          if x.status.readable = false then found .unreadable
          else if verdict.authority.has x.lane = false then found .mismatch
          else if x.status = .corrected then found .weak
          else none)

/-- Commit requests by the engine state and the committer's state (R58), and what a start and a finish do to the marks and the
commit (R46, R59, R62, R63): a start clears commit-requested, raises the generation unless the set serial is 0, and binds what
waits; a finish releases what is bound, and a commit requested meanwhile starts at once, so requests coalesce. The generation after
the largest is a free value (log 13). Each target's record is built at the start, every field as it stands (R56), and its block
(the byte places: log 11) ends with the check code over the bytes before. The finish waits for a departure that a faulted write has asked for (log 15). -/
def Obligations.CommitRequestsCoalesce : Prop :=
  (∀ p : Part,
    (p.engine.state = .detached → requestCommit p = p)
    ∧ (p.engine.state = .attaching → p.engine.attach ≠ .firstCommits → requestCommit p = p)
    ∧ (p.engine.state = .faulted → requestCommit p = { p with committer := { p.committer with requested := true } })
    ∧ ((p.engine.state = .attaching ∧ p.engine.attach = .firstCommits)
        ∨ p.engine.state ∈ [.running, .halting, .halted, .detaching] →
      (p.committer.inFlight = none → requestCommit p = startCommit p)
      ∧ (p.committer.inFlight ≠ none → requestCommit p = { p with committer := { p.committer with requested := true } })))
  ∧ (∀ p : Part, p.serviceableMask ≠ 0 →
    let q := startCommit p
    q.committer.requested = false
    ∧ q.committer.generation =
      (if p.committer.serial = 0 then p.committer.generation
       else if p.committer.generation = BitVec.allOnes 64 then Config.generationAfterLast else p.committer.generation + 1)
    ∧ (∃ k, q.committer.inFlight = some k ∧ k.generation = q.committer.generation ∧ k.clean = p.committer.clean
      ∧ (∀ l, k.targets.has l = p.serviceable l) ∧ ∀ l : LaneId, k.ends[l.val] = .pending)
    ∧ (∀ v, (q.vol v).hold = if (p.vol v).hold = .waiting then .bound else (p.vol v).hold)
    ∧ (∀ e x, p.entry e = some x → ∃ y, q.entry e = some y ∧ y.mark = if x.mark = .waiting then .bound else x.mark))
  ∧ (∀ (p : Part) (l : LaneId), p.serviceable l = true →
    let r := p.buildRecord (startCommit p).committer.generation l
    (startCommit p).committer.buffers[l.val] = some r.block
    ∧ r.serial = p.committer.serial ∧ r.generation = (startCommit p).committer.generation ∧ r.clean = p.committer.clean
    ∧ (∀ k : LaneId, r.lanes[k.val] = ⟨(p.lane k).recorded, (p.lane k).boundSerial, (p.lane k).budget⟩)
    ∧ (∀ x, x ∈ r.volumes ↔ ∃ v, (p.vol v).inUse = true ∧ (p.vol v).state ≠ .filling ∧ x = ⟨v, (p.vol v).members,
        (p.vol v).reference, (p.vol v).policy, (p.vol v).first, (p.vol v).length, (p.vol v).label⟩)
    ∧ (r.volumes.map (·.number)).Pairwise (· < ·)
    ∧ r.plan = p.patrol.plan ∧ r.patrol = p.patrol.state ∧ r.checkpoint = p.patrol.checkpoint ∧ r.position = l
    ∧ r.remap = (p.lane l).remap ∧ r.spareNext = (p.lane l).spareNext ∧ r.deadSpares = (p.lane l).deadSpares)
  ∧ (∀ r : SetRecord, r.fieldBytes.length ≤ 4094 → r.block.length = 4096
    ∧ r.block.take r.fieldBytes.length = r.fieldBytes ∧ r.block.take 4 = [0x45, 0x5A, 0x52, 0x31]
    ∧ (∀ i, r.fieldBytes.length ≤ i → i < 4094 → byteAt r.block i = 0)
    ∧ fieldAt r.block 4094 2 = (crc (r.block.take 4094)).toNat)
  ∧ ∀ (p : Part) (k : Commit), p.committer.inFlight = some k →
    ((∃ l : LaneId, k.targets.has l = true ∧ (k.ends[l.val] = .pending ∨ k.ends[l.val] = .faultAsked)) → commitTest p = p)
    ∧ ((∀ l : LaneId, k.targets.has l = true → k.ends[l.val] ≠ .pending ∧ k.ends[l.val] ≠ .faultAsked) →
      (p.committer.requested = true → commitTest p = startCommit (releaseCommit p))
      ∧ (p.committer.requested = false → commitTest p = releaseCommit p)
      ∧ (releaseCommit p).committer.inFlight = none
      ∧ (∀ v, ((releaseCommit p).vol v).hold = if (p.vol v).hold = .bound then .none else (p.vol v).hold)
      ∧ ∀ e x, p.entry e = some x →
        ∃ y, (releaseCommit p).entry e = some y ∧ y.mark = if x.mark = .bound then .none else x.mark)

/-- The admission of a discovery, tests in order (R122, R124 to R126): discarded for a lane or volume that is gone; merged into
the entry of its key; placed at the back with the counter's number while fewer than 32 stand; dropped from a full list, with a
LIST_FULL event at the start of an episode, when its origin is READ, VERIFY or REBUILD; held as the room waiter's when it is
PATROL or RECOVERY. The repair of an entry: the ends of its operations by phase, the judgement of the revote, the rewrite under
the departure hold, and the end, which releases, removes the entry and passes the event (R129 to R134). That a lane left alone
within a further pass, the lowest one having failed there, is read again is log 35. -/
def Obligations.DiscoveriesAreAdmittedInOrder : Prop :=
  (∀ (d : Discovery) (p : Part),
    let r := p.repair
    let gone : Prop := p.online d.lane = false ∨ (p.vol d.volume).inUse = false ∨ (p.vol d.volume).state = .filling
    let key (x : DiscEntry) : Prop := x.lane = d.lane ∧ x.volume = d.volume ∧ x.block = d.block
    let patrols : Prop := d.origin = .patrol ∨ d.origin = .recovery
    (gone → admitDiscovery d p = p)
    ∧ (¬ gone → (∃ x ∈ r.list, key x) →
      admitDiscovery d p = { p with repair := { r with
        list := r.list.map fun x =>
          if x.lane = d.lane && x.volume = d.volume && x.block = d.block then { x with kind := x.kind.worse d.kind } else x } })
    ∧ (¬ gone → (∀ x ∈ r.list, ¬ key x) →
      (r.list.length < 32 → admitDiscovery d p = { p with
        repair := { r with
          list := r.list ++ [⟨d.lane, d.volume, d.block, d.kind, d.origin, r.counter, false⟩], counter := r.counter + 1 }
        patrol := if d.origin = .patrol ∨ d.origin = .recovery then { p.patrol with made := satInc p.patrol.made } else p.patrol
        agenda := p.agenda ++ [.repairTake, .patrolTry] })
      ∧ (32 ≤ r.list.length → patrols → p.engine.state ≠ .halting →
        admitDiscovery d p = { p with repair := { r with waiter := r.waiter ++ [d] } })
      ∧ (32 ≤ r.list.length → ¬ patrols →
        (r.episode = true → admitDiscovery d p = { p with repair := { r with dropped := satInc r.dropped } })
        ∧ (r.episode = false →
          admitDiscovery d p = passEvent (listFullEvent d (satInc r.dropped))
            { p with repair := { r with dropped := satInc r.dropped, episode := true } }))))
  ∧ (∀ (l : LaneId) (op : LaneOp) (r : OpEnd) (w : RepairWork) (p : Part), op.producer = .repair →
    p.repair.work = some w →
    let u : RepairWork := { w with outstanding := false, current := none }
    let q (u : RepairWork) : Part := { p with repair := { p.repair with work := some u } }
    let block := (p.vol w.volume).first + w.block
    (w.gone = true → operationEnded l op r p = repairLeave (q u))
    ∧ (w.gone = false → r = .laneLost →
      (w.phase = .revote ∨ w.phase = .content → operationEnded l op r p =
        (q { u with votes := w.votes.filter fun x => x.lane ≠ l }).push [.repairGo])
      ∧ (w.phase = .rewrite ∨ w.phase = .readback ∨ w.phase = .remap → operationEnded l op r p = repairGone (q u)))
    ∧ ∀ st ss remapped, w.gone = false → r = .completed (st :: ss) remapped →
      (w.phase = .revote → operationEnded l op r p =
        (q (u.readEnded l st (p.buffer p.bufA) (p.buffer p.bufB))).push [.repairGo])
      ∧ (w.phase = .content → st.readable = false → operationEnded l op r p =
        (q (u.modVote l fun x => { x with status := .failed, group := none })).push [.repairGo])
      ∧ (w.phase = .content → st.readable = true → operationEnded l op r p =
        repairHold (q { u.modVote l (fun x => { x with weak := x.weak || decide (st = .corrected) }) with
          aGroup := (w.votes.find? fun x => x.lane = l).bind (·.group), phase := .hold }))
      ∧ (w.phase = .rewrite → p.online w.lane = false → operationEnded l op r p = repairGone (q u))
      ∧ (w.phase = .rewrite → p.online w.lane = true → operationEnded l op r p =
        enqueue w.lane ⟨.background, .read, block, 1, [.staging p.bufB], .repair, false⟩
          (q { u with phase := .readback, remapped := remapped, outstanding := true }))
      ∧ (w.phase = .readback → st = .good → sameBlock (p.buffer p.bufA) (p.buffer p.bufB) = true →
        operationEnded l op r p = repairDone u (if w.remapped then methodRemap else methodRewrite) (q u))
      ∧ (w.phase = .readback → st ≠ .good ∨ sameBlock (p.buffer p.bufA) (p.buffer p.bufB) = false →
        operationEnded l op r p = repairHold (q { u with phase := .remap }))
      ∧ (w.phase = .remap → operationEnded l op r p = repairDone u methodRemap (q u)))
  ∧ (∀ (w : RepairWork) (p : Part), p.repair.work = some w → w.gone = false → w.outstanding = false →
    let verdict := agree (p.actingReference w.volume) w.copies
    let q (u : RepairWork) : Part := { p with repair := { p.repair with work := some u } }
    let bad : Prop := verdict.outvoted.has w.lane = true ∨ verdict.weak.has w.lane = true
    let unplaced := (w.votes.filter fun x => x.status = .readable && x.group.isNone).map (·.lane)
    w.copies = w.votes.map (fun x => ⟨x.lane, decide (x.status = .readable), x.weak, x.group.getD x.lane⟩)
    ∧ (w.phase = .revote → w.todo = [] →
      (2 ≤ unplaced.length → repairGo p = (q { w with todo := unplaced, rep := none }).push [.repairGo])
      ∧ ∀ m, unplaced = [m] → repairGo p =
        repairGo (q { w with votes := w.votes.map fun x => if x.lane = m then { x with group := some m } else x }))
    ∧ (w.phase = .revote → ∀ m rest, w.todo = m :: rest →
      (p.online m = false → repairGo p =
        (q { w with votes := w.votes.filter (fun x => x.lane ≠ m), todo := rest }).push [.repairGo])
      ∧ (p.online m = true → repairGo p =
        enqueue m ⟨.background, .read, (p.vol w.volume).first + w.block, 1,
          [.staging (if w.rep = none then p.bufA else p.bufB)], .repair, false⟩
          (q { w with todo := rest, current := some m, outstanding := true })))
    ∧ ((w.phase = .revote ∧ w.todo = [] ∧ unplaced = []) ∨ w.phase = .content →
      ((∀ x ∈ w.votes, x.lane ≠ w.lane) → repairGo p = repairGone p)
      ∧ ((∃ x ∈ w.votes, x.lane = w.lane) →
        (verdict.group = none → repairGo p = repairLost w p)
        ∧ ∀ g, verdict.group = some g →
          (¬ bad → repairGo p = repairDone w methodResolved p)
          ∧ (bad → w.aGroup = some g → repairGo p = repairHold (q { w with phase := .hold }))
          ∧ ∀ m rest, bad → w.aGroup ≠ some g → verdict.authority.lanes = m :: rest → p.online m = true →
            repairGo p = enqueue m ⟨.background, .read, (p.vol w.volume).first + w.block, 1, [.staging p.bufA], .repair, false⟩
              (q { w with phase := .content, current := some m, outstanding := true })))
    ∧ (w.phase = .hold ∨ w.phase = .remap →
      ((p.vol w.volume).hold ≠ .none → repairHold p = p)
      ∧ ((p.vol w.volume).hold = .none → p.online w.lane = false → repairHold p = repairGone p)
      ∧ ((p.vol w.volume).hold = .none → p.online w.lane = true →
        repairHold p = enqueue w.lane ⟨.background, .write, (p.vol w.volume).first + w.block, 1, [.staging p.bufA], .repair,
            decide (w.phase = .remap)⟩
          (q { w with outstanding := true, phase := if w.phase = .hold then .rewrite else .remap }))))
  ∧ (∀ (w : RepairWork) (l : LaneId) (st : Status) (a b : Block),
    let voted (f : Vote → Vote) : List Vote := w.votes.map fun x => if x.lane = l then f x else x
    let read (x : Vote) (group : Option LaneId) : Vote :=
      { x with status := .readable, weak := x.weak || decide (st = .corrected), group := group }
    (st.readable = false →
      w.readEnded l st a b = { w with votes := voted fun x => { x with status := .failed, group := none } })
    ∧ (st.readable = true → w.rep = none → w.readEnded l st a b =
      { w with votes := voted (fun x => read x (some l)), rep := some l, aGroup := some l })
    ∧ ∀ m, st.readable = true → w.rep = some m → w.readEnded l st a b =
      { w with votes := voted fun x => read x (if sameBlock a b then some m else none) })
  ∧ ∀ (w : RepairWork) (p : Part), p.repair.work = some w →
    let idle := releaseAll .repair { p with repair := { p.repair with work := none } }
    let key (x : DiscEntry) : Bool := x.lane = w.lane && x.volume = w.volume && x.block = w.block
    (∀ method, repairDone w method p =
      (passEvent (repairedEvent w.lane w.volume w.block method w.origin w.number) (removeEntries key idle)).push [.repairTake])
    ∧ repairLost w p =
      (passEvent (unrecoverableRepairEvent w.lane w.volume w.block w.origin w.number) (removeEntries key idle)).push
        [.repairTake]
    ∧ (w.outstanding = false → repairGone p = idle.push [.repairTake])
end

