-- ==== Sys2Proof/Laws/State.lean ====
section
/-!
SUPPORT. One lemma per field per update of the part: what each named update writes, and that it leaves every other field.
-/
namespace Sys2Proof.Machine

variable (p : Part)

/-! ### Part.setLane -/

@[simp] theorem Part.setLane_engine (l : LaneId) (x : Lane) : (p.setLane l x).engine = p.engine := rfl
@[simp] theorem Part.setLane_docket (l : LaneId) (x : Lane) : (p.setLane l x).docket = p.docket := rfl
@[simp] theorem Part.setLane_table (l : LaneId) (x : Lane) : (p.setLane l x).table = p.table := rfl
@[simp] theorem Part.setLane_volumes (l : LaneId) (x : Lane) : (p.setLane l x).volumes = p.volumes := rfl
@[simp] theorem Part.setLane_frozen (l : LaneId) (x : Lane) : (p.setLane l x).frozen = p.frozen := rfl
@[simp] theorem Part.setLane_locks (l : LaneId) (x : Lane) : (p.setLane l x).locks = p.locks := rfl
@[simp] theorem Part.setLane_pool (l : LaneId) (x : Lane) : (p.setLane l x).pool = p.pool := rfl
@[simp] theorem Part.setLane_lanes (l : LaneId) (x : Lane) : (p.setLane l x).lanes = p.lanes.set l.val x := rfl
@[simp] theorem Part.setLane_committer (l : LaneId) (x : Lane) : (p.setLane l x).committer = p.committer := rfl
@[simp] theorem Part.setLane_repair (l : LaneId) (x : Lane) : (p.setLane l x).repair = p.repair := rfl
@[simp] theorem Part.setLane_patrol (l : LaneId) (x : Lane) : (p.setLane l x).patrol = p.patrol := rfl
@[simp] theorem Part.setLane_rebuild (l : LaneId) (x : Lane) : (p.setLane l x).rebuild = p.rebuild := rfl
@[simp] theorem Part.setLane_journal (l : LaneId) (x : Lane) : (p.setLane l x).journal = p.journal := rfl
@[simp] theorem Part.setLane_interrupt (l : LaneId) (x : Lane) : (p.setLane l x).interrupt = p.interrupt := rfl
@[simp] theorem Part.setLane_free (l : LaneId) (x : Lane) : (p.setLane l x).free = p.free := rfl
@[simp] theorem Part.setLane_agenda (l : LaneId) (x : Lane) : (p.setLane l x).agenda = p.agenda := rfl

/-! ### Part.modLane -/

@[simp] theorem Part.modLane_engine (l : LaneId) (f : Lane → Lane) : (p.modLane l f).engine = p.engine := rfl
@[simp] theorem Part.modLane_docket (l : LaneId) (f : Lane → Lane) : (p.modLane l f).docket = p.docket := rfl
@[simp] theorem Part.modLane_table (l : LaneId) (f : Lane → Lane) : (p.modLane l f).table = p.table := rfl
@[simp] theorem Part.modLane_volumes (l : LaneId) (f : Lane → Lane) : (p.modLane l f).volumes = p.volumes := rfl
@[simp] theorem Part.modLane_frozen (l : LaneId) (f : Lane → Lane) : (p.modLane l f).frozen = p.frozen := rfl
@[simp] theorem Part.modLane_locks (l : LaneId) (f : Lane → Lane) : (p.modLane l f).locks = p.locks := rfl
@[simp] theorem Part.modLane_pool (l : LaneId) (f : Lane → Lane) : (p.modLane l f).pool = p.pool := rfl
@[simp] theorem Part.modLane_lanes (l : LaneId) (f : Lane → Lane) : (p.modLane l f).lanes = p.lanes.set l.val (f (p.lane l)) := rfl
@[simp] theorem Part.modLane_committer (l : LaneId) (f : Lane → Lane) : (p.modLane l f).committer = p.committer := rfl
@[simp] theorem Part.modLane_repair (l : LaneId) (f : Lane → Lane) : (p.modLane l f).repair = p.repair := rfl
@[simp] theorem Part.modLane_patrol (l : LaneId) (f : Lane → Lane) : (p.modLane l f).patrol = p.patrol := rfl
@[simp] theorem Part.modLane_rebuild (l : LaneId) (f : Lane → Lane) : (p.modLane l f).rebuild = p.rebuild := rfl
@[simp] theorem Part.modLane_journal (l : LaneId) (f : Lane → Lane) : (p.modLane l f).journal = p.journal := rfl
@[simp] theorem Part.modLane_interrupt (l : LaneId) (f : Lane → Lane) : (p.modLane l f).interrupt = p.interrupt := rfl
@[simp] theorem Part.modLane_free (l : LaneId) (f : Lane → Lane) : (p.modLane l f).free = p.free := rfl
@[simp] theorem Part.modLane_agenda (l : LaneId) (f : Lane → Lane) : (p.modLane l f).agenda = p.agenda := rfl

/-! ### Part.mapLanes -/

@[simp] theorem Part.mapLanes_engine (f : Lane → Lane) : (p.mapLanes f).engine = p.engine := rfl
@[simp] theorem Part.mapLanes_docket (f : Lane → Lane) : (p.mapLanes f).docket = p.docket := rfl
@[simp] theorem Part.mapLanes_table (f : Lane → Lane) : (p.mapLanes f).table = p.table := rfl
@[simp] theorem Part.mapLanes_volumes (f : Lane → Lane) : (p.mapLanes f).volumes = p.volumes := rfl
@[simp] theorem Part.mapLanes_frozen (f : Lane → Lane) : (p.mapLanes f).frozen = p.frozen := rfl
@[simp] theorem Part.mapLanes_locks (f : Lane → Lane) : (p.mapLanes f).locks = p.locks := rfl
@[simp] theorem Part.mapLanes_pool (f : Lane → Lane) : (p.mapLanes f).pool = p.pool := rfl
@[simp] theorem Part.mapLanes_lanes (f : Lane → Lane) : (p.mapLanes f).lanes = p.lanes.map f := rfl
@[simp] theorem Part.mapLanes_committer (f : Lane → Lane) : (p.mapLanes f).committer = p.committer := rfl
@[simp] theorem Part.mapLanes_repair (f : Lane → Lane) : (p.mapLanes f).repair = p.repair := rfl
@[simp] theorem Part.mapLanes_patrol (f : Lane → Lane) : (p.mapLanes f).patrol = p.patrol := rfl
@[simp] theorem Part.mapLanes_rebuild (f : Lane → Lane) : (p.mapLanes f).rebuild = p.rebuild := rfl
@[simp] theorem Part.mapLanes_journal (f : Lane → Lane) : (p.mapLanes f).journal = p.journal := rfl
@[simp] theorem Part.mapLanes_interrupt (f : Lane → Lane) : (p.mapLanes f).interrupt = p.interrupt := rfl
@[simp] theorem Part.mapLanes_free (f : Lane → Lane) : (p.mapLanes f).free = p.free := rfl
@[simp] theorem Part.mapLanes_agenda (f : Lane → Lane) : (p.mapLanes f).agenda = p.agenda := rfl

/-! ### Part.setVol -/

@[simp] theorem Part.setVol_engine (v : VolId) (x : Volume) : (p.setVol v x).engine = p.engine := rfl
@[simp] theorem Part.setVol_docket (v : VolId) (x : Volume) : (p.setVol v x).docket = p.docket := rfl
@[simp] theorem Part.setVol_table (v : VolId) (x : Volume) : (p.setVol v x).table = p.table := rfl
@[simp] theorem Part.setVol_volumes (v : VolId) (x : Volume) : (p.setVol v x).volumes = p.volumes.set v.val x := rfl
@[simp] theorem Part.setVol_frozen (v : VolId) (x : Volume) : (p.setVol v x).frozen = p.frozen := rfl
@[simp] theorem Part.setVol_locks (v : VolId) (x : Volume) : (p.setVol v x).locks = p.locks := rfl
@[simp] theorem Part.setVol_pool (v : VolId) (x : Volume) : (p.setVol v x).pool = p.pool := rfl
@[simp] theorem Part.setVol_lanes (v : VolId) (x : Volume) : (p.setVol v x).lanes = p.lanes := rfl
@[simp] theorem Part.setVol_committer (v : VolId) (x : Volume) : (p.setVol v x).committer = p.committer := rfl
@[simp] theorem Part.setVol_repair (v : VolId) (x : Volume) : (p.setVol v x).repair = p.repair := rfl
@[simp] theorem Part.setVol_patrol (v : VolId) (x : Volume) : (p.setVol v x).patrol = p.patrol := rfl
@[simp] theorem Part.setVol_rebuild (v : VolId) (x : Volume) : (p.setVol v x).rebuild = p.rebuild := rfl
@[simp] theorem Part.setVol_journal (v : VolId) (x : Volume) : (p.setVol v x).journal = p.journal := rfl
@[simp] theorem Part.setVol_interrupt (v : VolId) (x : Volume) : (p.setVol v x).interrupt = p.interrupt := rfl
@[simp] theorem Part.setVol_free (v : VolId) (x : Volume) : (p.setVol v x).free = p.free := rfl
@[simp] theorem Part.setVol_agenda (v : VolId) (x : Volume) : (p.setVol v x).agenda = p.agenda := rfl

/-! ### Part.modVol -/

@[simp] theorem Part.modVol_engine (v : VolId) (f : Volume → Volume) : (p.modVol v f).engine = p.engine := rfl
@[simp] theorem Part.modVol_docket (v : VolId) (f : Volume → Volume) : (p.modVol v f).docket = p.docket := rfl
@[simp] theorem Part.modVol_table (v : VolId) (f : Volume → Volume) : (p.modVol v f).table = p.table := rfl
@[simp] theorem Part.modVol_volumes (v : VolId) (f : Volume → Volume) : (p.modVol v f).volumes = p.volumes.set v.val (f (p.vol v)) := rfl
@[simp] theorem Part.modVol_frozen (v : VolId) (f : Volume → Volume) : (p.modVol v f).frozen = p.frozen := rfl
@[simp] theorem Part.modVol_locks (v : VolId) (f : Volume → Volume) : (p.modVol v f).locks = p.locks := rfl
@[simp] theorem Part.modVol_pool (v : VolId) (f : Volume → Volume) : (p.modVol v f).pool = p.pool := rfl
@[simp] theorem Part.modVol_lanes (v : VolId) (f : Volume → Volume) : (p.modVol v f).lanes = p.lanes := rfl
@[simp] theorem Part.modVol_committer (v : VolId) (f : Volume → Volume) : (p.modVol v f).committer = p.committer := rfl
@[simp] theorem Part.modVol_repair (v : VolId) (f : Volume → Volume) : (p.modVol v f).repair = p.repair := rfl
@[simp] theorem Part.modVol_patrol (v : VolId) (f : Volume → Volume) : (p.modVol v f).patrol = p.patrol := rfl
@[simp] theorem Part.modVol_rebuild (v : VolId) (f : Volume → Volume) : (p.modVol v f).rebuild = p.rebuild := rfl
@[simp] theorem Part.modVol_journal (v : VolId) (f : Volume → Volume) : (p.modVol v f).journal = p.journal := rfl
@[simp] theorem Part.modVol_interrupt (v : VolId) (f : Volume → Volume) : (p.modVol v f).interrupt = p.interrupt := rfl
@[simp] theorem Part.modVol_free (v : VolId) (f : Volume → Volume) : (p.modVol v f).free = p.free := rfl
@[simp] theorem Part.modVol_agenda (v : VolId) (f : Volume → Volume) : (p.modVol v f).agenda = p.agenda := rfl

/-! ### Part.setEntry -/

@[simp] theorem Part.setEntry_engine (e : EntryId) (x : Option Entry) : (p.setEntry e x).engine = p.engine := rfl
@[simp] theorem Part.setEntry_docket (e : EntryId) (x : Option Entry) : (p.setEntry e x).docket = p.docket := rfl
@[simp] theorem Part.setEntry_table (e : EntryId) (x : Option Entry) : (p.setEntry e x).table = p.table.set e.val x := rfl
@[simp] theorem Part.setEntry_volumes (e : EntryId) (x : Option Entry) : (p.setEntry e x).volumes = p.volumes := rfl
@[simp] theorem Part.setEntry_frozen (e : EntryId) (x : Option Entry) : (p.setEntry e x).frozen = p.frozen := rfl
@[simp] theorem Part.setEntry_locks (e : EntryId) (x : Option Entry) : (p.setEntry e x).locks = p.locks := rfl
@[simp] theorem Part.setEntry_pool (e : EntryId) (x : Option Entry) : (p.setEntry e x).pool = p.pool := rfl
@[simp] theorem Part.setEntry_lanes (e : EntryId) (x : Option Entry) : (p.setEntry e x).lanes = p.lanes := rfl
@[simp] theorem Part.setEntry_committer (e : EntryId) (x : Option Entry) : (p.setEntry e x).committer = p.committer := rfl
@[simp] theorem Part.setEntry_repair (e : EntryId) (x : Option Entry) : (p.setEntry e x).repair = p.repair := rfl
@[simp] theorem Part.setEntry_patrol (e : EntryId) (x : Option Entry) : (p.setEntry e x).patrol = p.patrol := rfl
@[simp] theorem Part.setEntry_rebuild (e : EntryId) (x : Option Entry) : (p.setEntry e x).rebuild = p.rebuild := rfl
@[simp] theorem Part.setEntry_journal (e : EntryId) (x : Option Entry) : (p.setEntry e x).journal = p.journal := rfl
@[simp] theorem Part.setEntry_interrupt (e : EntryId) (x : Option Entry) : (p.setEntry e x).interrupt = p.interrupt := rfl
@[simp] theorem Part.setEntry_free (e : EntryId) (x : Option Entry) : (p.setEntry e x).free = p.free := rfl
@[simp] theorem Part.setEntry_agenda (e : EntryId) (x : Option Entry) : (p.setEntry e x).agenda = p.agenda := rfl

/-! ### Part.modEntry -/

@[simp] theorem Part.modEntry_engine (e : EntryId) (f : Entry → Entry) : (p.modEntry e f).engine = p.engine := rfl
@[simp] theorem Part.modEntry_docket (e : EntryId) (f : Entry → Entry) : (p.modEntry e f).docket = p.docket := rfl
@[simp] theorem Part.modEntry_table (e : EntryId) (f : Entry → Entry) : (p.modEntry e f).table = p.table.set e.val ((p.entry e).map f) := rfl
@[simp] theorem Part.modEntry_volumes (e : EntryId) (f : Entry → Entry) : (p.modEntry e f).volumes = p.volumes := rfl
@[simp] theorem Part.modEntry_frozen (e : EntryId) (f : Entry → Entry) : (p.modEntry e f).frozen = p.frozen := rfl
@[simp] theorem Part.modEntry_locks (e : EntryId) (f : Entry → Entry) : (p.modEntry e f).locks = p.locks := rfl
@[simp] theorem Part.modEntry_pool (e : EntryId) (f : Entry → Entry) : (p.modEntry e f).pool = p.pool := rfl
@[simp] theorem Part.modEntry_lanes (e : EntryId) (f : Entry → Entry) : (p.modEntry e f).lanes = p.lanes := rfl
@[simp] theorem Part.modEntry_committer (e : EntryId) (f : Entry → Entry) : (p.modEntry e f).committer = p.committer := rfl
@[simp] theorem Part.modEntry_repair (e : EntryId) (f : Entry → Entry) : (p.modEntry e f).repair = p.repair := rfl
@[simp] theorem Part.modEntry_patrol (e : EntryId) (f : Entry → Entry) : (p.modEntry e f).patrol = p.patrol := rfl
@[simp] theorem Part.modEntry_rebuild (e : EntryId) (f : Entry → Entry) : (p.modEntry e f).rebuild = p.rebuild := rfl
@[simp] theorem Part.modEntry_journal (e : EntryId) (f : Entry → Entry) : (p.modEntry e f).journal = p.journal := rfl
@[simp] theorem Part.modEntry_interrupt (e : EntryId) (f : Entry → Entry) : (p.modEntry e f).interrupt = p.interrupt := rfl
@[simp] theorem Part.modEntry_free (e : EntryId) (f : Entry → Entry) : (p.modEntry e f).free = p.free := rfl
@[simp] theorem Part.modEntry_agenda (e : EntryId) (f : Entry → Entry) : (p.modEntry e f).agenda = p.agenda := rfl

/-! ### Part.setBuffer -/

@[simp] theorem Part.setBuffer_engine (b : BufId) (x : Block) : (p.setBuffer b x).engine = p.engine := rfl
@[simp] theorem Part.setBuffer_docket (b : BufId) (x : Block) : (p.setBuffer b x).docket = p.docket := rfl
@[simp] theorem Part.setBuffer_table (b : BufId) (x : Block) : (p.setBuffer b x).table = p.table := rfl
@[simp] theorem Part.setBuffer_volumes (b : BufId) (x : Block) : (p.setBuffer b x).volumes = p.volumes := rfl
@[simp] theorem Part.setBuffer_frozen (b : BufId) (x : Block) : (p.setBuffer b x).frozen = p.frozen := rfl
@[simp] theorem Part.setBuffer_locks (b : BufId) (x : Block) : (p.setBuffer b x).locks = p.locks := rfl
@[simp] theorem Part.setBuffer_pool (b : BufId) (x : Block) : (p.setBuffer b x).pool = { p.pool with data := p.pool.data.set b.val x } := rfl
@[simp] theorem Part.setBuffer_lanes (b : BufId) (x : Block) : (p.setBuffer b x).lanes = p.lanes := rfl
@[simp] theorem Part.setBuffer_committer (b : BufId) (x : Block) : (p.setBuffer b x).committer = p.committer := rfl
@[simp] theorem Part.setBuffer_repair (b : BufId) (x : Block) : (p.setBuffer b x).repair = p.repair := rfl
@[simp] theorem Part.setBuffer_patrol (b : BufId) (x : Block) : (p.setBuffer b x).patrol = p.patrol := rfl
@[simp] theorem Part.setBuffer_rebuild (b : BufId) (x : Block) : (p.setBuffer b x).rebuild = p.rebuild := rfl
@[simp] theorem Part.setBuffer_journal (b : BufId) (x : Block) : (p.setBuffer b x).journal = p.journal := rfl
@[simp] theorem Part.setBuffer_interrupt (b : BufId) (x : Block) : (p.setBuffer b x).interrupt = p.interrupt := rfl
@[simp] theorem Part.setBuffer_free (b : BufId) (x : Block) : (p.setBuffer b x).free = p.free := rfl
@[simp] theorem Part.setBuffer_agenda (b : BufId) (x : Block) : (p.setBuffer b x).agenda = p.agenda := rfl

/-! ### Part.push -/

@[simp] theorem Part.push_engine (ts : List Task) : (p.push ts).engine = p.engine := rfl
@[simp] theorem Part.push_docket (ts : List Task) : (p.push ts).docket = p.docket := rfl
@[simp] theorem Part.push_table (ts : List Task) : (p.push ts).table = p.table := rfl
@[simp] theorem Part.push_volumes (ts : List Task) : (p.push ts).volumes = p.volumes := rfl
@[simp] theorem Part.push_frozen (ts : List Task) : (p.push ts).frozen = p.frozen := rfl
@[simp] theorem Part.push_locks (ts : List Task) : (p.push ts).locks = p.locks := rfl
@[simp] theorem Part.push_pool (ts : List Task) : (p.push ts).pool = p.pool := rfl
@[simp] theorem Part.push_lanes (ts : List Task) : (p.push ts).lanes = p.lanes := rfl
@[simp] theorem Part.push_committer (ts : List Task) : (p.push ts).committer = p.committer := rfl
@[simp] theorem Part.push_repair (ts : List Task) : (p.push ts).repair = p.repair := rfl
@[simp] theorem Part.push_patrol (ts : List Task) : (p.push ts).patrol = p.patrol := rfl
@[simp] theorem Part.push_rebuild (ts : List Task) : (p.push ts).rebuild = p.rebuild := rfl
@[simp] theorem Part.push_journal (ts : List Task) : (p.push ts).journal = p.journal := rfl
@[simp] theorem Part.push_interrupt (ts : List Task) : (p.push ts).interrupt = p.interrupt := rfl
@[simp] theorem Part.push_free (ts : List Task) : (p.push ts).free = p.free := rfl
@[simp] theorem Part.push_agenda (ts : List Task) : (p.push ts).agenda = p.agenda ++ ts := rfl

/-! ### Part.modEngine -/

@[simp] theorem Part.modEngine_engine (f : Engine → Engine) : (p.modEngine f).engine = f p.engine := rfl
@[simp] theorem Part.modEngine_docket (f : Engine → Engine) : (p.modEngine f).docket = p.docket := rfl
@[simp] theorem Part.modEngine_table (f : Engine → Engine) : (p.modEngine f).table = p.table := rfl
@[simp] theorem Part.modEngine_volumes (f : Engine → Engine) : (p.modEngine f).volumes = p.volumes := rfl
@[simp] theorem Part.modEngine_frozen (f : Engine → Engine) : (p.modEngine f).frozen = p.frozen := rfl
@[simp] theorem Part.modEngine_locks (f : Engine → Engine) : (p.modEngine f).locks = p.locks := rfl
@[simp] theorem Part.modEngine_pool (f : Engine → Engine) : (p.modEngine f).pool = p.pool := rfl
@[simp] theorem Part.modEngine_lanes (f : Engine → Engine) : (p.modEngine f).lanes = p.lanes := rfl
@[simp] theorem Part.modEngine_committer (f : Engine → Engine) : (p.modEngine f).committer = p.committer := rfl
@[simp] theorem Part.modEngine_repair (f : Engine → Engine) : (p.modEngine f).repair = p.repair := rfl
@[simp] theorem Part.modEngine_patrol (f : Engine → Engine) : (p.modEngine f).patrol = p.patrol := rfl
@[simp] theorem Part.modEngine_rebuild (f : Engine → Engine) : (p.modEngine f).rebuild = p.rebuild := rfl
@[simp] theorem Part.modEngine_journal (f : Engine → Engine) : (p.modEngine f).journal = p.journal := rfl
@[simp] theorem Part.modEngine_interrupt (f : Engine → Engine) : (p.modEngine f).interrupt = p.interrupt := rfl
@[simp] theorem Part.modEngine_free (f : Engine → Engine) : (p.modEngine f).free = p.free := rfl
@[simp] theorem Part.modEngine_agenda (f : Engine → Engine) : (p.modEngine f).agenda = p.agenda := rfl

/-! ### Part.modPatrol -/

@[simp] theorem Part.modPatrol_engine (f : Patrol → Patrol) : (p.modPatrol f).engine = p.engine := rfl
@[simp] theorem Part.modPatrol_docket (f : Patrol → Patrol) : (p.modPatrol f).docket = p.docket := rfl
@[simp] theorem Part.modPatrol_table (f : Patrol → Patrol) : (p.modPatrol f).table = p.table := rfl
@[simp] theorem Part.modPatrol_volumes (f : Patrol → Patrol) : (p.modPatrol f).volumes = p.volumes := rfl
@[simp] theorem Part.modPatrol_frozen (f : Patrol → Patrol) : (p.modPatrol f).frozen = p.frozen := rfl
@[simp] theorem Part.modPatrol_locks (f : Patrol → Patrol) : (p.modPatrol f).locks = p.locks := rfl
@[simp] theorem Part.modPatrol_pool (f : Patrol → Patrol) : (p.modPatrol f).pool = p.pool := rfl
@[simp] theorem Part.modPatrol_lanes (f : Patrol → Patrol) : (p.modPatrol f).lanes = p.lanes := rfl
@[simp] theorem Part.modPatrol_committer (f : Patrol → Patrol) : (p.modPatrol f).committer = p.committer := rfl
@[simp] theorem Part.modPatrol_repair (f : Patrol → Patrol) : (p.modPatrol f).repair = p.repair := rfl
@[simp] theorem Part.modPatrol_patrol (f : Patrol → Patrol) : (p.modPatrol f).patrol = f p.patrol := rfl
@[simp] theorem Part.modPatrol_rebuild (f : Patrol → Patrol) : (p.modPatrol f).rebuild = p.rebuild := rfl
@[simp] theorem Part.modPatrol_journal (f : Patrol → Patrol) : (p.modPatrol f).journal = p.journal := rfl
@[simp] theorem Part.modPatrol_interrupt (f : Patrol → Patrol) : (p.modPatrol f).interrupt = p.interrupt := rfl
@[simp] theorem Part.modPatrol_free (f : Patrol → Patrol) : (p.modPatrol f).free = p.free := rfl
@[simp] theorem Part.modPatrol_agenda (f : Patrol → Patrol) : (p.modPatrol f).agenda = p.agenda := rfl

/-! ### Part.modRebuild -/

@[simp] theorem Part.modRebuild_engine (f : Rebuild → Rebuild) : (p.modRebuild f).engine = p.engine := rfl
@[simp] theorem Part.modRebuild_docket (f : Rebuild → Rebuild) : (p.modRebuild f).docket = p.docket := rfl
@[simp] theorem Part.modRebuild_table (f : Rebuild → Rebuild) : (p.modRebuild f).table = p.table := rfl
@[simp] theorem Part.modRebuild_volumes (f : Rebuild → Rebuild) : (p.modRebuild f).volumes = p.volumes := rfl
@[simp] theorem Part.modRebuild_frozen (f : Rebuild → Rebuild) : (p.modRebuild f).frozen = p.frozen := rfl
@[simp] theorem Part.modRebuild_locks (f : Rebuild → Rebuild) : (p.modRebuild f).locks = p.locks := rfl
@[simp] theorem Part.modRebuild_pool (f : Rebuild → Rebuild) : (p.modRebuild f).pool = p.pool := rfl
@[simp] theorem Part.modRebuild_lanes (f : Rebuild → Rebuild) : (p.modRebuild f).lanes = p.lanes := rfl
@[simp] theorem Part.modRebuild_committer (f : Rebuild → Rebuild) : (p.modRebuild f).committer = p.committer := rfl
@[simp] theorem Part.modRebuild_repair (f : Rebuild → Rebuild) : (p.modRebuild f).repair = p.repair := rfl
@[simp] theorem Part.modRebuild_patrol (f : Rebuild → Rebuild) : (p.modRebuild f).patrol = p.patrol := rfl
@[simp] theorem Part.modRebuild_rebuild (f : Rebuild → Rebuild) : (p.modRebuild f).rebuild = f p.rebuild := rfl
@[simp] theorem Part.modRebuild_journal (f : Rebuild → Rebuild) : (p.modRebuild f).journal = p.journal := rfl
@[simp] theorem Part.modRebuild_interrupt (f : Rebuild → Rebuild) : (p.modRebuild f).interrupt = p.interrupt := rfl
@[simp] theorem Part.modRebuild_free (f : Rebuild → Rebuild) : (p.modRebuild f).free = p.free := rfl
@[simp] theorem Part.modRebuild_agenda (f : Rebuild → Rebuild) : (p.modRebuild f).agenda = p.agenda := rfl

/-! ### Part.modWork -/

@[simp] theorem Part.modWork_engine (f : RepairWork → RepairWork) : (p.modWork f).engine = p.engine := rfl
@[simp] theorem Part.modWork_docket (f : RepairWork → RepairWork) : (p.modWork f).docket = p.docket := rfl
@[simp] theorem Part.modWork_table (f : RepairWork → RepairWork) : (p.modWork f).table = p.table := rfl
@[simp] theorem Part.modWork_volumes (f : RepairWork → RepairWork) : (p.modWork f).volumes = p.volumes := rfl
@[simp] theorem Part.modWork_frozen (f : RepairWork → RepairWork) : (p.modWork f).frozen = p.frozen := rfl
@[simp] theorem Part.modWork_locks (f : RepairWork → RepairWork) : (p.modWork f).locks = p.locks := rfl
@[simp] theorem Part.modWork_pool (f : RepairWork → RepairWork) : (p.modWork f).pool = p.pool := rfl
@[simp] theorem Part.modWork_lanes (f : RepairWork → RepairWork) : (p.modWork f).lanes = p.lanes := rfl
@[simp] theorem Part.modWork_committer (f : RepairWork → RepairWork) : (p.modWork f).committer = p.committer := rfl
@[simp] theorem Part.modWork_repair (f : RepairWork → RepairWork) : (p.modWork f).repair = { p.repair with work := p.repair.work.map f } := rfl
@[simp] theorem Part.modWork_patrol (f : RepairWork → RepairWork) : (p.modWork f).patrol = p.patrol := rfl
@[simp] theorem Part.modWork_rebuild (f : RepairWork → RepairWork) : (p.modWork f).rebuild = p.rebuild := rfl
@[simp] theorem Part.modWork_journal (f : RepairWork → RepairWork) : (p.modWork f).journal = p.journal := rfl
@[simp] theorem Part.modWork_interrupt (f : RepairWork → RepairWork) : (p.modWork f).interrupt = p.interrupt := rfl
@[simp] theorem Part.modWork_free (f : RepairWork → RepairWork) : (p.modWork f).free = p.free := rfl
@[simp] theorem Part.modWork_agenda (f : RepairWork → RepairWork) : (p.modWork f).agenda = p.agenda := rfl

/-! ### raiseMessage -/

@[simp] theorem raiseMessage_engine : (raiseMessage p).engine = p.engine := rfl
@[simp] theorem raiseMessage_docket : (raiseMessage p).docket = p.docket := rfl
@[simp] theorem raiseMessage_table : (raiseMessage p).table = p.table := rfl
@[simp] theorem raiseMessage_volumes : (raiseMessage p).volumes = p.volumes := rfl
@[simp] theorem raiseMessage_frozen : (raiseMessage p).frozen = p.frozen := rfl
@[simp] theorem raiseMessage_locks : (raiseMessage p).locks = p.locks := rfl
@[simp] theorem raiseMessage_pool : (raiseMessage p).pool = p.pool := rfl
@[simp] theorem raiseMessage_lanes : (raiseMessage p).lanes = p.lanes := rfl
@[simp] theorem raiseMessage_committer : (raiseMessage p).committer = p.committer := rfl
@[simp] theorem raiseMessage_repair : (raiseMessage p).repair = p.repair := rfl
@[simp] theorem raiseMessage_patrol : (raiseMessage p).patrol = p.patrol := rfl
@[simp] theorem raiseMessage_rebuild : (raiseMessage p).rebuild = p.rebuild := rfl
@[simp] theorem raiseMessage_journal : (raiseMessage p).journal = p.journal := rfl
@[simp] theorem raiseMessage_interrupt : (raiseMessage p).interrupt = p.interrupt.raise := rfl
@[simp] theorem raiseMessage_free : (raiseMessage p).free = p.free := rfl
@[simp] theorem raiseMessage_agenda : (raiseMessage p).agenda = p.agenda := rfl

/-! ### newItem -/

@[simp] theorem newItem_engine : (newItem p).engine = p.engine := rfl
@[simp] theorem newItem_docket : (newItem p).docket = p.docket := rfl
@[simp] theorem newItem_table : (newItem p).table = p.table := rfl
@[simp] theorem newItem_volumes : (newItem p).volumes = p.volumes := rfl
@[simp] theorem newItem_frozen : (newItem p).frozen = p.frozen := rfl
@[simp] theorem newItem_locks : (newItem p).locks = p.locks := rfl
@[simp] theorem newItem_pool : (newItem p).pool = p.pool := rfl
@[simp] theorem newItem_lanes : (newItem p).lanes = p.lanes := rfl
@[simp] theorem newItem_committer : (newItem p).committer = p.committer := rfl
@[simp] theorem newItem_repair : (newItem p).repair = p.repair := rfl
@[simp] theorem newItem_patrol : (newItem p).patrol = p.patrol := rfl
@[simp] theorem newItem_rebuild : (newItem p).rebuild = p.rebuild := rfl
@[simp] theorem newItem_journal : (newItem p).journal = p.journal := rfl
@[simp] theorem newItem_interrupt : (newItem p).interrupt = p.interrupt.item := rfl
@[simp] theorem newItem_free : (newItem p).free = p.free := rfl
@[simp] theorem newItem_agenda : (newItem p).agenda = p.agenda := rfl

/-! ### docketNext -/

@[simp] theorem docketNext_engine : (docketNext p).engine = p.engine := rfl
@[simp] theorem docketNext_docket : (docketNext p).docket = p.docket.next := rfl
@[simp] theorem docketNext_table : (docketNext p).table = p.table := rfl
@[simp] theorem docketNext_volumes : (docketNext p).volumes = p.volumes := rfl
@[simp] theorem docketNext_frozen : (docketNext p).frozen = p.frozen := rfl
@[simp] theorem docketNext_locks : (docketNext p).locks = p.locks := rfl
@[simp] theorem docketNext_pool : (docketNext p).pool = p.pool := rfl
@[simp] theorem docketNext_lanes : (docketNext p).lanes = p.lanes := rfl
@[simp] theorem docketNext_committer : (docketNext p).committer = p.committer := rfl
@[simp] theorem docketNext_repair : (docketNext p).repair = p.repair := rfl
@[simp] theorem docketNext_patrol : (docketNext p).patrol = p.patrol := rfl
@[simp] theorem docketNext_rebuild : (docketNext p).rebuild = p.rebuild := rfl
@[simp] theorem docketNext_journal : (docketNext p).journal = p.journal := rfl
@[simp] theorem docketNext_interrupt : (docketNext p).interrupt = p.interrupt := rfl
@[simp] theorem docketNext_free : (docketNext p).free = p.free := rfl
@[simp] theorem docketNext_agenda : (docketNext p).agenda = p.agenda := rfl

/-! ### sweepDue -/

@[simp] theorem sweepDue_engine : (sweepDue p).engine = p.engine := rfl
@[simp] theorem sweepDue_docket : (sweepDue p).docket = p.docket.due := rfl
@[simp] theorem sweepDue_table : (sweepDue p).table = p.table := rfl
@[simp] theorem sweepDue_volumes : (sweepDue p).volumes = p.volumes := rfl
@[simp] theorem sweepDue_frozen : (sweepDue p).frozen = p.frozen := rfl
@[simp] theorem sweepDue_locks : (sweepDue p).locks = p.locks := rfl
@[simp] theorem sweepDue_pool : (sweepDue p).pool = p.pool := rfl
@[simp] theorem sweepDue_lanes : (sweepDue p).lanes = p.lanes := rfl
@[simp] theorem sweepDue_committer : (sweepDue p).committer = p.committer := rfl
@[simp] theorem sweepDue_repair : (sweepDue p).repair = p.repair := rfl
@[simp] theorem sweepDue_patrol : (sweepDue p).patrol = p.patrol := rfl
@[simp] theorem sweepDue_rebuild : (sweepDue p).rebuild = p.rebuild := rfl
@[simp] theorem sweepDue_journal : (sweepDue p).journal = p.journal := rfl
@[simp] theorem sweepDue_interrupt : (sweepDue p).interrupt = p.interrupt := rfl
@[simp] theorem sweepDue_free : (sweepDue p).free = p.free := rfl
@[simp] theorem sweepDue_agenda : (sweepDue p).agenda = p.agenda := rfl

/-! ### Reading what was written -/

@[simp] theorem Part.lane_setLane (l k : LaneId) (x : Lane) :
    (p.setLane l x).lane k = if l = k then x else p.lane k := by
  simp only [Part.lane, Part.setLane, Vector.getElem_set, Fin.ext_iff]

@[simp] theorem Part.lane_modLane (l k : LaneId) (f : Lane → Lane) :
    (p.modLane l f).lane k = if l = k then f (p.lane k) else p.lane k := by
  unfold Part.modLane
  rw [Part.lane_setLane]
  split
  · rename_i h; rw [h]
  · rfl

@[simp] theorem Part.lane_mapLanes (f : Lane → Lane) (k : LaneId) : (p.mapLanes f).lane k = f (p.lane k) := by
  simp [Part.lane, Part.mapLanes]

@[simp] theorem Part.vol_setVol (v w : VolId) (x : Volume) :
    (p.setVol v x).vol w = if v = w then x else p.vol w := by
  simp only [Part.vol, Part.setVol, Vector.getElem_set, Fin.ext_iff]

@[simp] theorem Part.vol_modVol (v w : VolId) (f : Volume → Volume) :
    (p.modVol v f).vol w = if v = w then f (p.vol w) else p.vol w := by
  unfold Part.modVol
  rw [Part.vol_setVol]
  split
  · rename_i h; rw [h]
  · rfl

@[simp] theorem Part.entry_setEntry (e d : EntryId) (x : Option Entry) :
    (p.setEntry e x).entry d = if e = d then x else p.entry d := by
  simp only [Part.entry, Part.setEntry, Vector.getElem_set, Fin.ext_iff]

@[simp] theorem Part.entry_modEntry (e d : EntryId) (f : Entry → Entry) :
    (p.modEntry e f).entry d = if e = d then (p.entry d).map f else p.entry d := by
  unfold Part.modEntry
  rw [Part.entry_setEntry]
  split
  · rename_i h; rw [h]
  · rfl

@[simp] theorem Part.buffer_setBuffer (b c : BufId) (x : Block) :
    (p.setBuffer b x).buffer c = if b = c then x else p.buffer c := by
  simp only [Part.buffer, Part.setBuffer, Vector.getElem_set, Fin.ext_iff]

/-! ### Readers of one field do not see the others -/

section readers
variable (g : Engine) (d : Docket) (t : Vector (Option Entry) 32) (vs : Vector Volume 8) (fz : Bool) (lk : Locks) (q : Pool)
  (ls : Vector Lane 4) (c : Committer) (r : Repair) (pa : Patrol) (rb : Rebuild) (j : Journal) (u : Interrupt) (n : Nat)
  (ag : List Task)

@[simp] theorem Part.lane_mk (l : LaneId) : (Part.mk g d t vs fz lk q p.lanes c r pa rb j u n ag).lane l = p.lane l := rfl
@[simp] theorem Part.vol_mk (v : VolId) : (Part.mk g d t p.volumes fz lk q ls c r pa rb j u n ag).vol v = p.vol v := rfl
@[simp] theorem Part.entry_mk (e : EntryId) : (Part.mk g d p.table vs fz lk q ls c r pa rb j u n ag).entry e = p.entry e := rfl
@[simp] theorem Part.entries_mk : (Part.mk g d p.table vs fz lk q ls c r pa rb j u n ag).entries = p.entries := rfl
@[simp] theorem Part.running_mk : (Part.mk p.engine d t vs fz lk q ls c r pa rb j u n ag).running = p.running := rfl
@[simp] theorem Part.online_mk (l : LaneId) : (Part.mk g d t vs fz lk q p.lanes c r pa rb j u n ag).online l = p.online l := rfl
@[simp] theorem Part.serviceable_mk (l : LaneId) :
    (Part.mk g d t vs fz lk q p.lanes c r pa rb j u n ag).serviceable l = p.serviceable l := rfl

end readers

/-! ### Readers through the updates of other fields -/

@[simp] theorem Part.setLane_vol (l : LaneId) (x : Lane) (k : VolId) : (p.setLane l x).vol k = p.vol k := rfl
@[simp] theorem Part.setLane_entry (l : LaneId) (x : Lane) (k : EntryId) : (p.setLane l x).entry k = p.entry k := rfl
@[simp] theorem Part.modLane_vol (l : LaneId) (f : Lane → Lane) (k : VolId) : (p.modLane l f).vol k = p.vol k := rfl
@[simp] theorem Part.modLane_entry (l : LaneId) (f : Lane → Lane) (k : EntryId) : (p.modLane l f).entry k = p.entry k := rfl
@[simp] theorem Part.mapLanes_vol (f : Lane → Lane) (k : VolId) : (p.mapLanes f).vol k = p.vol k := rfl
@[simp] theorem Part.mapLanes_entry (f : Lane → Lane) (k : EntryId) : (p.mapLanes f).entry k = p.entry k := rfl
@[simp] theorem Part.setVol_lane (v : VolId) (x : Volume) (k : LaneId) : (p.setVol v x).lane k = p.lane k := rfl
@[simp] theorem Part.setVol_entry (v : VolId) (x : Volume) (k : EntryId) : (p.setVol v x).entry k = p.entry k := rfl
@[simp] theorem Part.modVol_lane (v : VolId) (f : Volume → Volume) (k : LaneId) : (p.modVol v f).lane k = p.lane k := rfl
@[simp] theorem Part.modVol_entry (v : VolId) (f : Volume → Volume) (k : EntryId) : (p.modVol v f).entry k = p.entry k := rfl
@[simp] theorem Part.setEntry_lane (e : EntryId) (x : Option Entry) (k : LaneId) : (p.setEntry e x).lane k = p.lane k := rfl
@[simp] theorem Part.setEntry_vol (e : EntryId) (x : Option Entry) (k : VolId) : (p.setEntry e x).vol k = p.vol k := rfl
@[simp] theorem Part.modEntry_lane (e : EntryId) (f : Entry → Entry) (k : LaneId) : (p.modEntry e f).lane k = p.lane k := rfl
@[simp] theorem Part.modEntry_vol (e : EntryId) (f : Entry → Entry) (k : VolId) : (p.modEntry e f).vol k = p.vol k := rfl
@[simp] theorem Part.setBuffer_lane (b : BufId) (x : Block) (k : LaneId) : (p.setBuffer b x).lane k = p.lane k := rfl
@[simp] theorem Part.setBuffer_vol (b : BufId) (x : Block) (k : VolId) : (p.setBuffer b x).vol k = p.vol k := rfl
@[simp] theorem Part.setBuffer_entry (b : BufId) (x : Block) (k : EntryId) : (p.setBuffer b x).entry k = p.entry k := rfl
@[simp] theorem Part.push_lane (ts : List Task) (k : LaneId) : (p.push ts).lane k = p.lane k := rfl
@[simp] theorem Part.push_vol (ts : List Task) (k : VolId) : (p.push ts).vol k = p.vol k := rfl
@[simp] theorem Part.push_entry (ts : List Task) (k : EntryId) : (p.push ts).entry k = p.entry k := rfl
@[simp] theorem Part.modEngine_lane (f : Engine → Engine) (k : LaneId) : (p.modEngine f).lane k = p.lane k := rfl
@[simp] theorem Part.modEngine_vol (f : Engine → Engine) (k : VolId) : (p.modEngine f).vol k = p.vol k := rfl
@[simp] theorem Part.modEngine_entry (f : Engine → Engine) (k : EntryId) : (p.modEngine f).entry k = p.entry k := rfl
@[simp] theorem Part.modPatrol_lane (f : Patrol → Patrol) (k : LaneId) : (p.modPatrol f).lane k = p.lane k := rfl
@[simp] theorem Part.modPatrol_vol (f : Patrol → Patrol) (k : VolId) : (p.modPatrol f).vol k = p.vol k := rfl
@[simp] theorem Part.modPatrol_entry (f : Patrol → Patrol) (k : EntryId) : (p.modPatrol f).entry k = p.entry k := rfl
@[simp] theorem Part.modRebuild_lane (f : Rebuild → Rebuild) (k : LaneId) : (p.modRebuild f).lane k = p.lane k := rfl
@[simp] theorem Part.modRebuild_vol (f : Rebuild → Rebuild) (k : VolId) : (p.modRebuild f).vol k = p.vol k := rfl
@[simp] theorem Part.modRebuild_entry (f : Rebuild → Rebuild) (k : EntryId) : (p.modRebuild f).entry k = p.entry k := rfl
@[simp] theorem Part.modWork_lane (f : RepairWork → RepairWork) (k : LaneId) : (p.modWork f).lane k = p.lane k := rfl
@[simp] theorem Part.modWork_vol (f : RepairWork → RepairWork) (k : VolId) : (p.modWork f).vol k = p.vol k := rfl
@[simp] theorem Part.modWork_entry (f : RepairWork → RepairWork) (k : EntryId) : (p.modWork f).entry k = p.entry k := rfl
@[simp] theorem raiseMessage_lane (k : LaneId) : (raiseMessage p).lane k = p.lane k := rfl
@[simp] theorem raiseMessage_vol (k : VolId) : (raiseMessage p).vol k = p.vol k := rfl
@[simp] theorem raiseMessage_entry (k : EntryId) : (raiseMessage p).entry k = p.entry k := rfl
@[simp] theorem newItem_lane (k : LaneId) : (newItem p).lane k = p.lane k := rfl
@[simp] theorem newItem_vol (k : VolId) : (newItem p).vol k = p.vol k := rfl
@[simp] theorem newItem_entry (k : EntryId) : (newItem p).entry k = p.entry k := rfl
@[simp] theorem docketNext_lane (k : LaneId) : (docketNext p).lane k = p.lane k := rfl
@[simp] theorem docketNext_vol (k : VolId) : (docketNext p).vol k = p.vol k := rfl
@[simp] theorem docketNext_entry (k : EntryId) : (docketNext p).entry k = p.entry k := rfl
@[simp] theorem sweepDue_lane (k : LaneId) : (sweepDue p).lane k = p.lane k := rfl
@[simp] theorem sweepDue_vol (k : VolId) : (sweepDue p).vol k = p.vol k := rfl
@[simp] theorem sweepDue_entry (k : EntryId) : (sweepDue p).entry k = p.entry k := rfl

/-! ### Updates of one place, one after another -/

theorem Part.setLane_setLane (l : LaneId) (x y : Lane) : (p.setLane l x).setLane l y = p.setLane l y := by
  simp [Part.setLane]

theorem Part.modLane_setLane (l : LaneId) (x : Lane) (f : Lane → Lane) : (p.setLane l x).modLane l f = p.setLane l (f x) := by
  simp [Part.modLane, Part.setLane_setLane]

theorem Part.modLane_modLane (l : LaneId) (f g : Lane → Lane) :
    (p.modLane l f).modLane l g = p.modLane l fun x => g (f x) := by
  simp [Part.modLane, Part.setLane_setLane]

theorem Part.setLane_lane (l : LaneId) : p.setLane l (p.lane l) = p := by
  unfold Part.setLane Part.lane
  simp

theorem Part.push_setLane (l : LaneId) (x : Lane) (ts : List Task) : (p.push ts).setLane l x = (p.setLane l x).push ts := rfl

theorem Part.push_modLane (l : LaneId) (f : Lane → Lane) (ts : List Task) :
    (p.push ts).modLane l f = (p.modLane l f).push ts := rfl

/-! ### The machine -/

@[simp] theorem State.withPart_part (s : State) (q : Part) : (s.withPart q).part = q := rfl
@[simp] theorem State.withPart_port (s : State) (q : Part) : (s.withPart q).port = s.port := rfl
@[simp] theorem State.withPart_pending (s : State) (q : Part) : (s.withPart q).pending = s.pending := rfl
@[simp] theorem State.afterReset_port (s : State) (m : LaneMask) : (s.afterReset m).port = .reset := rfl
@[simp] theorem State.afterReset_pending (s : State) (m : LaneMask) : (s.afterReset m).pending = s.pending := rfl
@[simp] theorem State.afterReset_part (s : State) (m : LaneMask) :
    (s.afterReset m).part = { Part.reset m with free := s.part.free, interrupt := s.part.interrupt.afterReset } := rfl

theorem State.act_eq (f : Part → Part) (s : State) : s.act f = .next (s.withPart (s.part.act f)) := rfl

end Sys2Proof.Machine
end

