-- ==== Sys2Proof/Laws/Settle.lean ====
section
/-!
SUPPORT. What taking handed work does: nothing to a part at rest, one task at a time otherwise.
-/
namespace Sys2Proof.Machine

theorem settle_nil {p : Part} (n : Nat) (h : p.agenda = []) : settle n p = p := by
  cases n with
  | zero => rfl
  | succ n => simp only [settle, h]

theorem settle_cons {p : Part} (n : Nat) {t : Task} {ts : List Task} (h : p.agenda = t :: ts) :
    settle (n + 1) p = settle n (runTask t { p with agenda := ts }) := by
  simp only [settle, h]

theorem haltTest_of_not_halting {p : Part} (h : p.engine.state ≠ .halting) : haltTest p = p := by
  simp [haltTest, h]

theorem haltTest_of_tested {p : Part} (h : p.haltTested) : haltTest p = p := by
  unfold Part.haltTested at h
  unfold haltTest
  rw [if_neg]
  simpa using h

/-- The test of HALTED sees only the engine state and what R189 names. -/
theorem Part.haltTested_congr {p q : Part} (h1 : q.engine.state = p.engine.state) (h2 : q.table = p.table)
    (h3 : q.patrol.chunk = p.patrol.chunk) (h4 : q.repair.work = p.repair.work) (h5 : q.rebuild.chunk = p.rebuild.chunk)
    (h6 : q.committer.inFlight = p.committer.inFlight) (h7 : q.committer.requested = p.committer.requested)
    (h8 : q.agenda = p.agenda) (h : p.haltTested) : q.haltTested := by
  unfold Part.haltTested Part.drained at *
  rw [h1, h2, h3, h4, h5, h6, h7, h8]
  exact h

theorem Part.haltTested_of_state {p : Part} (h : p.engine.state ≠ .halting) : p.haltTested := fun g => h g.1

/-- With a request in the table the engine stays HALTING. -/
theorem Part.haltTested_of_entry {p : Part} {e : EntryId} {x : Entry} (h : p.entry e = some x) : p.haltTested := by
  rintro ⟨-, g⟩
  simp only [Part.drained, Bool.and_eq_true] at g
  have := g.1.1.1.1.1.1
  rw [Vector.all_eq_true] at this
  have h2 := this e.val e.isLt
  unfold Part.entry at h
  simp [h] at h2

/-- A command that hands nothing on, and after which the test of HALTED finds nothing, has its own effect alone. -/
theorem act_of_rest {f : Part → Part} {p : Part} (h : (f p).atRest) : p.act f = f p := by
  simp only [Part.act, settle_nil _ h.1, haltTest_of_tested h.2]

/-- A command that hands one task on. -/
theorem act_of_task {f : Part → Part} {p : Part} {t : Task} {q : Part} (h : (f p).agenda = [t])
    (hq : runTask t { f p with agenda := [] } = q) (hr : q.atRest) : p.act f = q := by
  have : settle Config.stepFuel (f p) = q := by
    show settle (65535 + 1) (f p) = q
    rw [settle_cons _ h, hq, settle_nil _ hr.1]
  simp only [Part.act, this, haltTest_of_tested hr.2]

/-- A command whose effect is `q` with tasks handed on. -/
theorem settle_push {q : Part} (n : Nat) (t : Task) (ts : List Task) (h : q.agenda = []) :
    settle (n + 1) (q.push (t :: ts)) = settle n (runTask t (q.push ts)) := by
  have ha : (q.push (t :: ts)).agenda = t :: ts := by simp [h]
  rw [settle_cons n ha]
  unfold Part.push
  rw [h]
  rfl

theorem act_of_push {f : Part → Part} {p q r : Part} {t : Task} (hf : f p = q.push [t]) (h : q.agenda = [])
    (hq : runTask t q = r) (hr : r.atRest) : p.act f = r := by
  have : settle Config.stepFuel (f p) = r := by
    show settle (65535 + 1) (f p) = r
    rw [hf, settle_push _ _ _ h, show q.push [] = q by simp [Part.push], hq, settle_nil _ hr.1]
  simp only [Part.act, this, haltTest_of_tested hr.2]

theorem Part.atRest_setLane {p : Part} (h : p.atRest) (l : LaneId) (x : Lane) : (p.setLane l x).atRest :=
  ⟨h.1, Part.haltTested_congr (p := p) rfl rfl rfl rfl rfl rfl rfl rfl h.2⟩

/-- The answer to a command with its own effect alone. -/
theorem State.act_of_rest {f : Part → Part} {s : State} (h : (f s.part).atRest) :
    s.act f = .next (s.withPart (f s.part)) := by
  rw [State.act_eq, Machine.act_of_rest h]

/-- The answer to a command that hands one task on. -/
theorem State.act_of_task {f : Part → Part} {s : State} {t : Task} {q : Part} (h : (f s.part).agenda = [t])
    (hq : runTask t { f s.part with agenda := [] } = q) (hr : q.atRest) : s.act f = .next (s.withPart q) := by
  rw [State.act_eq, Machine.act_of_task h hq hr]

end Sys2Proof.Machine
end

