-- ==== Sys2Proof/Laws/Locks.lean ====
section
/-!
SUPPORT. The extent lock table and the staging pool keep their laws (R82, R86).
-/
namespace Sys2Proof.Machine

/-! ## Conflicts -/

theorem Lock.conflicts_symm (a b : Lock) : a.conflicts b = b.conflicts a := by
  have hv : (a.volume = b.volume) = (b.volume = a.volume) := propext eq_comm
  simp only [Lock.conflicts, hv, Bool.or_comm a.exclusive, Bool.and_assoc]
  rw [Bool.and_left_comm (decide (a.first < b.first + b.count))]

theorem Lock.clearOf_append (k : Lock) (xs ys : List Lock) :
    k.clearOf (xs ++ ys) = (k.clearOf xs && k.clearOf ys) := by
  simp [Lock.clearOf, List.all_append]

theorem Lock.clearOf_iff (k : Lock) (xs : List Lock) : k.clearOf xs = true ↔ ∀ x ∈ xs, k.conflicts x = false := by
  simp [Lock.clearOf, List.all_eq_true]

/-- A lock clear of compatible locks joins them. -/
theorem compatible_append {gs : List Lock} {k : Lock} (h : gs.Pairwise fun a b => a.conflicts b = false)
    (hk : k.clearOf gs = true) : (gs ++ [k]).Pairwise fun a b => a.conflicts b = false := by
  rw [List.pairwise_append]
  refine ⟨h, List.pairwise_singleton _ _, ?_⟩
  intro a ha b hb
  rw [List.mem_singleton.1 hb, Lock.conflicts_symm]
  exact (Lock.clearOf_iff k gs).1 hk a ha

/-! ## Waiters -/

/-- Waiters keep a reason to wait when more is granted and more waits before them. -/
theorem blockedBy_mono {gs gs' : List Lock} (hg : ∀ k : Lock, k.clearOf gs' = true → k.clearOf gs = true) :
    ∀ {ws es es' : List Lock}, (∀ k : Lock, k.clearOf es' = true → k.clearOf es = true) → blockedBy gs es ws →
      blockedBy gs' es' ws
  | [], _, _, _, _ => trivial
  | w :: ws, es, es', he, h => by
    refine ⟨?_, blockedBy_mono hg (fun k hk => ?_) h.2⟩
    · have h1 := h.1
      cases hc : (w.clearOf gs' && w.clearOf es') with
      | false => rfl
      | true =>
        rw [Bool.and_eq_true] at hc
        rw [hg w hc.1, he w hc.2] at h1
        exact absurd h1 (by decide)
    · rw [Lock.clearOf_append, Bool.and_eq_true] at hk ⊢
      exact ⟨he k hk.1, hk.2⟩

theorem blockedBy_append {gs : List Lock} :
    ∀ {ws es : List Lock} {k : Lock}, blockedBy gs es ws → (k.clearOf gs && k.clearOf (es ++ ws)) = false →
      blockedBy gs es (ws ++ [k])
  | [], es, k, _, hk => by simpa [blockedBy] using hk
  | w :: ws, es, k, h, hk => by
    refine ⟨h.1, blockedBy_append h.2 ?_⟩
    simpa [List.append_assoc] using hk

/-- Testing the waiters leaves compatible locks and waiters with a reason to wait. -/
theorem Locks.test_kept :
    ∀ {ws gs bs : List Lock}, gs.Pairwise (fun a b => a.conflicts b = false) → blockedBy gs [] bs →
      (Locks.test gs bs ws).1.compatible ∧ (Locks.test gs bs ws).1.blocked
  | [], _, _, hg, hb => ⟨hg, hb⟩
  | w :: ws, gs, bs, hg, hb => by
    unfold Locks.test
    split
    · rename_i hc
      rw [Bool.and_eq_true] at hc
      refine Locks.test_kept (compatible_append hg hc.1) (blockedBy_mono (fun k hk => ?_) (fun k hk => hk) hb)
      rw [Lock.clearOf_append, Bool.and_eq_true] at hk
      exact hk.1
    · rename_i hc
      refine Locks.test_kept hg (blockedBy_append hb ?_)
      simpa using hc

theorem Locks.leave_kept (t : Locks) (h : Holder) (ht : t.compatible) : (t.leave h).1.compatible ∧ (t.leave h).1.blocked :=
  Locks.test_kept (List.Pairwise.filter _ ht) trivial

theorem Locks.join_kept (t : Locks) (k : Lock) (ht : t.compatible) (hb : t.blocked) :
    (t.join k).1.compatible ∧ (t.join k).1.blocked := by
  unfold Locks.join
  split
  · rename_i hc
    rw [Bool.and_eq_true] at hc
    refine ⟨compatible_append ht hc.1, blockedBy_mono (fun x hx => ?_) (fun x hx => hx) hb⟩
    rw [Lock.clearOf_append, Bool.and_eq_true] at hx
    exact hx.1
  · rename_i hc
    exact ⟨ht, blockedBy_append hb (by simpa using hc)⟩

/-! ## The pool -/

theorem Pool.grant_headWaits (q : Pool) (ws : List (Holder × Nat)) : (q.grant ws).1.headWaits := by
  induction ws generalizing q with
  | nil => intro x hx; simp [Pool.grant] at hx
  | cons w ws ih =>
    unfold Pool.grant
    split
    · exact ih _
    · rename_i hn
      intro x hx
      simp only [List.head?_cons, Option.mem_some_iff] at hx
      subst hx
      exact Nat.lt_of_not_le hn

/-- A grant changes no buffer content. -/
theorem Pool.grant_data (q : Pool) (ws : List (Holder × Nat)) : (q.grant ws).1.data = q.data := by
  induction ws generalizing q with
  | nil => rfl
  | cons w ws ih =>
    unfold Pool.grant
    split
    · exact (ih _).trans rfl
    · rfl

theorem Pool.join_data (q : Pool) (h : Holder) (n : Nat) : (q.join h n).1.data = q.data := Pool.grant_data _ _

theorem Pool.leave_data (q : Pool) (h : Holder) : (q.leave h).1.data = q.data := Pool.grant_data _ _

end Sys2Proof.Machine
end

