-- ==== Sys2Proof/Laws/KeptBasics.lean ====
section
/-!
SUPPORT. The named updates, the shared resources, the journal writer, the volume model, the docket unit and the record
committer keep the laws of Safety.lean. Each lemma is cited by those of the units that call the operation.
-/
namespace Sys2Proof.Machine

-- one theorem after another: as one text with all others, each would hold a thread while it waits
set_option Elab.async false

/-- A part with the same locks, pool, lanes, discrepancy list and backlog keeps the laws. -/
theorem keep_same {p q : Part} (h : p.Kept) (hl : q.locks = p.locks := by rfl) (hp : q.pool = p.pool := by rfl)
    (hr : q.repair.list = p.repair.list := by rfl) (hj : q.journal.backlog = p.journal.backlog := by rfl)
    (hn : q.lanes = p.lanes := by rfl) : q.Kept where
  compatible := hl ▸ h.compatible
  blocked := hl ▸ h.blocked
  headWaits := hp ▸ h.headWaits
  list := by unfold Repair.listKept; rw [hr]; exact h.list
  backlog := by unfold Journal.backlogKept; rw [hj]; exact h.backlog
  places := by
    intro l
    have := h.places l
    unfold Part.lane at this ⊢
    rw [hn]
    exact this

/-- A service that ends frees its place to the oldest waiter. -/
theorem places_after_end {L : Lane} {sv : Service} (hs : L.service = some sv) (h : L.placesKept) :
    ({ L with service := none, queue := L.queue ++ L.waiters.take 1, waiters := L.waiters.drop 1 } : Lane).placesKept := by
  unfold Lane.placesKept Lane.places at *
  rw [hs] at h
  simp only [List.length_append, List.length_take, Option.isSome_none, Option.isSome_some, Bool.toNat_false,
    Bool.toNat_true] at *
  omega

theorem takeClass_length {c : OpClass} {ops rest : List LaneOp} {op : LaneOp} (h : takeClass c ops = some (op, rest)) :
    rest.length + 1 = ops.length := by
  induction ops generalizing rest with
  | nil => simp [takeClass] at h
  | cons o os ih =>
    unfold takeClass at h
    split at h
    · simp only [Option.some.injEq, Prod.mk.injEq] at h
      rw [← h.2]; rfl
    · cases ht : takeClass c os with
      | none => rw [ht] at h; simp at h
      | some r =>
        rw [ht] at h
        simp only [Option.map_some, Option.some.injEq, Prod.mk.injEq] at h
        rw [← h.2, List.length_cons, ih (rest := r.2) (by rw [ht, ← h.1])]
        rfl

theorem choose_length {s k k' : Nat} {ops rest : List LaneOp} {op : LaneOp} (h : choose s k ops = some (op, rest, k')) :
    rest.length + 1 = ops.length := by
  unfold choose at h
  split at h
  · rename_i ht
    simp only [Option.some.injEq, Prod.mk.injEq] at h
    obtain ⟨rfl, rfl, -⟩ := h
    exact takeClass_length ht
  · split at h
    · rename_i ht _
      simp only [Option.some.injEq, Prod.mk.injEq] at h
      obtain ⟨rfl, rfl, -⟩ := h
      exact takeClass_length ht
    · rename_i hf hb
      split at h <;>
        (simp only [Option.some.injEq, Prod.mk.injEq] at h
         obtain ⟨rfl, rfl, -⟩ := h
         first
           | exact takeClass_length hf
           | exact takeClass_length hb)
    · rename_i _ ht
      simp only [Option.some.injEq, Prod.mk.injEq] at h
      obtain ⟨rfl, rfl, -⟩ := h
      exact takeClass_length ht
    · simp at h

section
variable {p : Part} (h : p.Kept)
include h

/-! ## Named updates -/

theorem keep_push (ts : List Task) : (p.push ts).Kept := keep_same h
theorem keep_setVol (v : VolId) (x : Volume) : (p.setVol v x).Kept := keep_same h
theorem keep_modVol (v : VolId) (f : Volume → Volume) : (p.modVol v f).Kept := keep_same h
theorem keep_setEntry (e : EntryId) (x : Option Entry) : (p.setEntry e x).Kept := keep_same h
theorem keep_modEntry (e : EntryId) (f : Entry → Entry) : (p.modEntry e f).Kept := keep_same h
theorem keep_modEngine (f : Engine → Engine) : (p.modEngine f).Kept := keep_same h
theorem keep_modPatrol (f : Patrol → Patrol) : (p.modPatrol f).Kept := keep_same h
theorem keep_modChunk (f : PatrolChunk → PatrolChunk) : (p.modChunk f).Kept := keep_same h
theorem keep_modRebuild (f : Rebuild → Rebuild) : (p.modRebuild f).Kept := keep_same h
theorem keep_modRebuildChunk (f : RebuildChunk → RebuildChunk) : (p.modRebuildChunk f).Kept := keep_same h
theorem keep_modWork (f : RepairWork → RepairWork) : (p.modWork f).Kept := keep_same h
theorem keep_setEntryState (e : EntryId) (s : EntryState) : (setEntryState e s p).Kept := keep_same h
theorem keep_setWork (e : EntryId) (w : Work) : (setWork e w p).Kept := keep_same h
theorem keep_raiseMessage : (raiseMessage p).Kept := keep_same h
theorem keep_newItem : (newItem p).Kept := keep_same h
theorem keep_docketNext : (docketNext p).Kept := keep_same h
theorem keep_sweepDue : (sweepDue p).Kept := keep_same h

theorem keep_setBuffer (b : BufId) (x : Block) : (p.setBuffer b x).Kept :=
  ⟨h.compatible, h.blocked, h.headWaits, h.list, h.backlog, h.places⟩

theorem keep_setLane (l : LaneId) {x : Lane} (hx : x.placesKept) : (p.setLane l x).Kept where
  compatible := h.compatible
  blocked := h.blocked
  headWaits := h.headWaits
  list := h.list
  backlog := h.backlog
  places := by
    intro k
    rw [Part.lane_setLane]
    split
    · exact hx
    · exact h.places k

theorem keep_modLane (l : LaneId) {f : Lane → Lane} (hf : (p.lane l).placesKept → (f (p.lane l)).placesKept) :
    (p.modLane l f).Kept := keep_setLane h l (hf (h.places l))

theorem keep_mapLanes {f : Lane → Lane} (hf : ∀ L : Lane, L.placesKept → (f L).placesKept) : (p.mapLanes f).Kept where
  compatible := h.compatible
  blocked := h.blocked
  headWaits := h.headWaits
  list := h.list
  backlog := h.backlog
  places := by
    intro k
    rw [Part.lane_mapLanes]
    exact hf _ (h.places k)

/-! ## Shared resources -/

theorem keep_askLock (k : Lock) : (askLock k p).Kept :=
  have := p.locks.join_kept k h.compatible h.blocked
  ⟨this.1, this.2, h.headWaits, h.list, h.backlog, h.places⟩

theorem keep_releaseLock (x : Holder) : (releaseLock x p).Kept :=
  have := p.locks.leave_kept x h.compatible
  ⟨this.1, this.2, h.headWaits, h.list, h.backlog, h.places⟩

theorem keep_askBuffers (x : Holder) (n : Nat) : (askBuffers x n p).Kept :=
  ⟨h.compatible, h.blocked, Pool.grant_headWaits _ _, h.list, h.backlog, h.places⟩

theorem keep_releaseBuffers (x : Holder) : (releaseBuffers x p).Kept :=
  ⟨h.compatible, h.blocked, Pool.grant_headWaits _ _, h.list, h.backlog, h.places⟩

theorem keep_releaseAll (x : Holder) : (releaseAll x p).Kept := keep_releaseLock (keep_releaseBuffers h x) x

theorem keep_clearShared : (clearShared p).Kept :=
  ⟨.nil, trivial, (fun _ hx => nomatch hx), h.list, h.backlog, h.places⟩

theorem keep_laneChoose (l : LaneId) : (laneChoose l p).Kept := by
  unfold laneChoose
  dsimp only
  split
  · exact h
  · split
    · exact h
    · rename_i hx
      refine keep_push (keep_setLane h l ?_) _
      have hn := choose_length hx
      have hp := h.places l
      unfold Lane.placesKept Lane.places at *
      simp only [Option.isSome_some, Bool.toNat_true]
      omega

theorem keep_freePlace {l : LaneId} {sv : Service} (hs : (p.lane l).service = some sv) : (freePlace l p).Kept :=
  keep_laneChoose (keep_setLane h l (places_after_end hs (h.places l))) _

theorem keep_enqueue (l : LaneId) (op : LaneOp) : (enqueue l op p).Kept := by
  unfold enqueue
  dsimp only
  split
  · rename_i hn
    refine keep_laneChoose (keep_setLane h l ?_) _
    simp only [Lane.placesKept, Lane.places, List.length_append, List.length_singleton] at hn ⊢
    omega
  · exact keep_setLane h l (h.places l)

theorem keep_enqueueEach (ls : List LaneId) (op : LaneId → LaneOp) : (enqueueEach ls op p).Kept := by
  unfold enqueueEach
  induction ls generalizing p with
  | nil => exact h
  | cons l ls ih => exact ih (keep_enqueue h l _)

/-! ## The journal writer -/

end

theorem Journal.next_backlog (j : Journal) : j.next.backlog = j.backlog := by
  unfold Journal.next; repeat' split
  all_goals rfl

theorem Journal.take_kept (j : Journal) (e : Event) (h : j.backlogKept) : (j.take e).backlogKept := by
  unfold Journal.take Journal.backlogKept
  dsimp only
  split
  · rw [Journal.next_backlog]; exact h
  · split
    · rename_i hn
      rw [Journal.next_backlog]
      simp only [List.length_append, List.length_singleton]
      exact hn
    · rw [Journal.next_backlog]; exact h

theorem Journal.drain_length (j : Journal) (es : List Event) : (j.drain es).backlog.length ≤ es.length := by
  induction es generalizing j with
  | nil => simp [Journal.drain]
  | cons e es ih =>
    unfold Journal.drain
    split
    · exact Nat.le_refl _
    · exact Nat.le_succ_of_le (ih _)

theorem Journal.consumed_kept (j : Journal) (v : Word) (h : j.backlogKept) : (j.consumed v).backlogKept := by
  unfold Journal.consumed Journal.backlogKept
  rw [Journal.next_backlog]
  exact Nat.le_trans (Journal.drain_length _ _) h

section
variable {p : Part} (h : p.Kept)
include h

theorem keep_journal {j : Journal} (hj : j.backlogKept) : ({ p with journal := j } : Part).Kept :=
  ⟨h.compatible, h.blocked, h.headWaits, h.list, hj, h.places⟩

theorem keep_passEvent (e : Event) : (passEvent e p).Kept := by
  unfold passEvent
  split
  · exact h
  · exact h
  · exact keep_journal h (Journal.take_kept _ _ h.backlog)

theorem keep_passEvents (es : List Event) : (passEvents es p).Kept := by
  unfold passEvents
  induction es generalizing p with
  | nil => exact h
  | cons e es ih => exact ih (keep_passEvent h e)

theorem keep_writtenCountEnded : (writtenCountEnded p).Kept := by
  unfold writtenCountEnded
  split
  · exact keep_journal h (by unfold Journal.backlogKept; rw [Journal.next_backlog]; exact h.backlog)
  · exact keep_newItem (keep_journal h (by unfold Journal.backlogKept; rw [Journal.next_backlog]; exact h.backlog))

/-! ## Volumes -/

theorem keep_passVolumeState (v : VolId) (o n : VolumeState) (l : Option LaneId) (t : Word) :
    (passVolumeState v o n l t p).Kept := by
  unfold passVolumeState
  split
  · exact h
  · exact keep_passEvent h _

theorem keep_deriveVolume (l : Option LaneId) (t : Word) (v : VolId) : (deriveVolume l t p v).Kept := by
  unfold deriveVolume
  dsimp only
  split
  · exact h
  · exact keep_passVolumeState (keep_modVol h _ _) _ _ _ _ _

theorem keep_deriveVolumes (l : LaneId) (t : Word) : (deriveVolumes l t p).Kept := by
  unfold deriveVolumes
  split
  · exact h
  · rename_i hf
    clear hf
    generalize allVols = vs
    induction vs generalizing p with
    | nil => exact h
    | cons v vs ih =>
      refine ih ?_
      dsimp only
      split
      · exact keep_deriveVolume h _ _ _
      · exact h

theorem keep_changeRuntime (l : LaneId) (n : RuntimeState) (c : LaneCause) (t : Word) : (changeRuntime l n c t p).Kept := by
  unfold changeRuntime
  dsimp only
  split
  · exact keep_push (keep_deriveVolumes (keep_modLane h l fun x => x) _ _) _
  · exact keep_push (keep_deriveVolumes (keep_passEvent (keep_modLane h l fun x => x) _) _ _) _

theorem keep_setRuntimeQuietly (l : LaneId) (n : RuntimeState) : (setRuntimeQuietly l n p).Kept :=
  keep_push (keep_deriveVolumes (keep_modLane h l fun x => x) _ _) _

theorem keep_chooseFirst (v : VolId) : (chooseFirst v p).2.Kept := by
  unfold chooseFirst
  split
  · exact h
  · split
    · exact h
    · exact keep_same h

/-! ## The docket unit -/

theorem keep_slotExamined (n : Nat) (bs : List Byte) : (slotExamined n bs p).Kept := by
  unfold slotExamined
  dsimp only
  split
  · exact keep_docketNext (keep_same h)
  · split
    · exact keep_docketNext (keep_same h)
    · exact keep_same h

theorem keep_takingDone : (takingDone p).Kept := keep_docketNext (keep_same h)

theorem keep_complete (e : EntryId) (o : ReqOutcome) (m : LaneMask) (a b : Word) : (complete e o m a b p).Kept :=
  keep_docketNext (keep_same h)

theorem keep_finish (e : EntryId) (o : ReqOutcome) (m : LaneMask) (a b : Word) : (finish e o m a b p).Kept :=
  keep_complete (keep_releaseAll h _) _ _ _ _ _

theorem keep_refuse (e : EntryId) (o : ReqOutcome) : (refuse e o p).Kept := keep_finish h _ _ _ _ _

theorem keep_freeEntry (e : EntryId) : (freeEntry e p).Kept := by
  unfold freeEntry
  dsimp only
  split
  · exact keep_sweepDue (keep_setEntry h _ _)
  · exact keep_setEntry h _ _

/-! ## The record committer -/

theorem keep_releaseCommit : (releaseCommit p).Kept := keep_push (keep_same h) _

theorem keep_startCommit : (startCommit p).Kept := by
  unfold startCommit
  dsimp only
  split
  · exact keep_releaseCommit (keep_same h)
  · exact keep_enqueueEach (keep_same h) _ _

theorem keep_requestCommit : (requestCommit p).Kept := by
  unfold requestCommit
  dsimp only
  have ht : (if p.committer.inFlight.isSome then { p with committer := { p.committer with requested := true } }
      else startCommit p : Part).Kept := by
    split
    · exact keep_same h
    · exact keep_startCommit h
  split
  · exact h
  · exact keep_same h
  · split
    · exact ht
    · exact h
  · exact ht

theorem keep_awaitCommit (e : EntryId) (m : LaneMask) : (awaitCommit e m p).Kept := keep_requestCommit (keep_modEntry h _ _)

theorem keep_recordEnded (l : LaneId) (op : LaneOp) (r : OpEnd) : (recordEnded l op r p).Kept := by
  unfold recordEnded
  split
  · exact h
  · split
    · exact keep_push (keep_same h) _
    · split
      · exact keep_same h
      · split
        · split
          · exact keep_enqueue h _ _
          · exact keep_push (keep_same h) _
        · exact keep_push (keep_same h) _

theorem keep_commitTest : (commitTest p).Kept := by
  unfold commitTest
  split
  · exact h
  · split
    · dsimp only
      split
      · exact keep_startCommit (keep_releaseCommit h)
      · exact keep_releaseCommit h
    · exact h

theorem keep_cutCommit : (cutCommit p).Kept := keep_same h

end

end Sys2Proof.Machine
end

