-- ==== Sys2Proof/Laws/KeptUnits.lean ====
section
/-!
SUPPORT. The discrepancy list, departures, the lane controllers and the patrol, repair and rebuild units keep the laws of
Safety.lean.
-/
namespace Sys2Proof.Machine

-- one theorem after another: as one text with all others, each would hold a thread while it waits
set_option Elab.async false

/-! ## The discrepancy list -/

theorem apart_of_not_sameKey {x : DiscEntry} {d : Discovery} (h : x.sameKey d = false) (k : DiscKind) (o : Origin)
    (n : Word) (m : Bool) : x.apart ⟨d.lane, d.volume, d.block, k, o, n, m⟩ := by
  intro ⟨h1, h2, h3⟩
  have h1 : x.lane = d.lane := h1
  have h2 : x.volume = d.volume := h2
  have h3 : x.block = d.block := h3
  simp [DiscEntry.sameKey, h1, h2, h3] at h

/-- A change of the entries that keeps their keys keeps the list's law. -/
theorem listKept_map {xs : List DiscEntry} {f : DiscEntry → DiscEntry}
    (hf : ∀ x, (f x).lane = x.lane ∧ (f x).volume = x.volume ∧ (f x).block = x.block)
    (h : xs.length ≤ Config.listSize ∧ xs.Pairwise DiscEntry.apart) :
    (xs.map f).length ≤ Config.listSize ∧ (xs.map f).Pairwise DiscEntry.apart := by
  refine ⟨by rw [List.length_map]; exact h.1, ?_⟩
  rw [List.pairwise_map]
  refine h.2.imp ?_
  intro a b hab hk
  obtain ⟨a1, a2, a3⟩ := hf a
  obtain ⟨b1, b2, b3⟩ := hf b
  rw [a1, a2, a3, b1, b2, b3] at hk
  exact hab hk

section
variable {p : Part} (h : p.Kept)
include h

theorem keep_repair {r : Repair} (hr : r.listKept) : ({ p with repair := r } : Part).Kept :=
  ⟨h.compatible, h.blocked, h.headWaits, hr, h.backlog, h.places⟩

theorem keep_dropDiscovery (d : Discovery) : (dropDiscovery d p).Kept := by
  unfold dropDiscovery
  dsimp only
  split
  · exact keep_same h
  · exact keep_passEvent (keep_same h) _

theorem keep_holdDiscovery (d : Discovery) : (holdDiscovery d p).Kept := by
  unfold holdDiscovery
  dsimp only
  split
  · exact keep_push (keep_same h) _
  · exact keep_same h

theorem keep_admitDiscovery (d : Discovery) : (admitDiscovery d p).Kept := by
  unfold admitDiscovery
  split
  · exact h
  · split
    · refine keep_repair h (listKept_map (fun x => ?_) h.list)
      split <;> exact ⟨rfl, rfl, rfl⟩
    · rename_i hk
      split
      · rename_i hn
        have hl : (p.repair.place d).listKept := by
          refine ⟨?_, ?_⟩
          · simp only [Repair.place, List.length_append, List.length_singleton]
            exact hn
          · simp only [Repair.place, List.pairwise_append]
            refine ⟨h.list.2, List.pairwise_singleton _ _, ?_⟩
            intro a ha b hb
            rw [List.mem_singleton.1 hb]
            refine apart_of_not_sameKey ?_ _ _ _ _
            simp only [Bool.not_eq_true, List.any_eq_false] at hk
            simpa using hk a ha
        exact keep_push (keep_same (keep_repair h hl)) _
      · split
        · exact keep_holdDiscovery h _
        · exact keep_dropDiscovery h _

theorem keep_handDiscovery (d : Discovery) : (handDiscovery p d).Kept := by
  unfold handDiscovery
  split
  · exact keep_same h
  · exact keep_admitDiscovery h _

theorem keep_handDiscoveries (ds : List Discovery) : (handDiscoveries ds p).Kept := by
  unfold handDiscoveries
  induction ds generalizing p with
  | nil => exact h
  | cons d ds ih => exact ih (keep_handDiscovery h d)

theorem keep_serveWaiter (ds : List Discovery) : (serveWaiter ds p).Kept := by
  induction ds generalizing p with
  | nil => exact keep_same h
  | cons d ds ih =>
    unfold serveWaiter
    split
    · exact ih (keep_admitDiscovery (keep_same h) _)
    · exact keep_same h

theorem keep_afterRemoval : (afterRemoval p).Kept := by
  unfold afterRemoval
  dsimp only
  split
  · exact keep_push (keep_same (keep_serveWaiter h _)) _
  · exact keep_push (keep_serveWaiter h _) _

theorem keep_removeEntries (g : DiscEntry → Bool) : (removeEntries g p).Kept := by
  unfold removeEntries
  split
  · refine keep_afterRemoval (keep_repair h ⟨?_, h.list.2.filter _⟩)
    exact Nat.le_trans (List.length_filter_le _ _) h.list.1
  · exact h

theorem keep_removeLane (l : LaneId) : (removeLane l p).Kept := by
  unfold removeLane
  dsimp only
  refine keep_removeEntries ?_ _
  split
  · split
    · exact keep_push (keep_same h) _
    · exact h
  · exact h

theorem keep_repairPause : (repairPause p).Kept := by
  unfold repairPause
  split
  · exact keep_same h
  · exact h

theorem keep_repairTake : (repairTake p).Kept := by
  unfold repairTake
  dsimp only
  have hp := keep_repairPause h
  split
  · exact hp
  · split
    · exact hp
    · rename_i x _
      have hm : ((repairPause p).repair.mark x).listKept := by
        refine listKept_map (fun y => ?_) hp.list
        split <;> exact ⟨rfl, rfl, rfl⟩
      exact keep_askLock (keep_same (keep_repair hp hm)) _

theorem keep_repairLeave : (repairLeave p).Kept := by
  unfold repairLeave
  split
  · exact h
  · split
    · exact keep_push (keep_releaseAll (keep_same h) _) _
    · exact h

end

/-! ## Departures -/

theorem Lane.cleared_kept (L : Lane) (b : Bool) : (L.cleared b).placesKept := by
  unfold Lane.placesKept Lane.places Lane.cleared
  dsimp only
  split
  · cases L.service <;> simp [Config.queuePlaces]
  · simp [Config.queuePlaces]

section
variable {p : Part} (h : p.Kept)
include h

theorem keep_clearLaneWork (l : LaneId) (b : Bool) : (clearLaneWork l b p).Kept :=
  keep_push (keep_setLane h l (Lane.cleared_kept _ _)) _

theorem keep_requestsDepart (l : LaneId) : (requestsDepart l p).Kept :=
  keep_push (keep_same (p := holdVolumes l p) (keep_same h)) _

theorem keep_rebuildDepart (l : LaneId) (c : DepartureCause) (t : Word) : (rebuildDepart l c t p).Kept := by
  unfold rebuildDepart
  split
  · exact keep_push (keep_same (keep_passEvent h _)) _
  · exact h

theorem keep_rebuildLeave : (rebuildLeave p).Kept := by
  unfold rebuildLeave
  dsimp only
  split
  · split
    · exact keep_same h
    · split
      · exact keep_releaseAll (keep_same h) _
      · exact h
  · exact h

theorem keep_settleFault (l : LaneId) : (settleFault l p).Kept := keep_push (keep_same h) _

theorem keep_departLane (l : LaneId) (c : DepartureCause) (t : Word) : (departLane l c t p).Kept := by
  unfold departLane
  split
  · dsimp only
    split
    · exact keep_changeRuntime (keep_rebuildDepart (keep_same h) _ _ _) _ _ _ _
    · exact keep_rebuildDepart (keep_changeRuntime (keep_same h) _ _ _ _) _ _ _
  · exact keep_changeRuntime h _ _ _ _

theorem keep_patrolDepart (l : LaneId) : (patrolDepart l p).Kept := keep_same h

theorem keep_neighboursDepart (l : LaneId) : (neighboursDepart l p).Kept :=
  keep_settleFault (keep_removeLane (keep_patrolDepart (keep_requestsDepart h _) _) _) _

theorem keep_departTail (l : LaneId) :
    (requestCommit (if p.engine.state = .faulted then p else neighboursDepart l p)).Kept := by
  refine keep_requestCommit ?_
  split
  · exact h
  · exact keep_neighboursDepart h _

theorem keep_depart (l : LaneId) (c : DepartureCause) (t : Word) : (depart l c t p).Kept := by
  unfold depart
  split
  · exact h
  · refine keep_departTail (keep_departLane (keep_modLane (keep_clearLaneWork h _ _) l fun hx => ?_) _ _ _) _
    revert hx
    dsimp only
    split <;> exact fun x => x

theorem keep_presenceLost (l : LaneId) : (presenceLost l p).Kept := by
  unfold presenceLost
  split
  · exact keep_depart h _ _ _
  · dsimp only
    have hq : ((clearLaneWork l true p).modLane l Lane.unidentified).Kept :=
      keep_modLane (keep_clearLaneWork h _ _) l fun x => x
    split
    · exact hq
    · exact keep_changeRuntime hq _ _ _ _

end

/-! ## Lane controllers -/

theorem Lane.modService_kept {L : Lane} (f : Service → Service) (h : L.placesKept) : (L.modService f).placesKept := by
  unfold Lane.placesKept Lane.places Lane.modService at *
  simpa using h

theorem Lane.addResults_kept {L : Lane} (ss : List Status) (h : L.placesKept) : (L.addResults ss).placesKept :=
  Lane.modService_kept _ h

theorem Lane.reissue_kept {L : Lane} (h : L.placesKept) : L.reissue.placesKept := by
  unfold Lane.reissue
  split <;> exact h

section
variable {p : Part} (h : p.Kept)
include h

theorem keep_beginTxn (l : LaneId) (c : Command) : (beginTxn l c p).Kept := keep_modLane h l fun x => x

theorem keep_modService (l : LaneId) (f : Service → Service) : (p.modLane l fun L => L.modService f).Kept :=
  keep_modLane h l (Lane.modService_kept f)

theorem keep_placeData (op : LaneOp) (i : Nat) (ss : List Status) (ds : List Block) : (placeData op i ss ds p).Kept := by
  induction ss generalizing p i ds with
  | nil => exact h
  | cons s ss ih =>
    unfold placeData
    split
    · split
      · exact ih (keep_setBuffer h _ _) _ _
      · exact ih h _ _
      · exact ih h _ _
    · exact ih h _ _

theorem keep_startTrial (l : LaneId) (b : Nat) (d : Block) : (startTrial l b d p).Kept := by
  unfold startTrial
  dsimp only
  split
  · exact keep_depart (keep_modService h _ _) _ _ _
  · exact keep_beginTxn (keep_modService h _ _) _ _

theorem keep_serviceNext (l : LaneId) : (serviceNext l p).Kept := by
  unfold serviceNext
  dsimp only
  split
  · exact h
  · rename_i sv hs
    have hk : ∀ x : Service, ({ p.lane l with service := some x } : Lane).placesKept := by
      intro x
      have := h.places l
      unfold Lane.placesKept Lane.places at *
      rw [hs] at this
      exact this
    split
    · exact keep_startTrial h _ _ _
    · split
      · exact keep_beginTxn (keep_setLane h l (hk _)) _ _
      · split
        · exact keep_beginTxn (keep_setLane h l (hk _)) _ _
        · exact keep_freePlace (keep_push h _) hs

theorem keep_laneStart (l : LaneId) : (laneStart l p).Kept := by
  unfold laneStart
  dsimp only
  split
  · exact h
  · split
    · exact h
    · exact keep_serviceNext h _

theorem keep_markSpares (l : LaneId) (c : Bool) (e : Event) :
    (if c then passEvent e (p.setLane l { p.lane l with sparesLow := true }) else p : Part).Kept := by
  split
  · refine keep_passEvent (keep_setLane h l ?_) _
    exact h.places l
  · exact h

theorem keep_advanceSpare (l : LaneId) (b : Nat) (t : Word) {f : Lane → Lane}
    (hf : ∀ L : Lane, L.placesKept → (f L).placesKept) : (advanceSpare l b t f p).Kept := by
  unfold advanceSpare
  have hq : (p.modLane l fun L => f { L with spareNext := L.spareNext + 1 }).Kept :=
    keep_modLane h l fun x => hf _ x
  exact keep_markSpares hq l _ _

theorem keep_settleGood (l : LaneId) (t : Trial) (op : LaneOp) : (settleGood l t op p).Kept := by
  unfold settleGood
  refine keep_serviceNext (keep_requestCommit (keep_modService (keep_advanceSpare h _ _ _ ?_) _ _)) _
  exact fun _ x => x

theorem keep_settleDead (l : LaneId) (t : Trial) (op : LaneOp) : (settleDead l t op p).Kept := by
  unfold settleDead
  refine keep_startTrial (keep_requestCommit (keep_advanceSpare h _ _ _ ?_)) _ _ _
  exact fun _ x => x

theorem keep_beginIdentify (l : LaneId) : (beginIdentify l p).Kept := by
  unfold beginIdentify
  dsimp only
  have hq : ((setRuntimeQuietly l .identifying p).modLane l fun L => { L with identification := some .ident }).Kept :=
    keep_modLane (keep_setRuntimeQuietly h _ _) l fun x => x
  split
  · exact hq
  · exact keep_beginTxn hq _ _

theorem keep_takeHeld (l : LaneId) : (takeHeld l p).Kept := by
  unfold takeHeld
  dsimp only
  split
  · exact h
  · have hq : (p.modLane l fun L => { L with held := false, fell := false }).Kept := keep_modLane h l fun x => x
    split
    · split
      · exact keep_beginIdentify (keep_presenceLost hq _) _
      · exact keep_presenceLost hq _
    · split
      · exact keep_beginIdentify hq _
      · exact hq

theorem keep_identifyEnded (l : LaneId) : (identifyEnded l p).Kept := by
  unfold identifyEnded
  split
  · exact keep_push (keep_takeHeld h _) _
  · exact h

theorem keep_identifyFailed (l : LaneId) : (identifyFailed l p).Kept :=
  keep_identifyEnded (keep_changeRuntime (keep_modLane h l fun x => x) _ _ _ _) _

theorem keep_identifySucceeded (l : LaneId) (s : BitVec 64) (c m : Word) (a b : Option Block) :
    (identifySucceeded l s c m a b p).Kept :=
  keep_identifyEnded (keep_changeRuntime (keep_same (p := p.modLane l fun L =>
    { L with txn := none, identification := none, identified := true, serial := s, capacity := c, largest := m })
      (keep_modLane h l fun x => x)) _ _ _ _) _

theorem keep_linkFailure (l : LaneId) : (linkFailure l p).Kept := by
  unfold linkFailure
  dsimp only
  have hr : (if (p.lane l).budget ≤ 1 then
      depart l .strikes 0 (p.modLane l fun L => { L with budget := 0, txn := none })
    else p.modLane l fun L => { L.reissue with budget := L.budget - 1 } : Part).Kept := by
    split
    · exact keep_depart (keep_modLane h l fun x => x) _ _ _
    · exact keep_modLane h l fun x => Lane.reissue_kept x
  split
  · exact keep_identifyFailed h _
  · exact hr
  · exact hr
  · exact keep_modLane h l fun x => x

theorem keep_badReplyTaken (l : LaneId) : (badReplyTaken l p).Kept := by
  unfold badReplyTaken
  repeat' split
  · exact h
  · exact h
  · exact keep_modLane h l fun x => x
  · exact keep_linkFailure h _

theorem keep_moduleResendTaken (l : LaneId) : (moduleResendTaken l p).Kept := by
  unfold moduleResendTaken
  repeat' split
  · exact h
  · exact h
  · exact keep_modLane h l fun x => x
  · exact keep_linkFailure h _

theorem keep_notReadyTaken (l : LaneId) : (notReadyTaken l p).Kept := by
  unfold notReadyTaken
  repeat' split
  · exact h
  · exact h
  · exact keep_modLane h l fun x => x
  · exact keep_linkFailure h _

theorem keep_notReadyWaited (l : LaneId) : (notReadyWaited l p).Kept := by
  unfold notReadyWaited
  repeat' split
  · exact h
  · exact h
  · exact keep_modLane h l fun x => x

theorem keep_identReplyTaken (l : LaneId) (s : BitVec 64) (c m : Word) : (identReplyTaken l s c m p).Kept := by
  unfold identReplyTaken
  repeat' split
  · exact h
  · exact keep_linkFailure h _
  · exact keep_beginTxn (keep_modLane h l fun x => x) _ _
  · exact keep_badReplyTaken h _

theorem keep_noteReadback (l : LaneId) (ss : List Status) (ds : List Block) :
    (if ss = [.unreadable] then p else p.modLane l fun L => { L with readback := ds.headD zeroBlock } : Part).Kept := by
  split
  · exact h
  · exact keep_modLane h l fun x => x

theorem keep_readCompleted (l : LaneId) (ss : List Status) (ds : List Block) : (readCompleted l ss ds p).Kept := by
  unfold readCompleted
  dsimp only
  have hq : (p.modLane l fun L => { L.countRead ss with txn := none }).Kept := keep_modLane h l fun x => x
  split
  · split
    · exact keep_identifySucceeded hq _ _ _ _ _ _
    · exact keep_identifyFailed hq _
  · exact hq
  · split
    · exact hq
    · split
      · have hb := keep_noteReadback hq l ss ds
        split
        · exact keep_settleGood hb _ _ _
        · exact keep_settleDead hb _ _ _
      · exact keep_serviceNext (keep_modLane (keep_placeData hq _ _ _ _) l (Lane.addResults_kept _)) _
      · exact hq

theorem keep_readReplyTaken (l : LaneId) (cs : List Byte) (ds : List Block) : (readReplyTaken l cs ds p).Kept := by
  unfold readReplyTaken
  repeat' split
  · exact h
  · exact keep_badReplyTaken h _
  · exact keep_linkFailure h _
  · exact keep_readCompleted h _ _ _
  · exact keep_badReplyTaken h _

theorem keep_writeCompleted (l : LaneId) (ss : List Status) : (writeCompleted l ss p).Kept := by
  unfold writeCompleted
  dsimp only
  have hq : (p.modLane l fun L => { L.countWrite ss with txn := none }).Kept := keep_modLane h l fun x => x
  split
  · exact hq
  · split
    · split
      · exact keep_beginTxn (keep_modService hq _ _) _ _
      · exact keep_settleDead hq _ _ _
    · split
      · exact keep_serviceNext (keep_modLane hq l (Lane.addResults_kept _)) _
      · split
        · exact keep_serviceNext (keep_modService hq _ _) _
        · exact keep_serviceNext
            (keep_modLane hq l fun x => Lane.modService_kept _ (Lane.addResults_kept _ x)) _
    · exact hq

theorem keep_writeReplyTaken (l : LaneId) (cs : List Byte) : (writeReplyTaken l cs p).Kept := by
  unfold writeReplyTaken
  repeat' split
  · exact h
  · exact keep_badReplyTaken h _
  · exact keep_linkFailure h _
  · exact keep_writeCompleted h _ _
  · exact keep_badReplyTaken h _

theorem keep_fillCompleted (l : LaneId) (s : Status) : (fillCompleted l s p).Kept := by
  unfold fillCompleted
  dsimp only
  have hq : (p.modLane l fun L => { L.countWrite [s] with txn := none }).Kept := keep_modLane h l fun x => x
  split
  · exact hq
  · split
    · exact hq
    · exact keep_serviceNext
        (keep_modLane hq l fun x => Lane.modService_kept _ (Lane.addResults_kept _ x)) _

theorem keep_fillReplyTaken (l : LaneId) (c : Byte) : (fillReplyTaken l c p).Kept := by
  unfold fillReplyTaken
  repeat' split
  · exact h
  · exact keep_fillCompleted h _ _
  · exact keep_linkFailure h _
  · exact keep_badReplyTaken h _

theorem keep_replyTimedOut (l : LaneId) : (replyTimedOut l p).Kept := by
  unfold replyTimedOut
  repeat' split
  · exact h
  · exact h
  · exact keep_modLane h l fun x => x

theorem keep_endPulse (l : LaneId) : (endPulse l p).Kept := by
  unfold endPulse
  dsimp only
  have hq : (p.modLane l fun L => { L with pulse := none }).Kept := keep_modLane h l fun x => x
  split
  · exact keep_linkFailure hq _
  · split
    · exact keep_beginTxn hq _ _
    · split
      · rename_i hs
        split
        · exact keep_freePlace (keep_push hq _) hs
        · exact hq
      · exact keep_laneChoose hq _

theorem keep_pulseEnded (x : Pulse) (l : LaneId) : (pulseEnded x l p).Kept := by
  unfold pulseEnded
  split
  · exact keep_endPulse h _
  · exact h

end

/-! ## Patrol -/

section
variable {p : Part} (h : p.Kept)
include h

theorem keep_patrolTimers : (patrolTimers p).Kept := by
  unfold patrolTimers
  repeat' split
  · exact h
  · exact keep_push (keep_modPatrol h _) _
  · exact h
  · exact keep_push (keep_modPatrol h _) _
  · exact h
  · exact h

theorem keep_passEnd : (passEnd p).Kept := by
  unfold passEnd
  exact keep_modPatrol (keep_passEvent h _) _

theorem keep_recoveryEnd : (recoveryEnd p).Kept := by
  unfold recoveryEnd
  exact keep_modPatrol (keep_passEvent h _) _

theorem keep_spanEnd : (spanEnd p).1.Kept := by
  unfold spanEnd
  split
  · dsimp only
    split
    · exact keep_recoveryEnd (keep_same h)
    · exact keep_same h
  · dsimp only
    split
    · exact keep_passEnd (keep_same h)
    · exact keep_same h

theorem keep_skipSpan (v : VolId) : (skipSpan v p).1.Kept := keep_spanEnd (keep_passEvent h _)

theorem keep_patrolGoOn (c : Bool) : (patrolGoOn c p).Kept := by
  unfold patrolGoOn
  dsimp only
  have h1 : ∀ (es : List EntryId) (q : Part), q.Kept →
      (es.foldl (fun q e => q.modEntry e (Entry.await .ok 0 0 0)) q).Kept := by
    intro es
    induction es with
    | nil => exact fun q hq => hq
    | cons e es ih => exact fun q hq => ih _ (keep_modEntry hq _ _)
  have h2 := h1 p.patrol.stops p h
  revert h2
  generalize p.patrol.stops.foldl (fun q e => q.modEntry e (Entry.await .ok 0 0 0)) p = q
  intro h2
  have h3 : (if p.patrol.stops.isEmpty then q
      else q.modPatrol fun q => { q with stops := [], state := .idle, holdoff := 0, rest := 0 } : Part).Kept := by
    split
    · exact h2
    · exact keep_modPatrol h2 _
  revert h3
  generalize (if p.patrol.stops.isEmpty then q
      else q.modPatrol fun q => { q with stops := [], state := .idle, holdoff := 0, rest := 0 } : Part) = r
  intro h3
  have h4 : (if c || !p.patrol.stops.isEmpty then requestCommit r else r : Part).Kept := by
    split
    · exact keep_requestCommit h3
    · exact h3
  revert h4
  generalize (if c || !p.patrol.stops.isEmpty then requestCommit r else r : Part) = t
  intro h4
  have h5 : (if t.engine.state = .halting then t.modPatrol fun q => { q with paused := true } else t : Part).Kept := by
    split
    · exact keep_modPatrol h4 _
    · exact h4
  revert h5
  generalize (if t.engine.state = .halting then t.modPatrol fun q => { q with paused := true } else t : Part) = u
  intro h5
  split
  · exact keep_push h5 _
  · exact keep_push (keep_patrolTimers h5) _

theorem keep_patrolChunkBegin (s : Span) (n : Nat) : (patrolChunkBegin s n p).Kept := keep_askLock (keep_modPatrol h _) _

theorem keep_patrolTry : (patrolTry p).Kept := by
  unfold patrolTry
  dsimp only
  split
  · exact h
  · split
    · exact h
    · split
      · exact keep_patrolGoOn (keep_skipSpan h _) _
      · split
        · exact keep_patrolChunkBegin h _ _
        · split
          · exact h
          · exact keep_modPatrol h _

theorem keep_patrolDrop : (patrolDrop p).Kept := keep_releaseAll (keep_modPatrol h _) _

theorem keep_patrolLocked : (patrolLocked p).Kept := by
  unfold patrolLocked
  split
  · exact h
  · dsimp only
    split
    · exact keep_patrolGoOn (keep_skipSpan (keep_patrolDrop h) _) _
    · exact keep_askBuffers (keep_modChunk h _) _ _

theorem keep_issueShares (c : OpClass) (pr : Producer) (bs : List BufId) (s n : Nat) (m : LaneMask)
    (j : Nat) (ls : List LaneId) : (issueShares c pr bs s n m j ls p).1.Kept := by
  induction ls generalizing p j with
  | nil => exact h
  | cons l ls ih =>
    unfold issueShares
    split
    · exact ih (keep_enqueue h _ _) _
    · exact ih h _

theorem keep_patrolJudge (c : PatrolChunk) : (patrolJudge c p).Kept := by
  unfold patrolJudge
  dsimp only
  split
  · exact keep_patrolGoOn (keep_skipSpan (keep_patrolDrop h) _) _
  · split
    · exact keep_patrolGoOn (keep_patrolDrop h) _
    · exact keep_push (keep_handDiscoveries (keep_passEvents (keep_modPatrol
        (keep_releaseAll (keep_modChunk h _) _) _) _) _) _

theorem keep_patrolBuffered : (patrolBuffered p).Kept := by
  unfold patrolBuffered
  split
  · exact h
  · dsimp only
    split
    · exact keep_patrolJudge (keep_modPatrol (keep_issueShares h _ _ _ _ _ _ _ _) _) _
    · exact keep_modPatrol (keep_issueShares h _ _ _ _ _ _ _ _) _

theorem keep_patrolOpEnded (l : LaneId) (r : OpEnd) : (patrolOpEnded l r p).Kept := by
  unfold patrolOpEnded
  split
  · exact h
  · dsimp only
    split
    · exact keep_patrolJudge (keep_modPatrol h _) _
    · exact keep_modPatrol h _

theorem keep_patrolAdvance (done : Bool) :
    (if done then patrolGoOn (spanEnd p).2 (spanEnd p).1
      else if !p.patrol.marker && Config.checkpointEvery ≤ p.patrol.sinceCheckpoint then
        patrolGoOn true (p.modPatrol fun q =>
          { q with checkpoint := ⟨q.span, q.offset, q.pass⟩, sinceCheckpoint := 0 })
      else patrolGoOn false p : Part).Kept := by
  split
  · exact keep_patrolGoOn (keep_spanEnd h) _
  · split
    · exact keep_patrolGoOn (keep_modPatrol h _) _
    · exact keep_patrolGoOn h _

theorem keep_patrolSettle : (patrolSettle p).Kept := by
  unfold patrolSettle
  split
  · exact h
  · split
    · exact h
    · exact keep_patrolAdvance (keep_modPatrol h _) _

theorem keep_patrolPause : (patrolPause p).Kept := by
  unfold patrolPause
  split
  · exact keep_modPatrol h _
  · exact h

end

/-! ## Repair -/

section
variable {p : Part} (h : p.Kept)
include h

theorem keep_repairIssue (l : LaneId) (k : OpKind) (b : BufId) (r : Bool) (w : RepairWork) :
    (repairIssue l k b r w p).Kept := keep_enqueue (keep_modWork h _) _ _

theorem keep_repairEnd (w : RepairWork) (e : Event) : (repairEnd w e p).Kept := by
  have hq : ({ p with repair := { p.repair with work := none } } : Part).Kept := keep_same h
  unfold repairEnd
  exact keep_push (keep_passEvent (keep_removeEntries (keep_releaseAll hq _) _) _) _

theorem keep_repairDone (w : RepairWork) (m : Byte) : (repairDone w m p).Kept := keep_repairEnd h _ _

theorem keep_repairLost (w : RepairWork) : (repairLost w p).Kept := keep_repairEnd h _ _

theorem keep_repairGone : (repairGone p).Kept := keep_repairLeave (keep_modWork h _)

theorem keep_repairHold : (repairHold p).Kept := by
  unfold repairHold
  repeat' split
  · exact h
  · exact h
  · exact keep_repairGone h
  · exact keep_repairIssue (keep_modWork h _) _ _ _ _ _
  · exact keep_repairIssue h _ _ _ _ _
  · exact h

theorem keep_repairHoldCleared (v : VolId) : (repairHoldCleared v p).Kept := by
  unfold repairHoldCleared
  repeat' split
  · exact h
  · exact keep_repairHold h
  · exact h

theorem keep_repairToHold : (repairToHold p).Kept := keep_repairHold (keep_modWork h _)

theorem keep_repairJudge (w : RepairWork) : (repairJudge w p).Kept := by
  unfold repairJudge
  dsimp only
  repeat' split
  · exact keep_repairGone h
  · exact keep_repairLost h _
  · exact keep_repairDone h _ _
  · exact keep_repairToHold h
  · exact h
  · exact keep_repairIssue (keep_modWork h _) _ _ _ _ _
  · exact keep_push (keep_modWork h _) _

theorem keep_repairRevote (w : RepairWork) : (repairRevote w p).Kept := by
  unfold repairRevote
  dsimp only
  split
  · split
    · exact keep_repairIssue (keep_modWork h _) _ _ _ _ _
    · exact keep_push (keep_modWork h _) _
  · split
    · exact keep_repairJudge h _
    · exact keep_repairJudge (keep_modWork h _) _
    · exact keep_push (keep_modWork h _) _

theorem keep_repairGo : (repairGo p).Kept := by
  unfold repairGo
  repeat' split
  · exact h
  · exact h
  · exact keep_repairRevote h _
  · exact keep_repairJudge h _
  · exact h

theorem keep_repairLocked : (repairLocked p).Kept := by
  unfold repairLocked
  repeat' split
  · exact h
  · exact h
  · exact keep_askBuffers (keep_modWork h _) _ _

theorem keep_repairBuffered : (repairBuffered p).Kept := by
  unfold repairBuffered
  repeat' split
  · exact h
  · exact h
  · exact keep_push (keep_modWork h _) _

theorem keep_repairReadback (w : RepairWork) (s : Status) : (repairReadback w s p).Kept := by
  unfold repairReadback
  split
  · exact keep_repairDone h _ _
  · exact keep_repairHold (keep_modWork h _)

theorem keep_repairCompleted (w : RepairWork) (l : LaneId) (s : Status) (r : Bool) : (repairCompleted w l s r p).Kept := by
  unfold repairCompleted
  dsimp only
  split
  · exact keep_push (keep_modWork h _) _
  · split
    · exact keep_repairToHold (keep_modWork h _)
    · exact keep_push (keep_modWork h _) _
  · split
    · exact keep_repairIssue (keep_modWork h _) _ _ _ _ _
    · exact keep_repairGone h
  · exact keep_repairReadback h _ _
  · exact keep_repairDone h _ _
  · exact h

theorem keep_repairOpEnded (l : LaneId) (r : OpEnd) : (repairOpEnded l r p).Kept := by
  unfold repairOpEnded
  split
  · exact h
  · dsimp only
    have hq : (p.modWork fun w => { w with outstanding := false, current := none }).Kept := keep_modWork h _
    split
    · exact keep_repairLeave hq
    · split
      · exact keep_repairCompleted hq _ _ _ _
      · split
        · exact keep_push (keep_modWork hq _) _
        · exact keep_push (keep_modWork hq _) _
        · exact keep_repairGone hq

end

/-! ## Rebuild -/

section
variable {p : Part} (h : p.Kept)
include h

theorem keep_rebuildStart (l : LaneId) : (rebuildStart l p).Kept := keep_push (keep_modRebuild h _) _

theorem keep_rebuildSkip (c : Byte) : (rebuildSkip c p).Kept := by
  unfold rebuildSkip
  exact keep_modRebuild (keep_passEvent h _) _

theorem keep_rebuildComplete (l : LaneId) : (rebuildComplete l p).Kept :=
  keep_requestCommit (keep_modRebuild (keep_changeRuntime (keep_modLane (keep_passEvent h _) l fun x => x) _ _ _ _) _)

theorem keep_rebuildBegin : (rebuildBegin p).Kept := by
  unfold rebuildBegin
  dsimp only
  repeat' split
  · exact h
  · exact h
  · exact keep_rebuildComplete h _
  · exact h
  · exact keep_push (keep_rebuildSkip h _) _
  · exact keep_askLock (keep_modRebuild h _) _

theorem keep_rebuildGoOn : (rebuildGoOn p).Kept := keep_push (keep_modRebuild h _) _

theorem keep_rebuildDrop : (rebuildDrop p).Kept := keep_releaseAll (keep_modRebuild h _) _

theorem keep_rebuildIssue (l : LaneId) (k : OpKind) (w : BlockTry → Bool) (c : RebuildChunk) :
    (rebuildIssue l k w c p).Kept := by
  unfold rebuildIssue
  dsimp only
  have hf : ∀ (xs : List (Nat × Nat)) (g : Nat × Nat → LaneOp) (q : Part), q.Kept →
      (xs.foldl (fun q x => enqueue l (g x) q) q).Kept := by
    intro xs g
    induction xs with
    | nil => exact fun q hq => hq
    | cons x xs ih => exact fun q hq => ih _ (keep_enqueue hq _ _)
  exact hf _ _ _ (keep_modRebuildChunk h _)

theorem keep_rebuildChunkEnd (k : RebuildChunk) : (rebuildChunkEnd k p).Kept :=
  keep_rebuildGoOn (keep_modRebuild (keep_handDiscoveries (keep_passEvents (keep_modRebuild (keep_rebuildDrop h) _) _) _) _)

theorem keep_rebuildHold : (rebuildHold p).Kept := by
  unfold rebuildHold
  repeat' split
  · exact h
  · exact keep_rebuildIssue h _ _ _ _
  · exact h

theorem keep_rebuildHoldCleared (v : VolId) : (rebuildHoldCleared v p).Kept := by
  unfold rebuildHoldCleared
  repeat' split
  · exact keep_rebuildHold h
  · exact h
  · exact h

theorem keep_rebuildSettle (k : RebuildChunk) : (rebuildSettle k p).Kept := by
  unfold rebuildSettle
  repeat' split
  · exact keep_rebuildGoOn (keep_rebuildSkip (keep_rebuildDrop h) _)
  · exact keep_rebuildChunkEnd h _
  · exact keep_rebuildHold (keep_modRebuildChunk h _)

theorem keep_rebuildRound (k : RebuildChunk) : (rebuildRound k p).Kept := by
  unfold rebuildRound
  repeat' split
  · exact keep_rebuildSettle h _
  · exact keep_rebuildIssue h _ _ _ _
  · exact keep_rebuildSettle h _

theorem keep_rebuildLocked : (rebuildLocked p).Kept := by
  unfold rebuildLocked
  split
  · exact h
  · exact keep_askBuffers (keep_modRebuildChunk h _) _ _

theorem keep_rebuildBuffered : (rebuildBuffered p).Kept := by
  unfold rebuildBuffered
  repeat' split
  · exact h
  · exact h
  · exact keep_rebuildGoOn (keep_rebuildSkip (keep_rebuildDrop h) _)
  · exact keep_rebuildRound h _

theorem keep_rebuildAfterOp (k : RebuildChunk) :
    (if p.rebuild.aborting then rebuildLeave p
      else if k.outstanding ≠ 0 then p
      else
        match k.phase with
        | .source => rebuildRound k p
        | .write => rebuildChunkEnd k p
        | _ => p : Part).Kept := by
  repeat' split
  · exact keep_rebuildLeave h
  · exact h
  · exact keep_rebuildRound h _
  · exact keep_rebuildChunkEnd h _
  · exact h

theorem keep_rebuildOpEnded (l : LaneId) (op : LaneOp) (r : OpEnd) : (rebuildOpEnded l op r p).Kept := by
  unfold rebuildOpEnded
  split
  · exact h
  · exact keep_rebuildAfterOp (keep_modRebuildChunk h _) _

theorem keep_rebuildPause : (rebuildPause p).Kept := by
  unfold rebuildPause
  split
  · exact keep_modRebuild h _
  · exact h

end

end Sys2Proof.Machine
end

