-- ==== Sys2Proof/Laws/KeptRequests.lean ====
section
/-!
SUPPORT. The request engine keeps the laws of Safety.lean.
-/
namespace Sys2Proof.Machine

-- one theorem after another: as one text with all others, each would hold a thread while it waits
set_option Elab.async false

section
variable {p : Part} (h : p.Kept)
include h

theorem keep_enqueueRuns (xs : List (Nat × Nat)) (l : LaneId) (g : Nat × Nat → LaneOp) :
    (xs.foldl (fun q x => enqueue l (g x) q) p).Kept := by
  induction xs generalizing p with
  | nil => exact h
  | cons x xs ih => exact ih (keep_enqueue h _ _)

/-! ## READ -/

theorem keep_dataLock (e : EntryId) (r : Request) (x : Bool) : (dataLock e r x p).Kept :=
  keep_askLock (keep_setEntryState h _ _) _

theorem keep_readReceived (e : EntryId) (r : Request) : (readReceived e r p).Kept := by
  unfold readReceived
  split
  · exact keep_refuse h _ _
  · exact keep_dataLock h _ _ _

theorem keep_writeReceived (e : EntryId) (r : Request) : (writeReceived e r p).Kept := by
  unfold writeReceived
  split
  · exact keep_refuse h _ _
  · exact keep_dataLock h _ _ _

theorem keep_verifyReceived (e : EntryId) (r : Request) : (verifyReceived e r p).Kept := by
  unfold verifyReceived
  split
  · exact keep_refuse h _ _
  · exact keep_dataLock h _ _ _

theorem keep_readIssue (e : EntryId) (r : Request) (l : LaneId) (w : ReadWork) : (readIssue e r l w p).Kept := by
  unfold readIssue
  exact keep_enqueueRuns (keep_setWork h _ _) _ _ _

theorem keep_readStart (e : EntryId) (r : Request) : (readStart e r p).Kept := by
  unfold readStart
  have hq := keep_setEntryState h e .atLanes
  dsimp only
  split
  · exact keep_refuse hq _ _
  · split
    · split
      · exact keep_readIssue hq _ _ _ _
      · exact keep_refuse hq _ _
    · split
      · exact keep_readIssue (keep_chooseFirst hq _) _ _ _ _
      · exact keep_refuse hq _ _

theorem keep_readFinish (e : EntryId) (o : ReqOutcome) (w : ReadWork) : (readFinish e o w p).Kept := keep_finish h _ _ _ _ _

theorem keep_readFailed (e : EntryId) (r : Request) (w : ReadWork) (ns : List Nat) (ds : List Discovery) :
    (readFailed e r w ns ds p).Kept := by
  unfold readFailed
  exact keep_complete (keep_handDiscoveries (keep_passEvents (keep_releaseAll h _) _) _) _ _ _ _ _

theorem keep_readRound (e : EntryId) (r : Request) (w : ReadWork) : (readRound e r w p).Kept := by
  unfold readRound
  repeat' split
  · exact keep_setEntryState (keep_handDiscoveries h _) _ _
  · exact keep_readIssue h _ _ _ _
  · exact keep_refuse h _ _
  · exact keep_readFailed h _ _ _ _ _

theorem keep_readNamed (e : EntryId) (r : Request) (w : ReadWork) : (readNamed e r w p).Kept := by
  unfold readNamed
  dsimp only
  split
  · exact keep_refuse h _ _
  · split
    · exact keep_setEntryState (keep_handDiscoveries h _) _ _
    · split
      · exact keep_readFailed h _ _ _ _ _
      · exact keep_readFailed h _ _ _ _ _

theorem keep_readAfterOp (e : EntryId) (r : Request) (w : ReadWork) :
    (if w.outstanding ≠ 0 then p else if w.named then readNamed e r w p else readRound e r w p : Part).Kept := by
  repeat' split
  · exact h
  · exact keep_readNamed h _ _ _
  · exact keep_readRound h _ _ _

theorem keep_readOpEnded (e : EntryId) (r : Request) (w : ReadWork) (l : LaneId) (op : LaneOp) (x : OpEnd) :
    (readOpEnded e r w l op x p).Kept := by
  unfold readOpEnded
  exact keep_readAfterOp (keep_setWork h _ _) _ _ _

theorem keep_readDelivered (e : EntryId) (d : DmaEnd) : (readDelivered e d p).Kept := by
  unfold readDelivered
  split
  · exact h
  · split
    · split <;> exact keep_readFinish h _ _ _
    · exact h

/-! ## WRITE -/

theorem keep_writeEnd (e : EntryId) (w : WriteWork) : (writeEnd e w p).Kept := by
  unfold writeEnd
  dsimp only
  have hq := keep_releaseAll h (.request e)
  split
  · exact hq
  · split
    · exact keep_complete hq _ _ _ _ _
    · exact keep_modEntry hq _ _

theorem keep_writeTargets (e : EntryId) (r : Request) : (writeTargets e r p).Kept := by
  unfold writeTargets
  exact keep_enqueueEach (keep_setWork h _ _) _ _

theorem keep_writeTest (e : EntryId) (r : Request) : (writeTest e r p).Kept := by
  unfold writeTest
  repeat' split
  · exact keep_refuse h _ _
  · exact keep_setWork h _ _
  · exact keep_writeTargets h _ _

theorem keep_fillBuffers (bs : List BufId) (ds : List Block) : (fillBuffers bs ds p).Kept := by
  unfold fillBuffers
  generalize bs.zip ds = xs
  induction xs generalizing p with
  | nil => exact h
  | cons x xs ih => exact ih (keep_setBuffer h _ _)

theorem keep_writeFetched (e : EntryId) (d : Option (List Block)) : (writeFetched e d p).Kept := by
  unfold writeFetched
  split
  · exact h
  · split
    · exact h
    · split
      · exact keep_refuse h _ _
      · exact keep_writeTest (keep_setEntryState (keep_fillBuffers h _ _) _ _) _ _

theorem keep_writeAfterOp (e : EntryId) (w : WriteWork) : (if w.ended then writeEnd e w p else p : Part).Kept := by
  split
  · exact keep_writeEnd h _ _
  · exact h

theorem keep_writeOpEnded (e : EntryId) (w : WriteWork) (l : LaneId) (x : OpEnd) : (writeOpEnded e w l x p).Kept := by
  unfold writeOpEnded
  exact keep_writeAfterOp (keep_setWork h _ _) _ _

/-! ## VERIFY -/

theorem keep_verifyLocked (e : EntryId) (r : Request) : (verifyLocked e r p).Kept := by
  unfold verifyLocked
  dsimp only
  split
  · exact keep_refuse h _ _
  · split
    · exact keep_refuse h _ _
    · exact keep_askBuffers (keep_setEntryState (keep_setWork h _ _) _ _) _ _

theorem keep_handIf (c : Prop) [Decidable c] (ds : List Discovery) :
    (if c then handDiscoveries ds p else p : Part).Kept := by
  split
  · exact keep_handDiscoveries h _
  · exact h

theorem keep_verifyJudge (e : EntryId) (r : Request) (w : VerifyWork) : (verifyJudge e r w p).Kept := by
  unfold verifyJudge
  split
  · exact keep_refuse h _ _
  · dsimp only
    split
    · exact keep_finish (keep_handIf (keep_passEvents h _) _ _) _ _ _ _ _
    · exact keep_finish (keep_handIf (keep_passEvents h _) _ _) _ _ _ _ _

theorem keep_verifyAfterOp (e : EntryId) (r : Request) (w : VerifyWork) :
    (if w.outstanding = 0 then verifyJudge e r w p else p : Part).Kept := by
  split
  · exact keep_verifyJudge h _ _ _
  · exact h

theorem keep_verifyBuffered (e : EntryId) (r : Request) (w : VerifyWork) : (verifyBuffered e r w p).Kept := by
  unfold verifyBuffered
  have hq := keep_setEntryState h e .atLanes
  dsimp only
  split
  · exact keep_refuse hq _ _
  · have hi := fun x => keep_setWork (keep_issueShares hq .foreground (.request e)
      ((setEntryState e .atLanes p).pool.bufsOf (.request e)) ((setEntryState e .atLanes p).startBlock r) r.count.toNat
      w.gone 0 w.lanes) e x
    split
    · exact keep_verifyJudge (hi _) _ _ _
    · exact hi _

theorem keep_verifyOpEnded (e : EntryId) (r : Request) (w : VerifyWork) (l : LaneId) (x : OpEnd) :
    (verifyOpEnded e r w l x p).Kept := by
  unfold verifyOpEnded
  exact keep_verifyAfterOp (keep_setWork h _ _) _ _ _

/-! ## DEFINE VOLUME -/

theorem keep_defineReceived (e : EntryId) (r : Request) : (defineReceived e r p).Kept := by
  unfold defineReceived
  repeat' split
  · exact keep_refuse h _ _
  · exact keep_refuse h _ _
  · exact h

theorem keep_fillIssue (e : EntryId) (r : Request) (n : Nat) (f : FillLane) : (fillIssue e r n f p).2.Kept := by
  unfold fillIssue
  repeat' split
  · exact h
  · exact h
  · exact h
  · exact keep_enqueue h _ _

theorem keep_fillIssueEach (e : EntryId) (r : Request) (n : Nat) (w : FillLane → Bool) (fs : List FillLane) :
    (fillIssueEach e r n w fs p).2.Kept := by
  induction fs generalizing p with
  | nil => exact h
  | cons f fs ih =>
    unfold fillIssueEach
    refine ih ?_
    split
    · exact keep_fillIssue h _ _ _ _
    · exact h

theorem keep_fillGo (e : EntryId) (r : Request) (n : Nat) (fs : List FillLane) (w : FillLane → Bool) :
    (fillGo e r n fs w p).Kept := by
  unfold fillGo
  exact keep_push (keep_setWork (keep_fillIssueEach h _ _ _ _ _) _ _) _

theorem keep_fillEnd (e : EntryId) (r : Request) (n : Nat) (fs : List FillLane) : (fillEnd e r n fs p).Kept := by
  unfold fillEnd
  have hq := keep_setWork h e (fillRest (fs.filter (·.outstanding)).length)
  dsimp only
  split
  · split
    · exact keep_complete (keep_setVol hq _ _) _ _ _ _ _
    · exact keep_modEntry (keep_setVol hq _ _) _ _
  · exact keep_awaitCommit (keep_passVolumeState (keep_modVol hq _ _) _ _ _ _ _) _ _

theorem keep_fillTest (e : EntryId) : (fillTest e p).Kept := by
  unfold fillTest
  repeat' split
  · exact h
  · exact keep_fillEnd h _ _ _ _
  · exact h
  · exact h

theorem keep_fillOpEnded (e : EntryId) (r : Request) (n : Nat) (fs : List FillLane) (l : LaneId) (x : OpEnd) :
    (fillOpEnded e r n fs l x p).Kept := by
  unfold fillOpEnded
  exact keep_fillGo h _ _ _ _ _

theorem keep_fillLeftEnded (e : EntryId) (x : Entry) (n : Nat) : (fillLeftEnded e x n p).Kept := by
  unfold fillLeftEnded
  dsimp only
  split
  · exact keep_complete (keep_setWork h _ _) _ _ _ _ _
  · exact keep_setWork h _ _

theorem keep_defineTake (e : EntryId) (r : Request) (b : List Byte) : (defineTake e r b p).Kept := by
  unfold defineTake
  dsimp only
  split
  · exact keep_awaitCommit (keep_modVol (keep_setVol h _ _) _ _) _ _
  · exact keep_fillGo (keep_setEntryState (keep_setVol h _ _) _ _) _ _ _ _ _

theorem keep_labelFetched (e : EntryId) (b : Option (List Byte)) : (labelFetched e b p).Kept := by
  unfold labelFetched
  repeat' split
  · exact h
  · exact h
  · exact keep_refuse h _ _
  · exact keep_refuse h _ _
  · exact keep_defineTake h _ _ _

/-! ## DELETE VOLUME, FREEZE, LANE -/

theorem keep_deleteReceived (e : EntryId) (r : Request) : (deleteReceived e r p).Kept := by
  unfold deleteReceived
  repeat' split
  · exact keep_refuse h _ _
  · exact keep_refuse h _ _
  · exact keep_refuse h _ _
  · exact keep_refuse h _ _
  · exact keep_awaitCommit (keep_setVol (keep_modPatrol (keep_removeEntries h _) _) _ _) _ _

theorem keep_freezeReceived (e : EntryId) : (freezeReceived e p).Kept := by
  have hq : ({ p with frozen := true } : Part).Kept := keep_same h
  exact keep_finish hq _ _ _ _ _

theorem keep_admitCommitter (l : LaneId) : (admitCommitter l p).Kept := by
  unfold admitCommitter
  dsimp only
  split
  · exact keep_same h
  · exact keep_same h

theorem keep_admitReceived (e : EntryId) (r : Request) : (admitReceived e r p).Kept := by
  unfold admitReceived
  split
  · exact keep_refuse h _ _
  · rename_i l _
    split
    · exact keep_refuse h _ _
    · have hq := keep_admitCommitter h l
      have hr : ∀ s, ((admitCommitter l p).modLane l (·.admitted r.parameter s)).Kept :=
        fun s => keep_modLane hq l fun x => x
      dsimp only
      split
      · exact keep_awaitCommit (keep_changeRuntime (hr _) _ _ _ _) _ _
      · exact keep_awaitCommit (keep_rebuildStart (keep_changeRuntime (hr _) _ _ _ _) _) _ _

theorem keep_retireReceived (e : EntryId) (r : Request) : (retireReceived e r p).Kept := by
  unfold retireReceived
  split
  · exact keep_refuse h _ _
  · rename_i l _
    have hr : (p.modLane l fun L => { L with recorded := .offline }).Kept := keep_modLane h l fun x => x
    dsimp only
    split
    · split
      · exact keep_refuse h _ _
      · exact keep_depart (keep_modEntry h _ _) _ _ _
    · split
      · exact keep_refuse h _ _
      · exact keep_depart (keep_modEntry h _ _) _ _ _
    · exact keep_awaitCommit (keep_changeRuntime hr _ _ _ _) _ _
    · exact keep_awaitCommit (keep_changeRuntime hr _ _ _ _) _ _
    · exact keep_refuse h _ _

theorem keep_probeReceived (e : EntryId) (r : Request) : (probeReceived e r p).Kept := by
  unfold probeReceived
  split
  · exact keep_refuse h _ _
  · rename_i l _
    dsimp only
    split
    · exact keep_refuse h _ _
    · refine keep_setEntryState (keep_setRuntimeQuietly (keep_setLane h l ?_) _ _) _ _
      exact h.places l

theorem keep_lineTestEnded (l : LaneId) (x : LineLevels) : (lineTestEnded l x p).Kept := by
  unfold lineTestEnded
  dsimp only
  split
  · exact h
  · have hl : (p.setLane l { p.lane l with lineTest := none, fell := false }).Kept := keep_setLane h l (h.places l)
    split
    · split
      · exact keep_beginIdentify (keep_presenceLost (keep_finish hl _ _ _ _ _) _) _
      · exact keep_presenceLost (keep_finish hl _ _ _ _ _) _
    · exact keep_setRuntimeQuietly (keep_finish hl _ _ _ _ _) _ _

/-! ## PATROL PLAN, PATROL CONTROL, SNAPSHOT -/

theorem keep_planReceived (e : EntryId) (r : Request) : (planReceived e r p).Kept := by
  unfold planReceived
  repeat' split
  · exact keep_refuse h _ _
  · exact keep_refuse h _ _
  · exact keep_askBuffers (keep_setEntryState h _ _) _ _

theorem keep_planStore (e : EntryId) (pl : Option Plan) :
    (if p.patrol.marker || p.patrol.active then complete e .refusedBusy 0 0 0 p
      else
        match planRefusal pl p with
        | some o => complete e o 0 0 0 p
        | none =>
          awaitCommit e 0 (p.modPatrol fun q =>
            { q with plan := pl, span := 0, offset := 0, checkpoint := ⟨0, 0, q.pass⟩ }) : Part).Kept := by
  split
  · exact keep_complete h _ _ _ _ _
  · split
    · exact keep_complete h _ _ _ _ _
    · exact keep_awaitCommit (keep_modPatrol h _) _ _

theorem keep_planFetched (e : EntryId) (b : Option (List Byte)) : (planFetched e b p).Kept := by
  unfold planFetched
  split
  · exact h
  · split
    · exact h
    · split
      · exact keep_refuse h _ _
      · exact keep_planStore (keep_releaseAll (keep_fillBuffers h _ _) _) _ _

theorem keep_startReceived (e : EntryId) (r : Request) : (startReceived e r p).Kept := by
  unfold startReceived
  repeat' split
  · exact keep_refuse h _ _
  · exact keep_refuse h _ _
  · exact keep_refuse h _ _
  · exact keep_patrolTimers (keep_awaitCommit (keep_modPatrol h _) _ _)

theorem keep_stopReceived (e : EntryId) (r : Request) : (stopReceived e r p).Kept := by
  unfold stopReceived
  repeat' split
  · exact keep_refuse h _ _
  · exact keep_refuse h _ _
  · exact keep_finish h _ _ _ _ _
  · exact keep_setEntryState (keep_modPatrol h _) _ _
  · exact keep_awaitCommit (keep_modPatrol h _) _ _

theorem keep_snapshotReceived (e : EntryId) (r : Request) : (snapshotReceived e r p).Kept := by
  unfold snapshotReceived
  split
  · exact keep_refuse h _ _
  · exact keep_askBuffers (keep_setEntryState h _ _) _ _

theorem keep_snapshotBuild (e : EntryId) : (snapshotBuild e p).Kept := by
  unfold snapshotBuild
  exact keep_modEntry (keep_fillBuffers h _ _) _ _

theorem keep_snapshotDelivered (e : EntryId) (d : DmaEnd) : (snapshotDelivered e d p).Kept := by
  unfold snapshotDelivered
  repeat' split
  · exact h
  · exact h
  · exact keep_finish h _ _ _ _ _
  · exact keep_refuse h _ _

/-! ## Grants, ends, holds, commits -/

theorem keep_requestLocked (e : EntryId) : (requestLocked e p).Kept := by
  unfold requestLocked
  repeat' split
  · exact h
  · exact h
  · exact keep_verifyLocked h _ _
  · exact keep_askBuffers (keep_setEntryState h _ _) _ _

theorem keep_requestBuffered (e : EntryId) : (requestBuffered e p).Kept := by
  unfold requestBuffered
  repeat' split
  · exact h
  · exact h
  · exact keep_readStart h _ _
  · exact keep_verifyBuffered h _ _ _
  · exact h
  · exact keep_snapshotBuild h _
  · exact keep_setEntryState h _ _

theorem keep_requestOpEnded (e : EntryId) (l : LaneId) (op : LaneOp) (x : OpEnd) : (requestOpEnded e l op x p).Kept := by
  unfold requestOpEnded
  repeat' split
  · exact h
  · exact keep_readOpEnded h _ _ _ _ _ _
  · exact keep_writeOpEnded h _ _ _ _
  · exact keep_verifyOpEnded h _ _ _ _ _
  · exact keep_fillOpEnded h _ _ _ _ _ _
  · exact keep_fillLeftEnded h _ _ _
  · exact h

theorem keep_requestHoldCleared (v : VolId) (e : EntryId) : (requestHoldCleared v p e).Kept := by
  unfold requestHoldCleared
  repeat' split
  · exact h
  · exact h
  · exact keep_writeTest h _ _
  · exact h
  · exact keep_fillGo h _ _ _ _ _
  · exact h
  · exact h

theorem keep_requestsHoldCleared (v : VolId) (es : List EntryId) : (es.foldl (requestHoldCleared v) p).Kept := by
  induction es generalizing p with
  | nil => exact h
  | cons e es ih => exact ih (keep_requestHoldCleared h _ _)

theorem keep_holdCleared (v : VolId) : (holdCleared v p).Kept := by
  unfold holdCleared
  split
  · exact h
  · refine keep_rebuildHoldCleared (keep_repairHoldCleared ?_ _) _
    exact keep_requestsHoldCleared h v _

theorem keep_waiterDone (e : EntryId) : (waiterDone e p).Kept := by
  unfold waiterDone
  repeat' split
  · exact h
  · exact keep_complete h _ _ _ _ _
  · exact h

end

end Sys2Proof.Machine
end

