-- ==== Sys2Proof/Laws/KeptMachine.lean ====
section
/-!
SUPPORT. Engine control, the handed work and the commands' own effects keep the laws of Safety.lean.
-/
namespace Sys2Proof.Machine

-- one theorem after another: as one text with all others, each would hold a thread while it waits
set_option Elab.async false

/-! ## Engine control -/

theorem Lane.detached_kept (L : Lane) : L.detached.placesKept := by simp [Lane.placesKept, Lane.places, Lane.detached, Lane.reset]

theorem Lane.cut_kept (L : Lane) : L.cut.placesKept := by simp [Lane.placesKept, Lane.places, Lane.cut]

theorem Lane.reset_kept (b : Bool) : (Lane.reset b).placesKept := by simp [Lane.placesKept, Lane.places, Lane.reset]

/-- A part without locks, waiters, backlog and listed discrepancies. -/
theorem keep_fresh {q : Part} (hl : q.locks = .empty) (hw : q.pool.waiting = []) (hr : q.repair.list = [])
    (hj : q.journal.backlog = []) (hp : ∀ l, (q.lane l).placesKept) : q.Kept where
  compatible := by rw [hl]; exact .nil
  blocked := by rw [hl]; trivial
  headWaits := by unfold Pool.headWaits; rw [hw]; exact fun _ hx => nomatch hx
  list := by unfold Repair.listKept; rw [hr]; exact ⟨Nat.zero_le _, .nil⟩
  backlog := by unfold Journal.backlogKept; rw [hj]; exact Nat.zero_le _
  places := hp

theorem kept_enterDetached (p : Part) : (enterDetached p).Kept := by
  refine keep_fresh rfl rfl rfl rfl fun l => ?_
  have : (enterDetached p).lane l = (p.lane l).detached := by simp [enterDetached, Part.lane]
  rw [this]
  exact Lane.detached_kept _

theorem kept_reset (m : LaneMask) (n : Nat) (u : Interrupt) : ({ Part.reset m with free := n, interrupt := u } : Part).Kept := by
  refine keep_fresh rfl rfl rfl rfl fun l => ?_
  have : ({ Part.reset m with free := n, interrupt := u } : Part).lane l = Lane.reset (m.has l) := by
    revert l
    simp only [Fin.forall_fin_succ]
    exact ⟨rfl, rfl, rfl, rfl, fun x => x.elim0⟩
  rw [this]
  exact Lane.reset_kept _

section
variable {p : Part} (h : p.Kept)
include h

theorem keep_takeHeldFall (l : LaneId) : (takeHeldFall p l).Kept := by
  unfold takeHeldFall
  have hq : (p.setLane l { p.lane l with held := false, fell := false, absent := false }).Kept :=
    keep_setLane h l (h.places l)
  dsimp only
  split
  · exact keep_presenceLost hq _
  · exact hq

theorem keep_faultedCut (c : FaultCause) :
    ({ p.mapLanes Lane.cut with
      engine := { p.engine with state := .faulted, faultCause := c, attach := .idle, mark := .none }
      docket := p.docket.cut
      table := .replicate 32 none
      repair := p.repair.cut
      patrol := p.patrol.cut
      rebuild := p.rebuild.cut
      journal := p.journal.cut
      agenda := [] } : Part).Kept := by
  have hl := keep_mapLanes h (f := Lane.cut) fun L _ => L.cut_kept
  refine ⟨h.compatible, h.blocked, h.headWaits, listKept_map (fun x => ⟨rfl, rfl, rfl⟩) h.list, Nat.zero_le _, hl.places⟩

theorem keep_enterFaulted (c : FaultCause) : (enterFaulted c p).Kept := by
  have h1 := keep_raiseMessage (keep_clearShared (keep_cutCommit (keep_faultedCut h c)))
  have h2 : ∀ (ls : List LaneId) (q : Part), q.Kept → (ls.foldl takeHeldFall q).Kept := by
    intro ls
    induction ls with
    | nil => exact fun q hq => hq
    | cons l ls ih => exact fun q hq => ih _ (keep_takeHeldFall hq l)
  unfold enterFaulted
  exact keep_same (h2 allLanes _ h1)

theorem keep_attachTaken (b : BitVec 64) : (attachTaken b p).Kept := by
  unfold attachTaken
  dsimp only
  split
  · exact keep_modEngine (keep_modEngine h _) _
  · exact keep_modEngine h _

theorem keep_headerPassed (x : Header) : (headerPassed x p).Kept :=
  ⟨h.compatible, h.blocked, h.headWaits, h.list, Nat.zero_le _, h.places⟩

theorem keep_headerRead (d : Option (List Byte)) : (headerRead d p).Kept := by
  unfold headerRead
  repeat' split
  · exact h
  · exact keep_modEngine h _
  · exact keep_headerPassed h _

theorem keep_assemblyBegin : (assemblyBegin p).Kept := by
  unfold assemblyBegin
  refine keep_push ?_ _
  have hf : ∀ (ls : List LaneId) (q : Part), q.Kept →
      (ls.foldl (fun q l =>
        let q := q.modLane l fun L => { L with held := false, fell := false, absent := !L.present }
        if (q.lane l).present then beginIdentify l q else q) q).Kept := by
    intro ls
    induction ls with
    | nil => exact fun q hq => hq
    | cons l ls ih =>
      intro q hq
      refine ih _ ?_
      have hr : (q.modLane l fun L => { L with held := false, fell := false, absent := !L.present }).Kept :=
        keep_modLane hq l fun x => x
      dsimp only
      split
      · exact keep_beginIdentify hr _
      · exact hr
  exact hf _ _ (keep_modEngine h _)

theorem keep_attachHeaderWritten (d : DmaEnd) : (attachHeaderWritten d p).Kept := by
  unfold attachHeaderWritten
  dsimp only
  split
  · exact keep_modEngine h _
  · exact keep_modEngine h _
  · exact keep_assemblyBegin h
  · exact keep_enterFaulted h _
  · exact keep_enterFaulted h _
  · exact keep_enterFaulted h _
  · exact h

/-- Lanes loaded at assembly keep their queues. -/
theorem keep_loadedLanes (g : SetRecord) (c : Committer) :
    ({ p with lanes := Vector.ofFn fun l : Fin 4 => p.assembledLane g l, committer := c } : Part).Kept := by
  refine ⟨h.compatible, h.blocked, h.headWaits, h.list, h.backlog, fun l => ?_⟩
  have : ({ p with lanes := Vector.ofFn fun l : Fin 4 => p.assembledLane g l, committer := c } : Part).lane l
      = p.assembledLane g l := by simp [Part.lane]
  rw [this]
  exact h.places l

theorem keep_loadVolumes (vs : List VolumeEntry) : (loadVolumes vs p).Kept := by
  unfold loadVolumes
  have h1 : ∀ (vs : List VolumeEntry) (q : Part), q.Kept → (vs.foldl (fun q x => q.setVol x.number x.volume) q).Kept := by
    intro vs
    induction vs with
    | nil => exact fun q hq => hq
    | cons v vs ih => exact fun q hq => ih _ (keep_setVol hq _ _)
  have h2 : ∀ (vs : List VolId) (q : Part), q.Kept →
      (vs.foldl (fun q v =>
        if (q.vol v).inUse then q.modVol v fun x => { x with state := q.derivedState v } else q) q).Kept := by
    intro vs
    induction vs with
    | nil => exact fun q hq => hq
    | cons v vs ih =>
      intro q hq
      refine ih _ ?_
      dsimp only
      split
      · exact keep_modVol hq _ _
      · exact hq
  exact h2 _ _ (h1 _ _ h)

theorem keep_patrol (x : Patrol) : ({ p with patrol := x } : Part).Kept := keep_same h

theorem keep_loadSet (g : SetRecord) : (loadSet g p).Kept := by
  unfold loadSet
  exact keep_patrol (keep_loadVolumes (keep_loadedLanes h g _) _) _

theorem keep_assemblyReport (e : Event) :
    (requestCommit ((passEvent e p).modEngine fun x => { x with attach := .firstCommits, mark := .waiting })).Kept :=
  keep_requestCommit (keep_modEngine (keep_passEvent h _) _)

theorem keep_assemble : (assemble p).Kept := by
  unfold assemble
  split
  · exact h
  · dsimp only
    split
    · exact keep_assemblyReport (keep_loadSet h _) _
    · exact keep_assemblyReport h _

theorem keep_takeUp : (takeUp p).Kept := keep_push (keep_patrolTimers h) _

theorem keep_enterRunning : (enterRunning p).Kept := by
  unfold enterRunning
  refine keep_takeUp ?_
  have hf : ∀ (ls : List LaneId) (q : Part), q.Kept →
      (ls.foldl (fun q l => takeHeld l (q.modLane l fun L => { L with absent := false })) q).Kept := by
    intro ls
    induction ls with
    | nil => exact fun q hq => hq
    | cons l ls ih =>
      intro q hq
      refine ih _ (keep_takeHeld (keep_modLane hq l ?_) _)
      exact fun x => x
  refine hf _ _ (keep_sweepDue ?_)
  exact keep_same h

theorem keep_commitDone : (commitDone p).Kept := by
  unfold commitDone
  repeat' split
  · exact h
  · exact keep_enterRunning h
  · exact h
  · exact kept_enterDetached _
  · exact h

theorem keep_haltTaken : (haltTaken p).Kept := by
  unfold haltTaken
  refine keep_repairPause (keep_rebuildPause (keep_patrolPause (keep_docketNext ?_)))
  exact keep_same h

theorem keep_resumeTaken : (resumeTaken p).Kept := by
  unfold resumeTaken
  refine keep_takeUp (keep_sweepDue ?_)
  exact keep_same h

theorem keep_detachTaken : (detachTaken p).Kept := by
  unfold detachTaken
  dsimp only
  split
  · exact kept_enterDetached _
  · refine keep_requestCommit ?_
    exact keep_same h

theorem keep_commandRefused : (commandRefused p).Kept := keep_modEngine h _

theorem keep_engineCommand (c : Nat) {f : Part → Part} (hf : (f p).Kept) : (engineCommand c f p).Kept := by
  unfold engineCommand
  split
  · exact hf
  · exact keep_commandRefused h

theorem keep_haltCommand : (haltCommand p).Kept := keep_push (keep_haltTaken h) _

/-- A word written to ENGINE takes the effect of its command. -/
theorem keep_engineTaken (b : BitVec 64) (c : Nat) : (engineTaken b c p).Kept := by
  unfold engineTaken
  split
  · exact keep_attachTaken h _
  · exact keep_haltCommand h
  · exact keep_resumeTaken h
  · exact keep_detachTaken h
  · exact kept_enterDetached _

theorem keep_presenceFell (l : LaneId) : (presenceFell l p).Kept := by
  unfold presenceFell
  have hq : (p.modLane l (·.qualified false)).Kept := keep_modLane h l fun x => x
  split
  · exact h
  · dsimp only
    split
    · exact hq
    · split
      · exact keep_modLane hq l fun x => x
      · split
        · exact keep_modLane hq l fun x => x
        · exact keep_presenceLost hq _

theorem keep_presenceRose (l : LaneId) : (presenceRose l p).Kept := by
  unfold presenceRose
  have hq : (p.modLane l (·.qualified true)).Kept := keep_modLane h l fun x => x
  split
  · exact h
  · dsimp only
    split
    · exact hq
    · split
      · exact keep_modLane hq l fun x => x
      · split
        · exact keep_beginIdentify hq _
        · exact hq

/-! ## Handed work -/

theorem keep_operationEnded (l : LaneId) (op : LaneOp) (r : OpEnd) : (operationEnded l op r p).Kept := by
  unfold operationEnded
  split
  · exact keep_requestOpEnded h _ _ _ _
  · exact keep_patrolOpEnded h _ _
  · exact keep_rebuildOpEnded h _ _ _
  · exact keep_repairOpEnded h _ _
  · exact keep_recordEnded h _ _ _

theorem keep_lockGranted (x : Holder) : (lockGranted x p).Kept := by
  unfold lockGranted
  split
  · exact h
  · split
    · exact keep_requestLocked h _
    · exact keep_patrolLocked h
    · exact keep_rebuildLocked h
    · exact keep_repairLocked h

theorem keep_buffersGranted (x : Holder) : (buffersGranted x p).Kept := by
  unfold buffersGranted
  split
  · exact h
  · split
    · exact keep_requestBuffered h _
    · exact keep_patrolBuffered h
    · exact keep_rebuildBuffered h
    · exact keep_repairBuffered h

/-- Every piece of handed work keeps the laws. -/
theorem keep_runTask (t : Task) : (runTask t p).Kept := by
  cases t with
  | laneStart l => exact keep_laneStart h _
  | opEnded l op r => exact keep_operationEnded h _ _ _
  | lockGranted x => exact keep_lockGranted h _
  | buffersGranted x => exact keep_buffersGranted h _
  | holdCleared v => exact keep_holdCleared h _
  | waiterDone e => exact keep_waiterDone h _
  | commitTest => exact keep_commitTest h
  | commitDone => exact keep_commitDone h
  | fillTest e => exact keep_fillTest h _
  | repairTake => exact keep_repairTake h
  | repairLeave => exact keep_repairLeave h
  | repairGo => exact keep_repairGo h
  | patrolTry => exact keep_patrolTry h
  | patrolSettle => exact keep_patrolSettle h
  | rebuildBegin => exact keep_rebuildBegin h
  | rebuildLeave => exact keep_rebuildLeave h
  | assemble => exact keep_assemble h

theorem keep_settle (n : Nat) : (settle n p).Kept := by
  induction n generalizing p with
  | zero => exact h
  | succ n ih =>
    cases ha : p.agenda with
    | nil => rw [settle_nil _ ha]; exact h
    | cons t ts =>
      rw [settle_cons _ ha]
      exact ih (keep_runTask (keep_same h) _)

theorem keep_haltTest : (haltTest p).Kept := by
  unfold haltTest
  split
  · exact keep_raiseMessage (keep_modEngine h _)
  · exact h

omit h in
theorem keep_act {f : Part → Part} (hf : (f p).Kept) : (p.act f).Kept := by
  unfold Part.act
  exact keep_haltTest (keep_settle hf _)

/-! ## Requests taken, timers and transfers -/

theorem keep_requestTaken (mine : Request → Bool) {go : EntryId → Request → Part → Part}
    (hg : ∀ e r q, q.Kept → (go e r q).Kept) (d : DmaEnd) : (requestTaken mine go d p).Kept := by
  unfold requestTaken
  split
  · exact h
  · split
    · exact h
    · split
      · exact keep_enterFaulted h _
      · unfold requestReceived
        have hq := keep_setEntryState (keep_takingDone h)
        dsimp only
        split
        · exact keep_refuse (hq _ _) _ _
        · exact hg _ _ _ (hq _ _)

theorem keep_holdoffExpired : (holdoffExpired p).Kept := by
  unfold holdoffExpired
  split
  · exact keep_patrolTimers (keep_modPatrol h _)
  · exact h

theorem keep_restExpired : (restExpired p).Kept := by
  unfold restExpired
  split
  · exact keep_patrolTimers (keep_modPatrol h _)
  · exact h

theorem keep_consumedRead (v : Option Word) : (consumedRead v p).Kept := by
  unfold consumedRead
  split
  · split
    · exact keep_enterFaulted h _
    · refine keep_docketNext ?_
      exact ⟨h.compatible, h.blocked, h.headWaits, h.list, Journal.consumed_kept _ _ h.backlog, h.places⟩
  · exact h

theorem keep_slotReadEnded (b : Option (List Byte)) : (slotReadEnded b p).Kept := by
  unfold slotReadEnded
  repeat' split
  · exact keep_enterFaulted h _
  · exact keep_slotExamined h _ _
  · exact keep_docketNext (keep_same h)
  · exact h

theorem keep_outcomeWritten (d : DmaEnd) : (outcomeWritten d p).Kept := by
  unfold outcomeWritten
  split
  · exact keep_same h
  · exact keep_enterFaulted h _
  · exact h

theorem keep_doneWritten (d : DmaEnd) : (doneWritten d p).Kept := by
  unfold doneWritten
  split
  · exact keep_same h
  · exact keep_enterFaulted h _
  · exact h

theorem keep_tallyWritten (d : DmaEnd) : (tallyWritten d p).Kept := by
  unfold tallyWritten
  split
  · refine keep_docketNext (keep_freeEntry (keep_newItem ?_) _)
    exact keep_same h
  · exact keep_enterFaulted h _
  · exact h

theorem keep_entryWritten (d : DmaEnd) : (entryWritten d p).Kept := by
  unfold entryWritten
  split
  · exact keep_same h
  · exact keep_enterFaulted h _
  · exact h

theorem keep_writtenCountWritten (d : DmaEnd) : (writtenCountWritten d p).Kept := by
  unfold writtenCountWritten
  split
  · exact keep_writtenCountEnded h
  · exact keep_enterFaulted h _
  · exact h

theorem keep_lostCountWritten (d : DmaEnd) : (lostCountWritten d p).Kept := by
  unfold lostCountWritten
  split
  · refine keep_journal h ?_
    unfold Journal.backlogKept
    rw [Journal.next_backlog]
    exact h.backlog
  · exact keep_enterFaulted h _
  · exact h

theorem keep_rereadEnded (v : Option Word) : (rereadEnded v p).Kept := by
  unfold rereadEnded
  repeat' split
  · exact keep_enterFaulted h _
  · exact keep_journal h (Journal.consumed_kept _ _ h.backlog)
  · exact h

end

end Sys2Proof.Machine
end

