-- ==== Sys2Proof/Laws/Shared.lean ====
section
/-!
SUPPORT. What asking for and releasing the shared resources does to the rest of the part, in the cases the statements meet;
what passing an event and requesting a commit leave unchanged; what issuing operations does.
-/
namespace Sys2Proof.Machine

-- one theorem after another: as one text with all others, each would hold a thread while it waits
set_option Elab.async false

/-! ## Releases -/

/-- Waiters with a reason to wait stay as they are. -/
theorem Locks.test_idle : ∀ {ws gs es : List Lock}, blockedBy gs es ws → Locks.test gs es ws = (⟨gs, es ++ ws⟩, [])
  | [], gs, es, _ => by simp [Locks.test]
  | w :: ws, gs, es, h => by
    unfold Locks.test
    rw [if_neg (by simp [h.1]), Locks.test_idle h.2]
    simp

theorem filter_of_all {α : Type} {f : α → Bool} {xs : List α} (h : ∀ x ∈ xs, f x = true) : xs.filter f = xs :=
  List.filter_eq_self.2 h

/-- A holder with nothing leaves the lock table as it is. -/
theorem Locks.leave_idle {t : Locks} {h : Holder} (hb : t.blocked) (hn : ∀ k ∈ t.granted ++ t.waiting, k.holder ≠ h) :
    t.leave h = (t, []) := by
  have hg : t.granted.filter (·.holder ≠ h) = t.granted :=
    filter_of_all fun k hk => by simpa using hn k (List.mem_append_left _ hk)
  have hw : t.waiting.filter (·.holder ≠ h) = t.waiting :=
    filter_of_all fun k hk => by simpa using hn k (List.mem_append_right _ hk)
  unfold Locks.leave Locks.retest
  rw [hg, hw]
  exact Locks.test_idle hb

/-- With nobody waiting, a release grants nothing. -/
theorem Locks.leave_noWaiters {t : Locks} {h : Holder} (hw : t.waiting = []) :
    t.leave h = (⟨t.granted.filter (·.holder ≠ h), []⟩, []) := by
  unfold Locks.leave Locks.retest
  rw [hw]
  rfl

theorem Pool.grant_idle {q : Pool} {ws : List (Holder × Nat)} (h : ∀ x ∈ ws.head?, q.freeCount < x.2) :
    q.grant ws = ({ q with waiting := ws }, []) := by
  cases ws with
  | nil => rfl
  | cons w ws =>
    have := h w (by simp)
    unfold Pool.grant
    rw [if_neg (by omega)]

theorem Pool.without_idle {q : Pool} {h : Holder} (hn : ∀ x ∈ q.holders.toList, x ≠ some h) : q.without h = q := by
  have : q.holders.map (fun x => if x = some h then none else x) = q.holders := by
    apply Vector.ext
    intro i hi
    rw [Vector.getElem_map, if_neg]
    exact hn _ (by simp)
  unfold Pool.without
  rw [this]

/-- A holder with nothing leaves the pool as it is. -/
theorem Pool.leave_idle {q : Pool} {h : Holder} (hw : q.headWaits) (hn : ∀ x ∈ q.holders.toList, x ≠ some h)
    (hn' : ∀ x ∈ q.waiting, x.1 ≠ h) : q.leave h = (q, []) := by
  have hf : q.waiting.filter (·.1 ≠ h) = q.waiting := filter_of_all fun x hx => by simpa using hn' x hx
  have hq : ({ q with holders := q.holders.map fun x => if x = some h then none else x } : Pool) = q := Pool.without_idle hn
  unfold Pool.leave
  rw [hf, hq, Pool.grant_idle hw]

theorem Pool.leave_noWaiters {q : Pool} {h : Holder} (hw : q.waiting = []) :
    q.leave h = (q.without h, []) := by
  unfold Pool.leave
  rw [hw]
  show ({ q.without h with waiting := [] }, _) = _
  congr 1
  cases q
  simp only at hw
  subst hw
  rfl

theorem Part.push_nil (p : Part) : p.push [] = p := by simp [Part.push]

/-- Releasing the lock and the buffers of a holder that has none changes nothing. -/
theorem releaseAll_idle {p : Part} {h : Holder} (hk : p.Kept) (hn : p.holdsNothing h) : releaseAll h p = p := by
  have hb : releaseBuffers h p = p := by
    unfold releaseBuffers
    rw [Pool.leave_idle hk.headWaits hn.2.1 hn.2.2]
    exact Part.push_nil p
  unfold releaseAll
  rw [hb]
  unfold releaseLock
  rw [Locks.leave_idle hk.blocked hn.1]
  exact Part.push_nil p

/-- With nobody waiting, a release frees what the holder has and grants nothing. -/
theorem releaseAll_noWaiters {p : Part} {h : Holder} (hw : p.noWaiters) :
    releaseAll h p =
      { p with locks := ⟨p.locks.granted.filter (·.holder ≠ h), []⟩, pool := p.pool.without h } := by
  have hb : releaseBuffers h p = { p with pool := p.pool.without h } := by
    unfold releaseBuffers
    rw [Pool.leave_noWaiters hw.2]
    exact Part.push_nil _
  unfold releaseAll
  rw [hb]
  unfold releaseLock
  rw [Locks.leave_noWaiters (t := ({ p with pool := p.pool.without h } : Part).locks) hw.1]
  exact Part.push_nil _

/-! ## Grants -/

theorem askLock_granted {p : Part} {k : Lock} (h : (k.clearOf p.locks.granted && k.clearOf p.locks.waiting) = true) :
    askLock k p =
      ({ p with locks := ⟨p.locks.granted ++ [k], p.locks.waiting⟩ } : Part).push [.lockGranted k.holder] := by
  unfold askLock Locks.join
  rw [if_pos h]
  rfl

theorem askLock_waits {p : Part} {k : Lock} (h : (k.clearOf p.locks.granted && k.clearOf p.locks.waiting) = false) :
    askLock k p = { p with locks := ⟨p.locks.granted, p.locks.waiting ++ [k]⟩ } := by
  unfold askLock Locks.join
  rw [if_neg (by simp [h])]
  exact Part.push_nil _

/-- A need that does not fit, or that comes behind a waiting head, waits. -/
theorem askBuffers_waits {p : Part} {h : Holder} {n : Nat} (hk : p.pool.headWaits)
    (hn : p.pool.waiting ≠ [] ∨ p.pool.freeCount < n) :
    askBuffers h n p = { p with pool := { p.pool with waiting := p.pool.waiting ++ [(h, n)] } } := by
  have hg : p.pool.join h n = ({ p.pool with waiting := p.pool.waiting ++ [(h, n)] }, []) := by
    unfold Pool.join
    apply Pool.grant_idle
    intro x hx
    cases hw : p.pool.waiting with
    | nil =>
      rw [hw] at hx
      simp only [List.nil_append, List.head?_cons, Option.mem_some_iff] at hx
      subst hx
      rcases hn with hn | hn
      · exact absurd hw hn
      · exact hn
    | cons w ws =>
      rw [hw] at hx
      exact hk x (by rw [hw]; simpa using hx)
  unfold askBuffers
  rw [hg]
  exact Part.push_nil _

/-- A need that fits, with nobody waiting, is granted at once. -/
theorem askBuffers_granted {p : Part} {h : Holder} {n : Nat} (hw : p.pool.waiting = []) (hn : n ≤ p.pool.freeCount) :
    askBuffers h n p = ({ p with pool := { p.pool.give h n with waiting := [] } } : Part).push [.buffersGranted h] := by
  unfold askBuffers Pool.join
  rw [hw]
  simp only [List.nil_append, Pool.grant, if_pos hn]
  rfl

/-! ## Events -/

section events
variable (e : Event) (p : Part)

theorem passEvent_eq : ∃ j, passEvent e p = { p with journal := j } := by
  unfold passEvent
  split
  · exact ⟨p.journal, rfl⟩
  · exact ⟨p.journal, rfl⟩
  · exact ⟨p.journal.take e, rfl⟩

/-- An event passed while the engine takes events reaches the journal writer (R181). -/
theorem passEvent_taken (h1 : p.engine.state ≠ .detached) (h2 : p.engine.state ≠ .faulted) :
    passEvent e p = { p with journal := p.journal.take e } := by
  unfold passEvent
  split <;> simp_all

@[simp] theorem passEvent_engine : (passEvent e p).engine = p.engine := by unfold passEvent; split <;> rfl
@[simp] theorem passEvent_docket : (passEvent e p).docket = p.docket := by unfold passEvent; split <;> rfl
@[simp] theorem passEvent_table : (passEvent e p).table = p.table := by unfold passEvent; split <;> rfl
@[simp] theorem passEvent_volumes : (passEvent e p).volumes = p.volumes := by unfold passEvent; split <;> rfl
@[simp] theorem passEvent_frozen : (passEvent e p).frozen = p.frozen := by unfold passEvent; split <;> rfl
@[simp] theorem passEvent_locks : (passEvent e p).locks = p.locks := by unfold passEvent; split <;> rfl
@[simp] theorem passEvent_pool : (passEvent e p).pool = p.pool := by unfold passEvent; split <;> rfl
@[simp] theorem passEvent_lanes : (passEvent e p).lanes = p.lanes := by unfold passEvent; split <;> rfl
@[simp] theorem passEvent_committer : (passEvent e p).committer = p.committer := by unfold passEvent; split <;> rfl
@[simp] theorem passEvent_repair : (passEvent e p).repair = p.repair := by unfold passEvent; split <;> rfl
@[simp] theorem passEvent_patrol : (passEvent e p).patrol = p.patrol := by unfold passEvent; split <;> rfl
@[simp] theorem passEvent_rebuild : (passEvent e p).rebuild = p.rebuild := by unfold passEvent; split <;> rfl
@[simp] theorem passEvent_interrupt : (passEvent e p).interrupt = p.interrupt := by unfold passEvent; split <;> rfl
@[simp] theorem passEvent_free : (passEvent e p).free = p.free := by unfold passEvent; split <;> rfl
@[simp] theorem passEvent_agenda : (passEvent e p).agenda = p.agenda := by unfold passEvent; split <;> rfl
@[simp] theorem passEvent_lane (l : LaneId) : (passEvent e p).lane l = p.lane l := by unfold passEvent; split <;> rfl
@[simp] theorem passEvent_vol (v : VolId) : (passEvent e p).vol v = p.vol v := by unfold passEvent; split <;> rfl
@[simp] theorem passEvent_entry (d : EntryId) : (passEvent e p).entry d = p.entry d := by unfold passEvent; split <;> rfl

end events

/-! ## Commit requests -/

/-- While a commit is in flight a request sets commit-requested and nothing else (R58). -/
theorem requestCommit_committing {p : Part} (h : p.committing) :
    requestCommit p = { p with committer := { p.committer with requested := true } } := by
  unfold requestCommit
  obtain ⟨hc, hs | hs⟩ := h <;> simp [hs, hc]

/-! ## Derivations -/

/-- Nothing is derived anew where every volume stands in its derived state. -/
theorem deriveVolumes_idle {p : Part} (h : p.derived) (l : LaneId) (tag : Word) : deriveVolumes l tag p = p := by
  have hv : ∀ v, deriveVolume (some l) tag p v = p := by
    intro v
    unfold deriveVolume
    by_cases hr : p.ready v = true
    · simp [(h v hr).symm]
    · simp [hr]
  unfold deriveVolumes
  have : ∀ vs : List VolId,
      vs.foldl (fun q v => if (q.vol v).members.has l then deriveVolume (some l) tag q v else q) p = p := by
    intro vs
    induction vs with
    | nil => rfl
    | cons v vs ih => simp only [List.foldl_cons, hv, ite_self, ih]
  rw [this allVols, ite_self]

/-- The derived states are seen through the lanes that are ONLINE alone. -/
theorem Part.derived_congr {p q : Part} (h : p.derived) (hv : ∀ v, q.vol v = p.vol v) (ho : ∀ l, q.online l = p.online l) :
    q.derived := by
  intro v hr
  have hr' : p.ready v = true := by unfold Part.ready at *; rw [← hv]; exact hr
  have := h v hr'
  unfold Part.derivedState Part.onlineMembers at *
  have ho' : q.online = p.online := funext ho
  rw [hv, ho']
  exact this

/-- A lane's change between states other than ONLINE derives nothing anew. -/
theorem Part.derived_setLane {p : Part} {l : LaneId} {x : Lane} (h : p.derived)
    (hx : (x.runtime = .online) ↔ ((p.lane l).runtime = .online)) : (p.setLane l x).derived := by
  refine Part.derived_congr h (fun v => rfl) fun k => ?_
  unfold Part.online
  rw [Part.lane_setLane]
  split
  · rename_i e
    subst e
    simp [hx]
  · rfl

/-- A lane's change between states other than ONLINE, outside ATTACHING: the state, the event, and a test of patrol's. -/
theorem changeRuntime_idle {p : Part} {l : LaneId} {new : RuntimeState} (c : LaneCause) (tag : Word) (h : p.derived)
    (hn : new ≠ .online) (ho : (p.lane l).runtime ≠ .online) (ha : p.engine.state ≠ .attaching) :
    changeRuntime l new c tag p =
      (passEvent (laneStateEvent l (p.lane l).runtime new c tag) (p.setLane l { p.lane l with runtime := new })).push
        [.patrolTry] := by
  have hd : (p.setLane l { p.lane l with runtime := new }).derived := Part.derived_setLane h (by simp [hn, ho])
  have hs : changeRuntime l new c tag p =
      (deriveVolumes l tag (if p.engine.state = .attaching then p.setLane l { p.lane l with runtime := new }
        else passEvent (laneStateEvent l (p.lane l).runtime new c tag) (p.setLane l { p.lane l with runtime := new }))).push
          [.patrolTry] := rfl
  rw [hs, if_neg ha, deriveVolumes_idle]
  exact Part.derived_congr hd (passEvent_vol _ _) fun k => by unfold Part.online; rw [passEvent_lane]

/-- The same without an event. -/
theorem setRuntimeQuietly_idle {p : Part} {l : LaneId} {new : RuntimeState} (h : p.derived) (hn : new ≠ .online)
    (ho : (p.lane l).runtime ≠ .online) :
    setRuntimeQuietly l new p = (p.setLane l { p.lane l with runtime := new }).push [.patrolTry] := by
  unfold setRuntimeQuietly
  simp only [Part.modLane]
  rw [deriveVolumes_idle (Part.derived_setLane h (by simp [hn, ho]))]

/-- A lane with no work that loses its presence hands nothing on. -/
theorem clearLaneWork_workless {p : Part} {l : LaneId} (h : (p.lane l).workless) :
    clearLaneWork l true p = p.setLane l { p.lane l with streak := 0, txn := none } := by
  obtain ⟨h1, h2, h3⟩ := h
  have he : (p.lane l).endedBy true = [] := by simp [Lane.endedBy, h1, h2, h3]
  have hc : (p.lane l).cleared true = { p.lane l with streak := 0, txn := none } := by
    generalize p.lane l = L at *
    cases L
    simp only at h1 h2 h3
    subst h1 h2 h3
    simp [Lane.cleared]
  unfold clearLaneWork
  rw [he, hc]
  exact Part.push_nil _

/-- With no plan work and no recovery pass a test of patrol's begins nothing. -/
theorem patrolTry_idle {p : Part} (h : p.patrolIdle) : patrolTry p = p := by
  unfold patrolTry
  simp [h.1, h.2]

theorem Part.atRest_passEvent {p : Part} (h : p.atRest) (e : Event) : (passEvent e p).atRest := by
  obtain ⟨j, hj⟩ := passEvent_eq e p
  rw [hj]
  exact ⟨h.1, Part.haltTested_congr (p := p) rfl rfl rfl rfl rfl rfl rfl rfl h.2⟩

/-- A command that hands on nothing but a test of patrol's, with nothing for patrol to begin. -/
theorem act_of_patrolTry {f : Part → Part} {p q : Part} (hf : f p = q.push [.patrolTry]) (hr : q.atRest) (hp : q.patrolIdle) :
    p.act f = q :=
  act_of_push hf hr.1 (patrolTry_idle hp) hr

/-! ## Issue -/

theorem runtime_setLane {p : Part} {l : LaneId} {x : Lane} (h : x.runtime = (p.lane l).runtime) (m : LaneId) :
    ((p.setLane l x).lane m).runtime = (p.lane m).runtime := by
  by_cases hm : m = l
  · subst hm
    simpa [Part.lane, Part.setLane] using h
  · have : l.val ≠ m.val := fun e => hm (Fin.ext e.symm)
    simp [Part.lane, Part.setLane, this]

theorem runtime_laneChoose (l m : LaneId) (p : Part) : ((laneChoose l p).lane m).runtime = (p.lane m).runtime := by
  unfold laneChoose
  dsimp only
  split
  · rfl
  · split
    · rfl
    · refine runtime_setLane (l := l) ?_ m
      rfl

/-- Issuing an operation changes no lane's runtime state. -/
theorem runtime_enqueue (l m : LaneId) (op : LaneOp) (p : Part) : ((enqueue l op p).lane m).runtime = (p.lane m).runtime := by
  unfold enqueue
  dsimp only
  split
  · rw [runtime_laneChoose]
    refine runtime_setLane (l := l) ?_ m
    rfl
  · refine runtime_setLane (l := l) ?_ m
    rfl

theorem online_enqueue (l m : LaneId) (op : LaneOp) (p : Part) : (enqueue l op p).online m = p.online m := by
  unfold Part.online
  rw [runtime_enqueue]

/-- The lanes that a VERIFY or a patrol chunk reads of those it has fixed (R83), each with the place of its share. -/
def sharesRead (gone : LaneMask) (p : Part) (j : Nat) (ls : List LaneId) : List (LaneId × Nat) :=
  (ls.zipIdx j).filter fun y => !gone.has y.1 && p.online y.1

/-- One operation is issued to each lane that is read, in the order of the lanes, and they are counted. -/
theorem issueShares_eq (cls : OpClass) (pr : Producer) (bufs : List BufId) (start n : Nat) (gone : LaneMask) (j : Nat)
    (ls : List LaneId) (p : Part) :
    issueShares cls pr bufs start n gone j ls p =
      ((sharesRead gone p j ls).foldl
        (fun q y => enqueue y.1 ⟨cls, .read, start, n, ((bufs.drop (y.2 * n)).take n).map .staging, pr, false⟩ q) p,
        (sharesRead gone p j ls).length) := by
  induction ls generalizing p j with
  | nil => rfl
  | cons l ls ih =>
    unfold issueShares
    by_cases h : (!gone.has l && p.online l) = true
    · have hs : ∀ op, sharesRead gone (enqueue l op p) (j + 1) ls = sharesRead gone p (j + 1) ls := fun op => by
        simp only [sharesRead, online_enqueue]
      have hc : sharesRead gone p j (l :: ls) = (l, j) :: sharesRead gone p (j + 1) ls := by
        simp only [sharesRead, List.zipIdx_cons, List.filter_cons, h, if_true]
      simp only [Part.accepts, h, if_true, ih, hs, hc, List.foldl_cons, List.length_cons]
    · have hc : sharesRead gone p j (l :: ls) = sharesRead gone p (j + 1) ls := by
        simp only [sharesRead, List.zipIdx_cons, List.filter_cons, h]
        rfl
      simp only [Part.accepts, h, ih, hc]
      rfl

end Sys2Proof.Machine
end

