-- ==== Sys2Proof/Tests/Slice0.lean ====
section
/-!
SUPPORT. The model's own tests: ill-formed operands are refused, the manual's worked examples, and for every statement with
hypotheses a state that meets them.
-/
namespace Sys2Proof.Tests
open Sys2Proof Sys2Proof.Machine

-- one theorem after another: as one text with the proofs of Laws, each would hold a thread until those are done
set_option Elab.async false

/-! ## States to test on: lanes 0 and 1 ONLINE members of volume 0, lane 2 FOREIGN, lane 3 EMPTY, a commit in flight -/

def onlineLane : Lane := {Lane.reset true with
    runtime := .online, recorded := .online, boundSerial := 7, serial := 7, budget := 3, identified := true,
    capacity := 4096, largest := 16}
def foreignLane : Lane :=
    {Lane.reset true with runtime := .foreign, identified := true, serial := 9, capacity := 4096, largest := 16}
def vol0 : Volume := {Volume.clear with inUse := true, state := .active, members := 0b0011, first := 2, length := 100}
def committer0 : Committer := {Committer.reset with
    serial := 1, generation := 5, inFlight := some ⟨5, false, 0b0011, .replicate 4 .pending⟩,
    slotInUse := #v[some .a, some .b, none, none]}
def part : Part := {Part.reset 0b0111 with
    engine := {Engine.reset with state := .running, base := 0x10000},
    lanes := #v[onlineLane, onlineLane, foreignLane, .reset false], volumes := (Vector.replicate 8 Volume.clear).set 0 vol0,
    committer := committer0,
    docket := {Docket.reset with offset := 4096, slots := 16, pollInterval := 5, pollRunning := true},
    journal := {Journal.reset with offset := 8192, entries := 64},
    interrupt := {Interrupt.reset with count := 4, delay := 5}}
def base : State := ⟨⟨0x10000, 0⟩, part, []⟩
def changed (f : Part → Part) : State := {base with part := f part}
def withLane (l : LaneId) (f : Lane → Lane) : State := changed fun p => p.modLane l f
def req0 : Request := ⟨0, 0, 0, 0x77, 0, 0, 0, 0, 0, 0, 0, 0, true⟩
def takingEntry (r : Request) : Entry := ⟨3, r, .taking, .none, .none, .ok, 0, 0, 0⟩
def withTaking (p : Part) (r : Request) : Part := {p with
    table := p.table.set 0 (some (takingEntry r)),
    docket := {p.docket with sweep := some ⟨3, 3, none, true, false⟩, xfer := some (.takenWrite 0)}}
def taking (r : Request) (f : Part → Part := id) : State := {base with part := withTaking (f part) r}
def someOp (k : OpKind) : LaneOp := ⟨.foreground, k, 10, 4, [.staging 0, .staging 1, .staging 2, .staging 3], .request 5,
    false⟩
def someService (k : OpKind) : Service := ⟨someOp k, [⟨k, 12, 2, 2⟩], some ⟨k, 10, 2, 0⟩, [], [], none, [], false, false⟩
def busy (L : Lane) : Lane := {L with service := some (someService .read), txn := some (.start (.read 10 2))}
def allBusy (p : Part) : Part := (p.modLane 0 busy).modLane 1 busy
def inState (atEntry : EngineState) (f : Engine → Engine := id) (g : Part → Part := id) : State := changed fun p =>
    g {p with engine := f {p.engine with state := atEntry}}
def attachingAt (a : AttachStep) (g : Part → Part := id) : State := inState .attaching (fun g => {g with attach := a}) g
def goodHeader : List Byte := [0x45,0x5A,0x46,0x31] ++ leBytes 4 256 ++ leBytes 4 768 ++ leBytes 2 8 ++ leBytes 2 16 ++
    [32, 5, 6, 15] ++ List.replicate 12 0 ++ leBytes 4 0x55 ++ List.replicate 220 0
def emptyLanes (p : Part) : Part := {p with
    lanes := #v[.reset true, .reset false, .reset true, .reset false], committer := .reset, volumes := .replicate 8 .clear}
def noCommit (p : Part) : Part := {p with committer := {p.committer with inFlight := none}}
def interrupting (f : Interrupt → Interrupt) : State := changed fun p =>
    {p with interrupt := f {p.interrupt with enabled := true}}
def identLane (c : Command) (i : IdentStep) : State := withLane 2 fun L => {L with
    runtime := .identifying, identification := some i, identified := false, serial := 0, capacity := 0, largest := 0,
    txn := some (.start c)}
def inTxn (f : Txn → Txn) : State := withLane 1 fun L => {busy L with txn := some (f (.start (.read 10 2)))}
def txn0 : Txn := .start (.read 10 2)
def nearLimits (t : Txn) : Txn := {t with replyResends := 2, commandResends := 2, notReady := 49}
def sending (c : Command) : State := withLane 1 fun L => {busy L with txn := some (.start c)}
def twoReads : PatrolChunk := ⟨0, 0, 8, .reads, [0, 1], [], 2, 0⟩
def cutService : Service := {someService .read with op := {someOp .read with producer := .patrol}, ending := true}
def probeEntry : Entry := {takingEntry {req0 with kind := 0x20} with state := .atLanes}
def lineTesting (f : Lane → Lane) : State := changed fun p =>
  let q := p.modLane 2 fun L => f {L with runtime := .probing, lineTest := some ⟨.foreign, 4⟩}
  {q with table := q.table.set 4 (some probeEntry)}
def departing : State := changed fun p => {p with
    repair := {p.repair with
        list := [⟨1, 0, 5, .weak, .read, 1, false⟩, ⟨0, 0, 6, .weak, .read, 2, false⟩], episode := true},
    table := p.table.set 7 (some {takingEntry req0 with state := .atLanes, work := .write ⟨false, 0b0011, 0, 0⟩})}
def commit0 : Commit := ⟨5, false, 0b0011, .replicate 4 .pending⟩
def writeService (f : Service → Service) : Service :=
    f {someService .write with op := {someOp .write with producer := .request 0}}
def writing (d : Command) (f : Lane → Lane) (g : Service → Service) : State := changed fun p =>
  let q := p.modLane 1 fun L => f {L with service := some (writeService g), txn := some (.start d)}
  {q with table := q.table.set 0 (some (takingEntry req0)), pool := {q.pool with data := q.pool.data.set 1 [9]}}
def twoBlocks : Command := .write 10 [[1],[2]]
def trial0 : Trial := ⟨11, [9], 5, false⟩
def inTrial (f : Service → Service) : Service → Service := fun v =>
    f {v with trial := some trial0, cur := none, faults := [(11, [9])]}
def spareWrite : Command := .write 3845 [[9]]
def spareRead : Command := .read 3845 1
def someRemaps (L : Lane) : Lane := {L with spareNext := 5, deadSpares := 1, remap := [(11, 2), (12, 3)]}
def writingLane (f : Lane → Lane) (d : Command) : Lane := (writing d f (inTrial id)).part.lane 1
def fillService : Service := {someService .fill with op := {someOp .fill with bufs := []}, cur := some ⟨.fill, 10, 20, 0⟩}
def fillState : State := withLane 1 fun L => {L with service := some fillService, txn := some (.start (.fill 10 20))}
def fillOne : Service := {fillService with cur := some ⟨.fill, 10, 1, 0⟩}
def fillOneState : State := withLane 1 fun L => {L with service := some fillOne, txn := some (.start (.fill 10 1))}
def recordService (s : RecordSlot) : Service := ⟨recordOp 1 s, [], some ⟨.write, s.block, 1, 0⟩, [], [], none, [], false,
    false⟩
def recordWriting (s : RecordSlot) (f : Part → Part) : State := changed fun p => f (p.modLane 1 fun L =>
    {L with service := some (recordService s), txn := some (.start (.write s.block [[1]]))})
def readReq : Request := {req0 with kind := kindRead, selector := 0x0F, count := 4, first := 3, address := 64}
def busyPart (f : Part → Part) : State := changed fun p =>
  let q := (allBusy p).modLane 2 fun L => {L with runtime := .probing, lineTest := some ⟨.stale, 3⟩}
  f {q with
    table := q.table.set 3 (some (takingEntry req0)), rebuild := {Rebuild.reset with state := .running, target := some 1},
    repair := {Repair.reset with
      list := [⟨1, 0, 5, .weak, .read, 1, true⟩], waiter := [⟨1, 0, 6, .weak, .patrol, 0⟩]}}
def withDocket (x : DocketXfer) : State := busyPart fun p =>
    {p with docket := {p.docket with xfer := some x, completions := [3]}}
def withJournal (x : JournalXfer) : State := busyPart fun p =>
    {p with journal := {p.journal with xfer := some x, backlog := [spanSkippedEvent 0 0 0 0]}}
def otherLock : Lock := ⟨.repair, 0, 4, 1, true⟩
def lockedOut (p : Part) : Part := {p with locks := ⟨[otherLock], []⟩}
def poolFull (p : Part) : Part := {p with pool := {p.pool with holders := .replicate 64 (some .rebuild)}}
def writeReq : Request := {readReq with kind := kindWrite, selector := 0}
def verifyReq : Request := {readReq with kind := kindVerify, selector := 0, address := 0}
def spread (p : Part) : Part := (allBusy p).setVol 0 {vol0 with policy := .spread, rotation := 1}
def defineReq : Request := {req0 with
    kind := kindDefine, target := 1, defMembers := 3, parameter := 0x11, defFirst := 200, defLength := 70000, address := 64}
def bigLanes (p : Part) : Part := (p.modLane 0 fun L => {L with capacity := 100000}).modLane 1 fun L =>
    {L with capacity := 100000}
def frozenPart (p : Part) : Part := {p with frozen := true}
def freezeReq : Request := {req0 with kind := kindFreeze}
def deleteReq : Request := {req0 with kind := kindDelete, target := 0}
def planA : Plan := ⟨[⟨0, 0, 50⟩, ⟨1, 0, 5⟩], true, 3, 2⟩
/-- A plan whose holdoff is 0. -/
def planNow : Plan := ⟨[⟨0, 0, 50⟩, ⟨1, 0, 5⟩], true, 3, 0⟩
def withPlan (p : Part) : Part := {p with
    patrol := {p.patrol with plan := some planA, state := .done},
    repair := {p.repair with list := [⟨1, 0, 5, .weak, .read, 1, false⟩], episode := true}}
/-- Patrol RUNNING with a chunk of another volume, an entry of volume 0 listed. -/
def otherChunk (p : Part) : Part := {withPlan p with patrol := {p.patrol with
    plan := some ⟨[⟨1, 0, 5⟩], true, 3, 2⟩, state := .running, chunk := some ⟨1, 0, 5, .lock, [], [], 0, 0⟩}}
def receivedEntry (r : Request) : Entry := {takingEntry r with state := .received}
def atEntry (x : Entry) (f : Part → Part := id) : State := changed fun p => f {p with table := p.table.set 0 (some x)}
def label0 : List Byte := List.replicate 16 7
def boundaryDefine : Request := {defineReq with defFirst := 102, defLength := 99642}
def admitReq : Request := {req0 with kind := kindLane, selector := 1, target := 2, parameter := 5}
def degraded3 (p : Part) : Part :=
  {p.setVol 3 {vol0 with members := 0b0101, state := .degraded, length := 50} with
    locks := ⟨[⟨.patrol, 3, 8, 8, false⟩], []⟩}
def retireReq : Request := {req0 with kind := kindLane, selector := 2, target := 2}
def probeReq : Request := {retireReq with selector := 3}
def planReq : Request := {req0 with kind := kindPlan, address := 128}
def snapshotReq : Request := {req0 with kind := kindSnapshot, address := 128}
def controlReq (k : Byte) : Request := {req0 with kind := kindControl, selector := k}
def writeData : Request := {req0 with kind := kindWrite, count := 2, first := 3, address := 64}
def fetchEntry : Entry := {takingEntry writeData with state := .fetching}
def holding2 (p : Part) : Part :=
    {allBusy p with locks := ⟨[⟨.request 0, 0, 3, 2, true⟩], []⟩, pool := (p.pool.give (.request 0) 2)}
def twoLanes : ReadWork := ⟨false, 0, [0, 1], [⟨some 0, false, []⟩, ⟨some 1, true, [0]⟩], 0, 3⟩
def oneLane : ReadWork := ⟨false, 0, [0], [⟨some 0, false, []⟩, ⟨some 0, true, []⟩], 0, 3⟩
def readEntry (w : Work) : Entry := {takingEntry {writeData with kind := kindRead} with state := .delivering, work := w}
def snapshotEntry : Entry := {takingEntry snapshotReq with state := .delivering, laneMask := 3}
def planEntry : Entry := {takingEntry planReq with state := .fetching}
def holding1 (p : Part) : Part := {p with pool := (p.pool.give (.request 0) 1)}
def planBytes (v : Byte) (n : Nat) : List Byte := [1, 1, 5, 0, 7] ++ List.replicate 11 0 ++ [v, 0, 0, 0] ++ leBytes 4 10 ++
    leBytes 4 n ++ List.replicate 100 0
def planB : Plan := ⟨[⟨0, 4, 50⟩, ⟨1, 0, 5⟩], true, 3, 2⟩
def patrolling (f : Patrol → Patrol) (g : Part → Part := id) : State := changed fun p =>
    g {p with patrol := f {p.patrol with plan := some planB}}
def lockedAll (p : Part) : Part := {p with locks := ⟨[⟨.request 3, 0, 4, 60, true⟩], []⟩}
def listOf30 (p : Part) : Part :=
    {p with repair := {p.repair with list := (List.range 30).map fun i => ⟨0, 0, i, .weak, .read, 0, false⟩}}
def sweeping (f : Docket → Docket) (g : Part → Part := id) : State := changed fun p => g {p with docket := f p.docket}
def sweep0 : Sweep := ⟨3, 3, some 1, true, false⟩
def slotBytes : List Byte := [1, 1, 0, 0] ++ List.replicate 60 0
def held (p : Part) : Part := {p with table := p.table.set 9 (some (takingEntry req0))}
def allHeld (p : Part) : Part := {p with table := .replicate 32 (some {takingEntry req0 with slot := 5})}
def oneHeld (p : Part) : Part := {p with table := p.table.set 0 (some {takingEntry req0 with slot := 5})}
def finishedEntry : Entry := {takingEntry req0 with
    state := .finishing, outcome := .recovered, laneMask := 5, detailA := 0x01020304, detailB := 7}
def completing (x : DocketXfer) (f : Part → Part := id) : State := changed fun p =>
    f {p with table := p.table.set 4 (some finishedEntry), docket := {p.docket with xfer := some x, tally := 41}}
def journal0 : Journal := {Journal.reset with entries := 16, offset := 4096, written := 5, lastRead := 2}
def event0 : Event := spanSkippedEvent 0 1 2 3
def journalState (x : JournalXfer) (f : Journal → Journal) : State := changed fun p =>
    {p with journal := f {journal0 with xfer := some x}}
def copyOf (l : LaneId) (s : Status) (c : Block) : Read := ⟨l, s, c⟩
def marksWait (p : Part) : Part :=
  let q := p.modVol 0 fun v => {v with hold := .waiting}
  {q with
    table := q.table.set 4 (some {takingEntry req0 with mark := .waiting}),
    committer := {q.committer with inFlight := none}}
def commitWith (e : WriteEnd) : Commit := ⟨5, false, 0b0011, #v[e, .written, .pending, .pending]⟩
def marksBound (e : WriteEnd) (r : Bool) : Part :=
  let q := part.modVol 0 fun v => {v with hold := .bound}
  {q with
    table := q.table.set 4 (some {takingEntry req0 with mark := .bound}),
    committer := {q.committer with inFlight := some (commitWith e), requested := r}}
def discovery (l : LaneId) (v : VolId) (b : Nat) (o : Origin) : Discovery := ⟨l, v, b, .mismatch, o, 9⟩
def listOf31 (r : Repair) : Repair := {r with list := (List.range 31).map fun i => ⟨0, 0, i, .weak, .read, 0, false⟩}
def fullList (e : Bool) (r : Repair) : Repair :=
    {r with list := (List.range 32).map fun i => ⟨0, 0, i, .weak, .read, 0, false⟩, episode := e}
def result (o : Host.Outcome State Fault Refusal) : State := match o with
  | .next t => t
  | _ => State.reset
def controlled (k : Byte) (f : Patrol → Patrol) : State := taking (controlReq k) fun p => { p with patrol := f p.patrol }
def fetchedPlan (f : Part → Part) : State := atEntry planEntry fun p => f (holding1 p)

/-- A raw level that differs from the sensed one, its qualification under way. -/
def levelling (level : Bool) (L : Lane) : Lane := {L with qualifying := true, raw := level}
def falling (f : Lane → Lane) (g : Part → Part := id) : State := changed fun p => g (p.modLane 2 fun L => f (levelling false L))
def rising (l : LaneId) (f : Lane → Lane) (g : Part → Part := id) : State :=
  changed fun p => g (p.modLane l fun L => f {levelling true L with present := false})

def spareAt (n : Nat) (L : Lane) : Lane := {someRemaps L with spareNext := n}

/-! ## The checks and locks that the statements spell out -/

def lockOf (e : EntryId) (x : Entry) (exclusive : Bool) : Lock :=
  ⟨.request e, x.req.volume, x.req.first.toNat, x.req.count.toNat, exclusive⟩

def verifyLanes (x : Entry) (p : Part) : List LaneId :=
  (compareSet x.req.selector (p.vol x.req.volume).members).lanes.filter (p.onlineMember x.req.volume)

def dataCheck (r : Request) (p : Part) : Option ReqOutcome :=
  let vol := p.vol r.volume
  let malformed : Bool :=
    r.count = 0 || 16 < r.count.toNat || (r.kind ≠ kindVerify && decide (r.address.toNat % 64 ≠ 0))
      || (r.kind = kindRead && decide (r.selector ∉ [0, 1, 2, 3, 0x0F]))
      || (r.kind = kindVerify && (16 ≤ r.selector.toNat
        || allLanes.any fun l => r.selector.getLsbD l.val && !vol.members.has l))
  if 8 ≤ r.target.toNat || !vol.inUse || vol.state = .filling then some .refusedVolume
  else if malformed then some .refusedFormat
  else if vol.length < r.first.toNat + r.count.toNat then some .refusedRange
  else if vol.state = .lost then some .lost
  else if r.kind = kindRead && r.selector.toNat ≤ 3
      && !(allLanes.any fun l => l.val = r.selector.toNat && vol.members.has l && p.online l) then some .refusedLane
  else none

abbrev defineFormed (r : Request) : Prop :=
  r.target.toNat < 8 ∧ r.defMembers.toNat ≤ 15 ∧ 2 ≤ (allLanes.filter fun l => r.defMembers.getLsbD l.val).length
    ∧ (∃ l : LaneId, (r.parameter &&& 0x0F).toNat = l.val ∧ r.defMembers.getLsbD l.val = true)
    ∧ ((r.parameter >>> 4) = 0 ∨ (r.parameter >>> 4) = 1) ∧ (r.selector = 0 ∨ r.selector = 1) ∧ r.defLength ≠ 0
    ∧ r.address.toNat % 64 = 0

def defineCheck (r : Request) (p : Part) : Option ReqOutcome :=
  let f := r.defFirst.toNat
  let n := r.defLength.toNat
  let clash (w : VolId) : Bool := (p.vol w).inUse && decide ((p.vol w).members &&& r.members ≠ 0)
    && f < (p.vol w).first + (p.vol w).length && (p.vol w).first < f + n
  if (p.vol r.volume).inUse then some .refusedVolume
  else if p.rebuild.state ≠ .idle then some .refusedBusy
  else if r.members.lanes.any fun l => !p.online l then some .refusedLane
  else if f < 2 || (r.members.lanes.any fun l => (p.lane l).capacity.toNat - 256 < f + n) then some .refusedRange
  else if allVols.any clash then some .refusedRange
  else none

def admitCheck (l : LaneId) (p : Part) : Option ReqOutcome :=
  let vs := p.volumesOf l
  if !(p.lane l).runtime.idle || !(p.lane l).identified then some .refusedLane
  else if p.rebuild.state ≠ .idle || vs.any (fun v => (p.vol v).state = .filling) then some .refusedBusy
  else if vs.any (fun v => (p.lane l).capacity.toNat < (p.vol v).first + (p.vol v).length + 256) then some .refusedCapacity
  else none

def startedPatrol (c : Instr) (q : Patrol) : Patrol :=
  if c = .holdoffExpiry then { q with holdoff := 0, state := .running }
  else { q with
    rest := 0, pass := q.pass + 1, span := 0, offset := 0, checked := 0, made := 0, unrecoverable := 0, sinceCheckpoint := 0
    state := .running }

def chunkLock (sp : Span) (q : Patrol) : Lock :=
  ⟨.patrol, sp.volume, sp.first + q.offset, min 8 (sp.count - q.offset), false⟩

theorem keptOf {p : Part} (h : p.locks.compatible ∧ p.locks.waiting = [] ∧ p.pool.headWaits ∧ p.repair.listKept
    ∧ p.journal.backlogKept ∧ ∀ l, (p.lane l).placesKept) : p.Kept where
  compatible := h.1
  blocked := by unfold Locks.blocked; rw [h.2.1]; trivial
  headWaits := h.2.2.1
  list := h.2.2.2.1
  backlog := h.2.2.2.2.1
  places := h.2.2.2.2.2

theorem inRange : HeaderInRange goodHeader := by constructor <;> decide +kernel

theorem notInRange : ¬ HeaderInRange (goodHeader.set 16 33) := fun h => absurd h.count (by decide +kernel)

/-- The slot read is POSTED and no entry holds it, in a form that `decide` takes. -/
abbrev posted (p : Part) (bs : List Byte) (n : Nat) : Prop := byteAt bs 0 = 1 ∧ ∀ e, ∀ x ∈ p.entry e, x.slot ≠ n

theorem posted_iff (p : Part) (bs : List Byte) (n : Nat) :
    posted p bs n ↔ byteAt bs 0 = 1 ∧ ∀ e x, p.entry e = some x → x.slot ≠ n := Iff.rfl

/-! ## Ill-formed operands are refused, one for each check of `Instr.wf` -/

theorem test_wf_accepts_sized_operands :
    (Instr.readReply 0 [0, 2] [[1]]).wf = true ∧ (Instr.writeReply 0 (List.replicate 16 0)).wf = true
      ∧ (Instr.defineLabelFetched 0 (some label0)).wf = true ∧ (Instr.writeDataFetched 0 (some [[1]])).wf = true
      ∧ (Instr.patrolPlanFetched 0 none).wf = true ∧ (Instr.slotRead (some slotBytes)).wf = true
      ∧ (Instr.headerRead (some goodHeader)).wf = true := by decide +kernel

theorem test_wf_refuses_readReply_without_statuses : (Instr.readReply 0 [] []).wf = false := by decide
theorem test_wf_refuses_readReply_of_17_blocks : (Instr.readReply 0 (List.replicate 17 0) []).wf = false := by decide
theorem test_wf_refuses_readReply_with_more_data_than_statuses : (Instr.readReply 0 [0] [[], []]).wf = false := by decide
theorem test_wf_refuses_readReply_with_an_overlong_block :
    (Instr.readReply 0 [0] [List.replicate 4097 0]).wf = false := by decide +kernel
theorem test_wf_refuses_writeReply_without_statuses : (Instr.writeReply 0 []).wf = false := by decide
theorem test_wf_refuses_writeReply_of_17_blocks : (Instr.writeReply 0 (List.replicate 17 0)).wf = false := by decide
theorem test_wf_refuses_a_short_label : (Instr.defineLabelFetched 0 (some [1])).wf = false := by decide
theorem test_wf_refuses_a_write_of_no_blocks : (Instr.writeDataFetched 0 (some [])).wf = false := by decide
theorem test_wf_refuses_a_write_of_17_blocks :
    (Instr.writeDataFetched 0 (some (List.replicate 17 []))).wf = false := by decide
theorem test_wf_refuses_a_write_with_an_overlong_block :
    (Instr.writeDataFetched 0 (some [List.replicate 4097 0])).wf = false := by decide +kernel
theorem test_wf_refuses_a_short_plan : (Instr.patrolPlanFetched 0 (some [1])).wf = false := by decide
theorem test_wf_refuses_a_short_slot : (Instr.slotRead (some [1])).wf = false := by decide
theorem test_wf_refuses_a_short_header : (Instr.headerRead (some [1])).wf = false := by decide

/-! ## Layouts of 13.3, byte by byte -/

theorem test_slot_bytes_read_as_their_fields :
    parseRequest ([1, 0x10, 0, 5, 0x44, 0x33, 0x22, 0x11, 1, 2, 3, 4, 6, 7, 1, 0x12, 0x40, 0, 0, 0, 0, 0, 0, 0x80, 8, 9, 0, 0,
        0, 1, 0, 0, 0x07] ++ List.replicate 31 0) =
      ⟨0x10, 0, 5, 0x11223344, 0x04030201, 0x0706, 1, 0x12, 0x8000000000000040, 0x0908, 0x100, 0x07, true⟩ := by
  decide +kernel

theorem test_lane_state_event_bytes :
    Placed.bytes ⟨0x01020304, laneStateEvent 2 .online .failed .strikes 9⟩ =
      [4, 3, 2, 1, EventKind.laneState.code, 2, 0xFF, 4, 4, 6, 0, 0, 0, 0, 0, 0, 0, 0, 0, 0, 0, 0, 0, 0, 9, 0, 0, 0, 0, 0, 0,
        0] := by decide +kernel

theorem test_outcome_bytes :
    Entry.outcomeBytes finishedEntry 42 = [0x01, 5, 0, 0, 4, 3, 2, 1, 7, 0, 0, 0, 42, 0, 0, 0] := by decide +kernel

theorem test_check_code_of_nine_digits :
    crc [0x31, 0x32, 0x33, 0x34, 0x35, 0x36, 0x37, 0x38, 0x39] = 0x29B1 := by decide +kernel

/-! ## The manual's worked examples -/

/-- Chapter 1: block 40 judged as its lanes change (volume 2, members 0, 1 and 3, reference lane 1). -/
theorem test_worked_example_of_the_agreement_rule :
    let X : Block := [1]
    let Y : Block := [2]
    agree (some 1) (copiesOf [⟨0, .good, X⟩, ⟨1, .corrected, Y⟩, ⟨3, .good, X⟩]) = ⟨some 0, 0b1001, 0b0010, false, 0b0010⟩
      ∧ agree (some 1) (copiesOf [⟨0, .good, X⟩, ⟨1, .good, Y⟩]) = ⟨some 1, 0b0010, 0b0001, false, 0⟩
      ∧ agree (some 0) (copiesOf [⟨0, .good, X⟩]) = ⟨some 0, 0b0001, 0, false, 0⟩
      ∧ agree (some 0) (copiesOf [⟨0, .unreadable, []⟩]) = ⟨none, 0, 0b0001, true, 0⟩ := by decide +kernel

/-- Chapter 5: the share ratio on one lane: F1, B1, F2 waiting with S = 2 and streak 0, then 1, then 2. -/
theorem test_worked_example_of_the_share_ratio :
    let f (n : Nat) : LaneOp := ⟨.foreground, .read, n, 1, [], .request 0, false⟩
    let b : LaneOp := ⟨.background, .read, 9, 1, [], .patrol, false⟩
    let r : LaneOp := ⟨.record, .write, 0, 1, [], .request 0, false⟩
    choose 2 0 [f 1, b, f 2] = some (f 1, [b, f 2], 1) ∧ choose 2 1 [b, f 2, f 3] = some (f 2, [b, f 3], 2)
      ∧ choose 2 2 [b, f 3, f 4] = some (b, [f 3, f 4], 0) ∧ choose 2 0 [f 3, f 4, r] = some (r, [f 3, f 4], 0) := by
  decide +kernel

/-! ## One step of a command -/

/-- What a step leaves of the state, where it answers a next state. -/
def after {α : Type} (o : Host.Outcome State Fault Refusal) (f : State → α) : Option α :=
  match o with
  | .next t => some (f t)
  | _ => none

theorem test_attach_refuses_an_unaligned_base :
    after (exec .attach { State.reset with port := ⟨0x10100, 0⟩ })
      (fun t => (t.part.engine.state, t.part.engine.attachError)) = some (.detached, .layout) := by decide +kernel

theorem test_halt_with_a_commit_in_flight_is_halting :
    after (exec .halt base) (fun t => (t.part.engine.state, t.part.interrupt.raised)) = some (.halting, 0) := by
  decide +kernel

theorem test_abandon_pulses_the_lanes_in_transaction :
    after (exec .abandon (changed allBusy)) (fun t => allLanes.map fun l => (t.part.lane l).pulse) =
      some [some .cut, some .cut, none, none] := by decide +kernel

/-- A word written to ENGINE has the effect of its row of the table (R187). -/
theorem test_engine_write_acts_as_its_row (s : State) (value : Word) :
    exec (engineWrite s.part.engine.state value) s = exec (.engineCommandRefused value) s := by
  unfold engineWrite
  split
  · rename_i h
    have hv : value.toNat = 1 ∨ value.toNat = 2 ∨ value.toNat = 3 ∨ value.toNat = 4 ∨ value.toNat = 5 := by
      revert h; unfold commandAllowed; split <;> simp_all
    rcases hv with hv | hv | hv | hv | hv <;> rw [hv] <;>
      simp only [exec, execEngineCommandRefused, execAttach, execHalt, execResume, execDetach, execAbandon, hv] <;> rfl
  · rfl

theorem test_step_takes_the_front_command :
    after (step { base with pending := [.nudge 1, .halt] }) (fun t => (t.pending, t.part.docket.xfer)) =
      some ([.halt], some (.consumedRead true)) := by decide +kernel

theorem test_departure_fails_the_lane_and_degrades_its_volume :
    after (exec (.departure 1 .strikes) base)
      (fun t => ((t.part.lane 1).runtime, (t.part.lane 1).recorded, (t.part.vol 0).state, t.part.committer.requested)) =
      some (.failed, .failed, .degraded, true) := by decide +kernel

theorem test_snapshot_report_bytes :
    ((part.snapshotBytes.drop 64).take 2, part.snapshotBytes.getD 192 0, (part.snapshotBytes.drop 320).take 3,
        part.snapshotBytes.getD 721 0) = ([4, 1], 2, [1, 1, 3], 0xFF) := by decide +kernel


/-! ## Every hypothesis is met

One theorem for each statement that has hypotheses: for each clause a state and operands that meet them all together. -/

theorem test_meets_StepTakesTheFrontCommand :
    ∃ (s : State), s.pending = [] :=
  ⟨base, by decide +kernel⟩

theorem test_meets_EveryStepKeepsTheLaws :
    ∃ (s : State) (t : State), s.part.Kept ∧ step s = .next t :=
  ⟨{base with pending := [.halt]}, (result (step {base with pending := [.halt]})), keptOf (by decide +kernel), rfl⟩

theorem test_meets_NoStepLeavesADrainedEngineHalting :
    ∃ (s : State) (t : State), s.part.haltTested ∧ step s = .next t :=
  ⟨{base with pending := [.halt]}, (result (step {base with pending := [.halt]})), by decide +kernel, rfl⟩

theorem test_meets_CommandsKeepTheAreaRegisters :
    ∃ (c : Instr) (s : State) (t : State), exec c s = .next t ∧
      (∀ (high : Bool) (value : Word), c ≠ Instr.areaWrite high value) ∧ (∀ (m : LaneMask), c ≠ Instr.powerOnReset m) ∧
      (∀ (m : LaneMask), c ≠ Instr.portReset m) :=
  ⟨.halt, base, (result (exec .halt base)), rfl, nofun, nofun, nofun⟩

theorem test_meets_ResetsGiveEveryBlockItsResetValues :
    ∃ (levels : LaneMask) (_ : State) (c : Instr), c ∈ [Instr.powerOnReset levels, Instr.portReset levels] :=
  ⟨5, base, (.powerOnReset 5), by decide +kernel⟩

theorem test_meets_AreaWritesAreTakenWhileDetached :
    let meets (also : Word → State → Prop) : Prop :=
      ∃ (value : Word) (s : State), also value s
    meets (fun _ s => s.part.engine.state = .detached)
      ∧ meets (fun _ s => s.part.engine.state ≠ .detached) :=
  ⟨⟨7, (inState .detached), by decide +kernel⟩,
    ⟨7, base, by decide +kernel⟩⟩

theorem test_meets_RefusedEngineCommandsOnlySetTheFlag :
    let meets (also : State → Prop) : Prop :=
      ∃ (s : State),
        (s.part.agenda = [] ∧ s.part.haltTested) ∧ also s
    meets (fun s => s.part.engine.state ≠ .detached)
      ∧ meets (fun s => s.part.engine.state ≠ .running)
      ∧ meets (fun s => s.part.engine.state ≠ .halted)
      ∧ meets (fun s => s.part.engine.state ≠ .halted ∧ s.part.engine.state ≠ .faulted)
      ∧ meets (fun s => s.part.engine.state = .detached)
      ∧ meets (fun _ => ∃ (code : Word), BitVec.toNat code = 0 ∨ 5 < BitVec.toNat code)
      ∧ meets (fun _ => ∃ (code : Word), BitVec.toNat code = 0 ∨ 5 < BitVec.toNat code) :=
  ⟨⟨base, by decide +kernel⟩,
    ⟨(inState .halting), by decide +kernel⟩,
    ⟨base, by decide +kernel⟩,
    ⟨base, by decide +kernel⟩,
    ⟨(inState .detached), by decide +kernel⟩,
    ⟨base, by decide +kernel, 6, by decide +kernel⟩,
    ⟨base, by decide +kernel, 0, by decide +kernel⟩⟩

theorem test_meets_AttachLatchesTheBase :
    let meets (also : State → Prop) : Prop :=
      ∃ (s : State), s.part.agenda = [] ∧
        s.part.engine.state = .detached ∧ also s
    meets (fun s => (s.port.areaHi ++ s.port.areaLo).toNat % 4096 = 0)
      ∧ meets (fun s => (s.port.areaHi ++ s.port.areaLo).toNat % 4096 ≠ 0) :=
  ⟨⟨(inState .detached), by decide +kernel⟩,
    ⟨{inState .detached with port := ⟨0x10001, 0⟩}, by decide +kernel⟩⟩

theorem test_meets_HeaderReadTestsAndHandsOut :
    let meets (also : State → Prop) : Prop :=
      ∃ (s : State),
        (s.part.agenda = [] ∧ s.part.engine.state = .attaching ∧ s.part.engine.attach = .headerRead) ∧ also s
    meets (fun _ => True)
      ∧ meets (fun _ => ∃ (bs : List Byte), List.take 4 bs ≠ [69, 90, 70, 49])
      ∧ meets (fun _ => ∃ (bs : List Byte), List.take 4 bs = [69, 90, 70, 49] ∧ ¬HeaderInRange bs)
      ∧ meets (fun _ => ∃ (bs : List Byte), List.take 4 bs = [69, 90, 70, 49] ∧ HeaderInRange bs) :=
  ⟨⟨(attachingAt .headerRead), by decide +kernel⟩,
    ⟨(attachingAt .headerRead), by decide +kernel, (goodHeader.set 3 0),
        by decide +kernel⟩,
    ⟨(attachingAt .headerRead), by decide +kernel, (goodHeader.set 16 33),
        by decide +kernel, notInRange⟩,
    ⟨(attachingAt .headerRead), by decide +kernel, goodHeader, by decide +kernel,
        inRange⟩⟩

theorem test_meets_AttachHeaderWritesLeadToIdentification :
    let meets (also : State → Prop) : Prop :=
      ∃ (s : State), s.part.agenda = [] ∧
        s.part.engine.state = .attaching ∧ also s
    meets (fun s => s.part.engine.attach = .tallyWrite)
      ∧ meets (fun s => s.part.engine.attach = .writtenWrite)
      ∧ meets (fun s => s.part.engine.attach = .lostWrite)
      ∧ meets (fun s => s.part.engine.attach = .lostWrite ∧ (∃ l, (s.part.lane l).present = true) ∧ (∀ (l : LaneId),
        (s.part.lane l).runtime = .empty ∧ (s.part.lane l).hold = false)) :=
  ⟨⟨(attachingAt .tallyWrite), by decide +kernel⟩,
    ⟨(attachingAt .writtenWrite), by decide +kernel⟩,
    ⟨(attachingAt .lostWrite emptyLanes), by decide +kernel⟩,
    ⟨(attachingAt .lostWrite emptyLanes), by decide +kernel⟩⟩

/-- No lane is present: every lane, the committer and the units stand at their reset values. -/
def noLanes (p : Part) : Part := {Part.reset 0 with engine := p.engine, journal := p.journal, interrupt := p.interrupt}

theorem test_meets_AttachHeaderWritesLeadToIdentification_without_lanes :
    let p := (attachingAt .lostWrite noLanes).part
    p.agenda = [] ∧ p.engine.state = .attaching ∧ p.engine.attach = .lostWrite
      ∧ (∀ l, (p.lane l).present = false ∧ (p.lane l).identified = false ∧ (p.lane l).runtime = .empty)
      ∧ (∀ e, p.entry e = none) ∧ (∀ v, p.vol v = .clear) ∧ p.committer = .reset ∧ p.repair = .reset ∧ p.patrol = .reset
      ∧ p.rebuild = .reset ∧ p.docket.sweep = none ∧ p.docket.xfer = none ∧ p.docket.completions = [] := by decide +kernel

/-- Lane 2 identifies in ATTACHING, no volume in use. -/
def assembling (c : Command) (i : IdentStep) : State := inState .attaching (fun g => {g with attach := .identifying}) fun p =>
  let q := p.modLane 2 fun L => {L with
    runtime := .identifying, identified := false, identification := some i, txn := some (.start c)}
  {q with volumes := .replicate 8 .clear, committer := .reset}

abbrev identifiesInAssembly (s : State) (l : LaneId) : Prop :=
  s.part.agenda = [] ∧ s.part.engine.state = .attaching ∧ s.part.engine.attach = .identifying
    ∧ (s.part.lane l).runtime = .identifying ∧ (s.part.lane l).held = false ∧ ∀ v, (s.part.vol v).inUse = false

def record0 : SetRecord where
  serial := 77
  generation := 9
  clean := true
  lanes := #v[⟨.online, 7, 3⟩, ⟨.online, 7, 15⟩, ⟨.online, 9, 0⟩, ⟨.unbound, 0, 0⟩]
  volumes := [⟨2, 0b0011, 0, .fixed, 2, 10, label0⟩, ⟨5, 0b0101, 2, .spread, 20, 10, label0⟩]
  plan := some ⟨[⟨2, 0, 5⟩, ⟨5, 1, 6⟩], true, 3, 4⟩
  patrol := .running
  checkpoint := ⟨1, 5, 6⟩
  position := 2
  remap := [(30, 0), (31, 2)]
  spareNext := 4
  deadSpares := 2

theorem test_meets_AttachHeaderWritesLeadToIdentification_identified :
    let fails := assembling .ident .ident
    let reads := assembling (.read 0 2) (.slots 5 1024 16)
    let contents (codes : List Byte) (ss : List Status) (data : List Block) (a b : Option Block) : Prop :=
      codes.length = 2 ∧ readStatuses codes = some ss ∧ data.length = (ss.filter Status.readable).length
        ∧ slotContents ss data = [a, b]
    (identifiesInAssembly fails 2 ∧ (fails.part.lane 2).awaited = some .ident)
      ∧ (identifiesInAssembly reads 2 ∧ (reads.part.lane 2).awaited = some (.read 0 2)
        ∧ (reads.part.lane 2).identification = some (.slots 5 1024 16))
      ∧ contents [0, 0] [.good, .good] [[1], [2]] (some [1]) (some [2])
      ∧ contents [2, 1] [.unreadable, .corrected] [[1]] none (some [1]) := by
  and_intros <;> decide +kernel

/-- Lanes 0 and 1 with identity 7 and lane 2 with identity 9, and their newest valid records. -/
def identifiedLanes (rs : Vector (Option SetRecord) 4) : Part :=
  let p := (assembling .ident .ident).part
  let seen (serial : BitVec 64) (L : Lane) : Lane := {L with
    identified := true, runtime := .foreign, serial := serial, identification := none, txn := none}
  {((p.modLane 0 (seen 7)).modLane 1 (seen 7)).modLane 2 (seen 9) with committer := {Committer.reset with newest := rs}}

def newest0 (r : SetRecord) : Vector (Option SetRecord) 4 := #v[some {r with position := 0},
  some {r with position := 1, generation := 8}, some r, some {r with position := 3}]

abbrev assemblesFrom (p : Part) : Prop :=
  p.engine.state = .attaching ∧ p.engine.attach = .identifying ∧ ∀ v, (p.vol v).inUse = false

theorem test_meets_AttachHeaderWritesLeadToIdentification_assembly :
    let clean := identifiedLanes (newest0 record0)
    let unclean := identifiedLanes (newest0 {record0 with clean := false})
    let bare := identifiedLanes (newest0 {record0 with volumes := []})
    let waits := (assembling .ident .ident).part
    let nothing := identifiedLanes (.replicate 4 none)
    let settled (p : Part) : Prop := ∀ l, (p.lane l).runtime ≠ .identifying
    let governs (p : Part) (also : SetRecord → Bool) : Bool := (p.governing allLanes).any fun x => x.1 = 0 && also x.2
    (assemblesFrom waits ∧ ∃ l, (waits.lane l).runtime = .identifying)
      ∧ (assemblesFrom nothing ∧ settled nothing ∧ nothing.governing allLanes = none)
      ∧ (assemblesFrom unclean ∧ settled unclean ∧ governs unclean (fun r => !r.clean && r.volumes ≠ []) = true)
      ∧ (assemblesFrom clean ∧ settled clean ∧ governs clean (fun r => r.clean) = true)
      ∧ (assemblesFrom bare ∧ settled bare ∧ governs bare (fun r => r.volumes = []) = true) := by
  and_intros <;> decide +kernel

theorem test_meets_AttachHeaderWritesLeadToIdentification_loaded :
    let p := identifiedLanes (newest0 record0)
    let bare : SetRecord := {record0 with clean := false, volumes := []}
    let unclean : SetRecord := {record0 with clean := false}
    (∀ v, p.vol v = .clear) ∧ (record0.volumes.map (·.number)).Nodup ∧ record0.clean = true
      ∧ (bare.volumes.map (·.number)).Nodup ∧ bare.volumes = [] ∧ (unclean.volumes.map (·.number)).Nodup
      ∧ unclean.clean = false ∧ unclean.volumes ≠ [] := by decide +kernel

theorem test_serial_0_matches_no_position :
    let bound0 : SetRecord := {record0 with lanes := record0.lanes.set 0 ⟨.online, 0, 8⟩}
    let p := identifiedLanes (newest0 bound0)
    let q := p.modLane 0 fun L => {L with serial := 0}
    q.candidate 0 = some {bound0 with position := 0} ∧ q.matching bound0 0 = none ∧ q.mapped bound0 0 = .foreign
      ∧ p.mapped record0 0 = .online := by decide +kernel

def takenInHand (p : Part) : Part := {noCommit p with
    docket := {p.docket with sweep := some ⟨3, 3, some 3, true, false⟩, xfer := some (.takenWrite 3), rerun := true},
    table := p.table.set 3 (some (takingEntry req0))}
def repairWaiting (p : Part) : Part := {noCommit p with repair := {p.repair with
    work := some ⟨1, 0, 5, .patrol, 9, .lock, false, false, [], [], none, none, none, false⟩,
    waiter := [⟨0, 0, 1, .weak, .patrol, 0⟩]}}
def failedLane0 (p : Part) : Part := p.modLane 0 fun L => {L with runtime := .failed}
def rebuildChunk0 : RebuildChunk := ⟨0, 0, 16, .source, [0], [0], [], 2⟩
def rebuildingLane1 (c : Option RebuildChunk) (aborting : Bool) (p : Part) : Part :=
  {p.modLane 1 (fun L => {L with runtime := .rebuilding, recorded := .rebuilding}) with
    rebuild := {Rebuild.reset with
      state := .running, target := some 1, volumes := [0], cursorBlock := 60, copied := 60, chunk := c, aborting := aborting},
    volumes := p.volumes.set 0 {vol0 with state := .degraded}}

theorem test_meets_HaltStopsSweepsAndEntersHalted :
    let inHand (p : Part) : Prop := (∃ e, p.entry e ≠ none) ∨ p.patrol.chunk ≠ none ∨ p.repair.work ≠ none
      ∨ p.rebuild.chunk ≠ none ∨ p.committer.inFlight ≠ none ∨ p.committer.requested = true
    let noTaken (p : Part) : Prop := ∀ e, p.docket.xfer ≠ some (.takenWrite e)
    let meets (f : Part → Part) (also : Part → Prop) : Prop :=
      let p := (changed f).part
      (p.agenda = [] ∧ p.engine.state = .running ∧ (p.repair.work ≠ none ∨ p.repair.waiter = [])
        ∧ ∀ e, p.docket.xfer = some (.takenWrite e) → p.entry e ≠ none) ∧ also p
    meets noCommit (fun p => ¬ inHand p ∧ noTaken p)
      ∧ meets (fun p => held (noCommit p)) (fun p => inHand p ∧ noTaken p)
      ∧ meets takenInHand (fun p => inHand p ∧ p.docket.xfer = some (.takenWrite 3))
      ∧ meets (fun p => {noCommit p with patrol := {p.patrol with chunk := some twoReads}}) inHand
      ∧ meets repairWaiting (fun p => inHand p ∧ p.repair.waiter ≠ [])
      ∧ meets (fun p => rebuildingLane1 (some rebuildChunk0) false (noCommit p)) inHand
      ∧ meets id inHand
      ∧ meets (fun p => {noCommit p with committer := {(noCommit p).committer with requested := true}}) inHand := by
  and_intros <;> decide +kernel

theorem test_meets_HaltStopsSweepsAndEntersHalted_where_work_in_hand_ends :
    let d : Docket := {part.docket with sweep := some ⟨15, 3, some 3, true, true⟩, xfer := some (.takenWrite 3)}
    let entry : DiscEntry := ⟨1, 0, 5, .weak, .read, 1, false⟩
    let halting (f : Part → Part) : Part := (inState .halting id f).part
    let waits := halting fun p => {p with repair := {p.repair with
      waiter := [⟨0, 0, 1, .weak, .patrol, 0⟩], list := [{entry with inRepair := true, block := 4}, entry]}}
    (d.sweep = some ⟨15, 3, some 3, true, true⟩ ∧ d.rerun = false)
      ∧ ((halting id).engine.state = .halting ∧ (halting id).patrol.stops = [])
      ∧ ((halting id).repair.work = none ∧ (halting id).repair.waiter = [])
      ∧ waits.engine.state = .halting ∧ waits.repair.work = none ∧ waits.repair.waiter ≠ [] ∧ waits.repair.paused = false
      ∧ waits.repair.list.find? (fun y => !y.inRepair) = some entry := by
  and_intros <;> decide +kernel

def haltedAt (f : Part → Part) : Part := (inState .halted (g := fun p => f {noCommit p with
  patrol := {p.patrol with paused := true, plan := some planB, offset := 45},
  repair := {p.repair with paused := true}, rebuild := {p.rebuild with paused := true}})).part
/-- Patrol at its first span, or at a volume's recovery, the extents about it locked. -/
def patrolLocked (f : Patrol → Patrol) : Part := haltedAt fun p => lockedAll {p with patrol := f p.patrol}

theorem test_meets_ResumeStartsSweepAndUnits :
    let rests (q : Patrol) : Prop := q.marker = false ∧ q.state ≠ .running ∧ q.state ≠ .waiting
      ∧ (q.state = .holdoff → q.holdoff ≠ 0) ∧ (q.state = .resting → q.rest ≠ 0)
    let meets (p : Part) (also : Part → Patrol → Prop) : Prop :=
      (p.agenda = [] ∧ p.engine.state = .halted ∧ p.docket.sweep = none) ∧ also p p.patrol
    let repairRests (p : Part) : Prop := p.repair.list = [] ∧ p.repair.work = none
    let conflicts (k : Lock) (p : Part) : Prop := (k.clearOf p.locks.granted && k.clearOf p.locks.waiting) = false
    let patrols (p : Part) (sp : Span) (also : Patrol → Prop) : Prop := meets p fun p q =>
      q.chunk = none ∧ (q.marker = true ∨ q.state = .running ∨ q.state = .waiting) ∧ repairRests p ∧ p.rebuild.target = none
        ∧ p.ready sp.volume = true ∧ p.isLost sp.volume = false ∧ sp.first + sp.count ≤ (p.vol sp.volume).length
        ∧ conflicts ⟨.patrol, sp.volume, sp.first + q.offset, min 8 (sp.count - q.offset), false⟩ p ∧ also q
    let entry : DiscEntry := ⟨1, 0, 5, .weak, .read, 1, false⟩
    meets (haltedAt id) (fun p q => rests q ∧ repairRests p ∧ p.rebuild.target = none)
      ∧ meets (haltedAt fun p => {p with patrol := {p.patrol with state := .holdoff, holdoff := 1}})
        (fun p q => rests q ∧ repairRests p ∧ p.rebuild.target = none)
      ∧ patrols (patrolLocked fun q => {q with state := .running}) ⟨0, 4, 50⟩
        (fun q => q.marker = false ∧ q.plan = some planB ∧ planB.spans[q.span]? = some ⟨0, 4, 50⟩)
      ∧ patrols (patrolLocked fun q => {q with state := .waiting}) ⟨0, 4, 50⟩
        (fun q => q.marker = false ∧ q.plan = some planB ∧ planB.spans[q.span]? = some ⟨0, 4, 50⟩)
      ∧ patrols (patrolLocked fun q => {q with marker := true, recovery := [0, 1]}) ⟨0, 0, 100⟩
        (fun q => q.marker = true ∧ q.recovery = [0, 1])
      ∧ meets (haltedAt fun p => lockedAll {p with repair := {p.repair with list := [{entry with inRepair := true}, entry]}})
        (fun p q => rests q ∧ p.repair.work = none ∧ p.rebuild.target = none
          ∧ p.repair.list.find? (fun y => !y.inRepair) = some entry ∧ conflicts ⟨.repair, 0, 5, 1, true⟩ p)
      ∧ meets (haltedAt fun p => lockedAll (rebuildingLane1 none false p)) (fun p q => rests q ∧ repairRests p
        ∧ p.rebuild.target = some 1 ∧ p.rebuild.state = .running ∧ p.rebuild.aborting = false ∧ p.rebuild.chunk = none
        ∧ p.rebuild.passed = false ∧ (p.vol 0).inUse = true ∧ (p.vol 0).state ≠ .lost ∧ p.rebuild.cursorVol = 0
        ∧ conflicts ⟨.rebuild, 0, 60, 16, true⟩ p) := by
  and_intros <;> decide +kernel

theorem test_meets_DetachEntersDetachedOrDetaching :
    let meets (also : State → Prop) : Prop :=
      ∃ (s : State), also s
    meets (fun s => s.part.engine.state = .faulted)
      ∧ meets (fun s => s.part.agenda = [] ∧ s.part.engine.state = .halted ∧ s.part.committer.inFlight.isSome = true) :=
  ⟨⟨(inState .faulted fun g => {g with faultCause := .slot}), by decide +kernel⟩,
    ⟨(inState .halted), by decide +kernel⟩⟩

def allForeign (p : Part) : Part := {p with lanes := p.lanes.map fun L => {L with runtime := .foreign}}

theorem test_meets_DetachEntersDetachedOrDetaching_without_a_commit :
    let halted (p : Part) : Prop := p.agenda = [] ∧ p.engine.state = .halted ∧ p.committer.inFlight = none
      ∧ (∀ e, p.entry e = none) ∧ p.repair.work = none ∧ p.rebuild.chunk = none
    let none_ := (inState .halted id fun p => allForeign (noCommit p)).part
    let some_ := (inState .halted id noCommit).part
    (halted none_ ∧ ∀ l, none_.serviceable l = false)
      ∧ (halted some_ ∧ (∃ l, some_.serviceable l = true) ∧ ∀ l, some_.serviceable l = true →
        (some_.lane l).service = none ∧ (some_.lane l).txn = none ∧ (some_.lane l).hold = false
          ∧ (some_.lane l).queue = []) := by
  and_intros <;> decide +kernel

/-- The final commit, lane 1's record write its last one. -/
def finalCommit (e : WriteEnd) : Commit := ⟨6, true, 0b0011, #v[e, .pending, .pending, .pending]⟩
def detachingWith (slot : RecordSlot) (e : WriteEnd) (fresh : Bool) : State :=
  let s := recordWriting slot fun p => {p with
    engine := {p.engine with state := .detaching, mark := .bound}
    committer := {p.committer with inFlight := some (finalCommit e), clean := true, fresh := .replicate 4 fresh}}
  s

abbrev finishesTheFinalCommit (p : Part) (slot : RecordSlot) (e : WriteEnd) : Prop :=
  (p.agenda = [] ∧ p.engine.state = .detaching ∧ p.engine.mark = .bound ∧ (∀ e, p.entry e = none) ∧ p.repair.work = none
      ∧ p.rebuild.chunk = none)
    ∧ ((p.lane 1).awaited = some (.write slot.block [[1]]) ∧ (p.lane 1).service = some (recordService slot)
      ∧ (p.lane 1).queue = [] ∧ (p.lane 1).waiters = [])
    ∧ p.committer.inFlight = some (finalCommit e) ∧ p.committer.requested = false
    ∧ (p.committer.fresh[1] = false ∨ slot = .b)
    ∧ ∀ m : LaneId, m ≠ 1 → (finalCommit e).targets.has m = true → (finalCommit e).ends[m.val] ∈ [.written, .faulted, .lost]

theorem test_meets_DetachEntersDetachedOrDetaching_at_the_final_commits_end :
    finishesTheFinalCommit (detachingWith .a .written false).part .a .written
      ∧ finishesTheFinalCommit (detachingWith .b .lost true).part .b .lost := by
  and_intros <;> decide +kernel

theorem test_meets_AbandonEndsTheAttachmentAtOnce :
    ∃ (s : State), s.part.engine.state ≠ .detached :=
  ⟨(changed allBusy), by decide +kernel⟩

theorem test_meets_NudgeAndPollMakeASweepDue :
    let meets (also : Word → State → Prop) : Prop :=
      ∃ (value : Word) (s : State), s.part.atRest ∧ also value s
    meets (fun _ s => s.part.engine.state ≠ .running)
      ∧ meets (fun _ s => s.part.docket.pollRunning = false)
      ∧ meets (fun value s => ∃ (c : Instr), (c = Instr.nudge value ∧
        s.part.engine.state = .running ∨ c = Instr.pollTimerExpiry ∧ s.part.docket.pollRunning = true) ∧
          s.part.docket.sweep = none ∧ s.part.docket.xfer = none ∧ s.part.docket.completions = [])
      ∧ meets (fun value s => ∃ (c : Instr), (c = Instr.nudge value ∧
        s.part.engine.state = .running ∨ c = Instr.pollTimerExpiry ∧ s.part.docket.pollRunning = true) ∧
          s.part.docket.sweep ≠ none)
      ∧ meets (fun value s => ∃ (c : Instr), (c = Instr.nudge value ∧
        s.part.engine.state = .running ∨ c = Instr.pollTimerExpiry ∧ s.part.docket.pollRunning = true) ∧
          s.part.docket.sweep = none ∧ s.part.docket.xfer = none ∧ s.part.docket.completions = []) :=
  ⟨⟨7, (inState .halted), by decide +kernel⟩,
    ⟨7, (changed fun p => {p with docket := {p.docket with pollRunning := false}}), by decide +kernel⟩,
    ⟨7, base, by decide +kernel, (.nudge 7), by decide +kernel⟩,
    ⟨7, (changed fun p => {p with docket := {p.docket with sweep := some ⟨3, 3, some 3, true, false⟩}}), by decide +kernel,
        (.nudge 7), by decide +kernel⟩,
    ⟨7, base, by decide +kernel, .pollTimerExpiry, by decide +kernel⟩⟩

theorem test_meets_DelayTimerExpiryRaisesTheMessage :
    let meets (also : State → Prop) : Prop :=
      ∃ (s : State), s.part.atRest ∧ also s
    meets (fun s => s.part.interrupt.timer = true ∧ 0 < s.part.interrupt.items)
      ∧ meets (fun s => s.part.interrupt.timer = true ∧ s.part.interrupt.items = 0)
      ∧ meets (fun s => s.part.interrupt.timer = false) :=
  ⟨⟨(interrupting fun u => {u with timer := true, items := 2}), by decide +kernel⟩,
    ⟨(interrupting fun u => {u with timer := true}), by decide +kernel⟩,
    ⟨(interrupting id), by decide +kernel⟩⟩

theorem test_meets_LevelChangesWaitForTheirQualification :
    ∃ (_ : LaneId) (_ : Bool) (s : State), s.part.atRest :=
  ⟨1, false, base, by decide +kernel⟩

theorem test_meets_PresenceLossIsTakenByTheEngineState :
    let meets (also : Engine → Lane → Part → LaneId → Prop) : Prop :=
      ∃ (l : LaneId) (s : State), s.part.atRest ∧ also s.part.engine (s.part.lane l) s.part l
    let ends (also : Engine → Lane → Part → LaneId → Prop) : Prop :=
      meets fun g L p l => L.present = true ∧ L.qualifying = true ∧ L.raw = false ∧ also g L p l
    let taken (also : Lane → Part → LaneId → Prop) : Prop :=
      ends fun g L p l => (g.state ≠ .detached ∧ g.state ≠ .attaching) ∧ also L p l
    meets (fun _ L _ _ => L.present = false)
      ∧ meets (fun _ L _ _ => L.present = true ∧ L.qualifying = false)
      ∧ meets (fun _ L _ _ => L.present = true ∧ L.qualifying = true ∧ L.raw = true)
      ∧ ends (fun g _ _ _ => g.state = .detached)
      ∧ ends (fun g L _ _ => g.state = .attaching ∧ g.attach = .identifying ∧ L.runtime = .identifying)
      ∧ taken (fun L _ _ => L.lineTest ≠ none)
      ∧ taken (fun L p l => L.lineTest = none ∧ p.serviceable l = true)
      ∧ taken (fun L p _ => L.lineTest = none ∧ L.runtime.idle = true ∧ L.workless ∧ p.derived ∧ p.patrolIdle)
      ∧ taken (fun L p _ => L.lineTest = none ∧ L.runtime = .identifying ∧ L.workless ∧ p.derived ∧ p.patrolIdle)
      ∧ taken (fun L _ _ => L.lineTest = none ∧ L.runtime = .empty ∧ L.workless) :=
  ⟨⟨3, base, by decide +kernel⟩, ⟨2, base, by decide +kernel⟩,
    ⟨2, withLane 2 (levelling true), by decide +kernel⟩,
    ⟨2, falling id fun p => {p with engine := Engine.reset}, by decide +kernel⟩,
    ⟨2, falling (fun L => {L with runtime := .identifying}) fun p =>
      {p with engine := {Engine.reset with state := .attaching, attach := .identifying}}, by decide +kernel⟩,
    ⟨2, falling fun L => {L with lineTest := some ⟨.foreign, 0⟩}, by decide +kernel⟩,
    ⟨1, withLane 1 (levelling false), by decide +kernel⟩,
    ⟨2, falling id, by decide +kernel⟩,
    ⟨2, falling fun L => {L with runtime := .identifying}, by decide +kernel⟩,
    ⟨2, falling fun L => {L with runtime := .empty}, by decide +kernel⟩⟩

theorem test_meets_PresenceArrivalBeginsIdentification :
    let meets (also : Engine → Lane → Part → Prop) : Prop :=
      ∃ (l : LaneId) (s : State), s.part.atRest ∧ also s.part.engine (s.part.lane l) s.part
    let ends (also : Engine → Lane → Part → Prop) : Prop :=
      meets fun g L p => L.present = false ∧ L.qualifying = true ∧ L.raw = true ∧ also g L p
    let taken (also : Lane → Part → Prop) : Prop :=
      ends fun g L p => (g.state ≠ .detached ∧ g.state ≠ .attaching ∧ g.state ≠ .faulted) ∧ also L p
    meets (fun _ L _ => L.present = true)
      ∧ meets (fun _ L _ => L.present = false ∧ L.qualifying = false)
      ∧ meets (fun _ L _ => L.present = false ∧ L.qualifying = true ∧ L.raw = false)
      ∧ ends (fun g _ _ => g.state = .detached)
      ∧ ends (fun g _ _ => g.state = .faulted)
      ∧ ends (fun g L _ => g.state = .attaching ∧ g.attach = .identifying ∧ L.absent = true)
      ∧ ends (fun g L _ => g.state = .attaching ∧ g.attach = .identifying ∧ L.runtime = .identifying)
      ∧ taken (fun L _ => L.runtime ≠ .empty)
      ∧ taken (fun L p => L.runtime = .empty ∧ L.hold = false ∧ p.derived ∧ p.patrolIdle) :=
  ⟨⟨2, base, by decide +kernel⟩, ⟨3, base, by decide +kernel⟩,
    ⟨3, withLane 3 (levelling false), by decide +kernel⟩,
    ⟨3, rising 3 id fun p => {p with engine := Engine.reset}, by decide +kernel⟩,
    ⟨3, rising 3 id fun p => {p with engine := {p.engine with state := .faulted}}, by decide +kernel⟩,
    ⟨3, rising 3 (fun L => {L with absent := true}) fun p =>
      {p with engine := {Engine.reset with state := .attaching, attach := .identifying}}, by decide +kernel⟩,
    ⟨2, rising 2 (fun L => {L with runtime := .identifying}) fun p =>
      {p with engine := {Engine.reset with state := .attaching, attach := .identifying}}, by decide +kernel⟩,
    ⟨2, rising 2 id, by decide +kernel⟩,
    ⟨3, rising 3 id, by decide +kernel⟩⟩

theorem test_meets_IdentReplyLeadsToTheSlotRead :
    let meets (also : LaneId → BitVec 64 → Word → Word → State → Prop) : Prop :=
      ∃ (l : LaneId) (serial : BitVec 64) (capacity : Word) (largest : Word) (s : State),
        s.part.atRest ∧ (s.part.lane l).awaited = some Command.ident ∧ also l serial capacity largest s
    meets (fun _ _ capacity largest _ => 1024 ≤ BitVec.toNat capacity ∧ 16 ≤ BitVec.toNat largest)
      ∧ meets (fun l _ capacity largest s => (BitVec.toNat capacity < 1024 ∨ BitVec.toNat largest < 16) ∧
        s.part.engine.state ≠ .attaching ∧ (s.part.lane l).runtime = .identifying ∧ s.part.derived ∧ s.part.patrolIdle) :=
  ⟨⟨2, 5, 1024, 16, (identLane .ident .ident), by decide +kernel⟩,
    ⟨2, 5, 1023, 16, (identLane .ident .ident), by decide +kernel⟩⟩

theorem test_meets_SlotReadEndsIdentification :
    ∃ (l : LaneId) (s : State) (serial : BitVec 64) (capacity : Word) (largest : Word) (codes : List Byte) (ss : List Status) (data : List Block) (a : Option Block) (b : Option Block),
      s.part.atRest ∧ s.part.engine.state ≠ .attaching ∧ (s.part.lane l).awaited = some (Command.read 0 2) ∧
      (s.part.lane l).identification = some (IdentStep.slots serial capacity largest) ∧
      (s.part.lane l).runtime = .identifying ∧ s.part.derived ∧ s.part.patrolIdle ∧ codes.length = 2 ∧
      readStatuses codes = some ss ∧ data.length = (List.filter Status.readable ss).length ∧
      slotContents ss data = [a, b] :=
  ⟨2, (identLane (.read 0 2) (.slots 5 1024 16)), 5, 1024, 16, [2, 1], [.unreadable, .corrected], [[1]], none, (some [1]),
    by decide +kernel⟩

def record1 (p : Bool) : SetRecord :=
  ⟨77, 5, true, #v[⟨.online, 7, 3⟩, ⟨.departed, 8, 15⟩, ⟨.unbound, 0, 0⟩, ⟨.failed, 9, 1⟩],
    [⟨2, 3, 1, .spread, 5, 100, List.replicate 16 9⟩, ⟨7, 6, 2, .fixed, 500, 100, List.replicate 16 1⟩],
    if p then some ⟨[⟨2, 4, 50⟩, ⟨7, 0, 3⟩], true, 300, 7⟩ else none, .waiting, ⟨1, 2, 9⟩, 3, [(5, 0), (9, 255)], 256, 254⟩

/-- The tests of R57 on a block's bytes but for its check code, and that each code names a state. -/
abbrev recordFields (bs : List Byte) : Prop :=
  let count (i n : Nat) : Nat := fieldAt bs i n
  let planned : Prop := byteAt bs 22 ≠ 0
  (bs.take 4 = [0x45, 0x5A, 0x52, 0x31] ∧ count 4 8 ≠ 0 ∧ count 12 8 ≠ 0 ∧ count 40 1 ≤ 3 ∧ count 21 1 ≤ 8
      ∧ count 23 1 ≤ 8 ∧ (planned → 1 ≤ count 23 1) ∧ count 42 2 ≤ 256 ∧ count 44 2 ≤ 256 ∧ count 46 2 ≤ 256
      ∧ count 42 2 + count 46 2 = count 44 2
      ∧ ((List.range (count 42 2)).map fun i => count (512 + 8 * i) 4).Nodup
      ∧ ((List.range (count 42 2)).map fun i => count (516 + 8 * i) 2).Nodup)
    ∧ (∀ i : LaneId, count (64 + 16 * i.val) 1 ≤ 5) ∧ count 29 1 ≤ 5
    ∧ (∀ i, i < count 21 1 → count (128 + 32 * i) 1 ≤ 7 ∧ count (130 + 32 * i) 1 ≤ 3 ∧ count (131 + 32 * i) 1 ≤ 1)
    ∧ (planned → ∀ i, i < count 23 1 → count (384 + 12 * i) 1 ≤ 7)

theorem checkCode_at_the_end (body : List Byte) (h : body.length = 4094) :
    let bs := body ++ leBytes 2 (crc body).toNat
    (crc (bs.take 4094)).toNat = fieldAt bs 4094 2 := by
  have hc := (crc body).isLt
  simp only [fieldAt, ← h, List.take_left, List.drop_left, leBytes, ofLe, List.take, BitVec.toNat_ofNat]
  omega

theorem test_meets_SlotReadEndsIdentification_from_a_record (planned : Bool) :
    let bs := (record1 planned).block
    recordFields bs ∧ (crc (bs.take 4094)).toNat = fieldAt bs 4094 2 := by
  refine ⟨by cases planned <;> decide +kernel, checkCode_at_the_end _ ?_⟩
  have h : (record1 planned).fieldBytes.length ≤ 4094 := by cases planned <;> decide +kernel
  simp only [List.length_append, List.length_replicate]
  omega

theorem test_meets_SlotReadEndsIdentification_from_no_record :
    [].take 4 ≠ ([0x45, 0x5A, 0x52, 0x31] : List Byte) ∧ parseRecord none = none := by decide

theorem test_meets_ReadReplyGoesOnWithTheOperation :
    (∃ (l : LaneId) (s : State) (codes : List Byte) (ss : List Status) (data : List Block) (block : Nat) (n : Nat)
      (sv : Service) (x : Piece) (y : Piece) (rest : List Piece), s.part.atRest ∧
        (s.part.lane l).awaited = some (Command.read block n) ∧ (s.part.lane l).identification = none ∧
          (s.part.lane l).service = some sv ∧ sv.trial = none ∧ sv.cur = some x ∧ sv.faults = [] ∧ sv.zeros = [] ∧
            sv.todo = y :: rest ∧ y.kind = .read ∧ codes.length = n ∧ readStatuses codes = some ss ∧
              data.length = (List.filter Status.readable ss).length)
      ∧ (∃ (op : LaneOp) (i : Nat) (st : Status) (_ : List Status) (_ : Block) (_ : List Block) (b : BufId) (_ : Part),
        op.bufs[i]? = some (BufRef.staging b) ∧ (st = Status.good ∨ st = Status.corrected))
      ∧ (∃ (op : LaneOp) (i : Nat) (st : Status) (_ : List Status) (_ : Block) (_ : List Block) (b : BufId) (_ : Part),
        op.bufs[i]? = some (BufRef.staging b) ∧ st ≠ Status.good ∧ st ≠ Status.corrected) :=
  ⟨⟨1, (withLane 1 busy), [1, 2], [.corrected, .unreadable], [[5]], 10, 2, (someService .read), ⟨.read, 10, 2, 0⟩, ⟨.read,
      12, 2, 2⟩, [], by decide +kernel⟩,
    ⟨(someOp .read), 1, .good, [.good], [1], [[2]], 1, part, by decide +kernel⟩,
    ⟨(someOp .read), 1, .unreadable, [.good], [1], [[2]], 1, part, by decide +kernel⟩⟩

def lastRead (v : Service) : Service := {v with todo := [], results := [.good, .unreadable], cur := some ⟨.read, 12, 2, 2⟩}
def lastReading : State := changed fun p => {p.modLane 1 (fun L => {L with
    service := some (lastRead (someService .read)), txn := some (.start (.read 12 2))}) with
  table := p.table.set 5 (some {takingEntry readReq with
    state := .atLanes, work := .read ⟨false, 1, [1], .replicate 4 ⟨none, false, []⟩, 2, 0⟩})}

theorem test_meets_ReadReplyGoesOnWithTheOperation_at_its_end :
    let L := lastReading.part.lane 1
    let sv := lastRead (someService .read)
    let answers (codes : List Byte) (ss : List Status) (data : List Block) : Prop :=
      codes.length = 2 ∧ readStatuses codes = some ss ∧ data.length = (ss.filter Status.readable).length
    (lastReading.part.agenda = [] ∧ L.awaited = some (.read 12 2) ∧ L.identification = none ∧ L.service = some sv
      ∧ sv.trial = none ∧ sv.cur = some ⟨.read, 12, 2, 2⟩ ∧ sv.faults = [] ∧ sv.zeros = [] ∧ sv.todo = [])
      ∧ answers [0, 0] [.good, .good] [[5], [6]] ∧ answers [1, 2] [.corrected, .unreadable] [[5]] := by
  and_intros <;> decide +kernel

theorem test_meets_ReadReplyGoesOnWithTheOperation_where_the_producer_keeps_its_end :
    let p := lastReading.part
    let t (r : OpEnd) : Part := operationEnded 1 (someOp .read) r (p.setLane 1 {p.lane 1 with service := none})
    p.agenda = [] ∧ (p.lane 1).queue = [] ∧ (p.lane 1).waiters = [] ∧ (t .laneLost).atRest
      ∧ (t (.completed [.good, .good, .good, .unreadable] false)).atRest := by
  and_intros <;> decide +kernel

theorem test_meets_ReadReplyGoesOnWithTheOperation_where_an_operation_is_split :
    (someOp .read).remapCall = false ∧ ((recordOp 1 .a).cls = .record ∧ 1 ≤ (recordOp 1 .a).count)
      ∧ (someOp .read).cls ≠ .record ∧ ((someRemaps onlineLane).remap.map Prod.fst).Nodup
      ∧ ∃ x ∈ (someRemaps onlineLane).translate (someOp .read), ∃ r ∈ (someRemaps onlineLane).remap,
        r.1 = (someOp .read).start + x.pos := by decide +kernel

theorem test_meets_BadRepliesAndNotReadyRetryTheTransaction :
    let meets (also : Txn → Prop) : Prop :=
      ∃ (l : LaneId) (s : State) (t : Txn), s.part.atRest ∧ (s.part.lane l).txn = some t ∧ also t
    meets (fun t => t.phase = .awaiting ∧ t.replyResends < 3 ∧ t.commandResends < 3 ∧ t.notReady < 50)
      ∧ meets (fun t => t.phase = .awaiting ∧ 3 ≤ t.replyResends)
      ∧ meets (fun t => t.phase = .awaiting ∧ 50 ≤ t.notReady)
      ∧ meets (fun t => t.phase = .notReadyWait)
      ∧ meets (fun t => t.phase ≠ .awaiting) :=
  ⟨⟨1, inTxn nearLimits, nearLimits txn0, by decide +kernel⟩,
    ⟨1, inTxn fun t => {t with replyResends := 3}, {txn0 with replyResends := 3}, by decide +kernel⟩,
    ⟨1, inTxn fun t => {t with notReady := 50}, {txn0 with notReady := 50}, by decide +kernel⟩,
    ⟨1, inTxn fun t => {t with phase := .notReadyWait}, {txn0 with phase := .notReadyWait}, by decide +kernel⟩,
    ⟨1, inTxn fun t => {t with phase := .timeoutHold}, {txn0 with phase := .timeoutHold}, by decide +kernel⟩⟩

theorem test_meets_ModuleResendSendsTheCommandAgain :
    let meets (also : LaneId → State → Txn → Prop) : Prop :=
      ∃ (l : LaneId) (s : State) (t : Txn), s.part.atRest ∧
        (s.part.lane l).txn = some t ∧ t.phase = TxnPhase.awaiting ∧ also l s t
    meets (fun _ _ t => t.commandResends < 3)
      ∧ meets (fun _ _ t => 3 ≤ t.commandResends) :=
  ⟨⟨1, (inTxn nearLimits), (nearLimits txn0), by decide +kernel⟩,
    ⟨1, (inTxn fun t => {t with commandResends := 3}), {txn0 with commandResends := 3}, by decide +kernel⟩⟩

theorem test_meets_LinkFailuresCountAStrike :
    let meets (also : LaneId → State → Txn → Prop) : Prop :=
      ∃ (l : LaneId) (s : State) (t : Txn), s.part.atRest ∧
        (s.part.lane l).txn = some t ∧ also l s t
    meets (fun l s _ => s.part.serviceable l = true ∧ 2 ≤ (s.part.lane l).budget)
      ∧ meets (fun l s _ => s.part.serviceable l = true ∧ (s.part.lane l).budget ≤ 1 ∧ s.part.engine.state ≠ .faulted)
      ∧ meets (fun l s _ => (s.part.lane l).runtime = .identifying ∧ s.part.engine.state ≠ .attaching ∧ s.part.derived ∧
        s.part.patrolIdle) :=
  ⟨⟨1, (changed fun p => ((p.modLane 1 busy).modLane 1 fun L => {L with budget := 2})), txn0, by decide +kernel⟩,
    ⟨1, (changed fun p => ((p.modLane 1 busy).modLane 1 fun L => {L with budget := 1})), txn0, by decide +kernel⟩,
    ⟨2, (identLane .ident .ident), (.start .ident), by decide +kernel⟩⟩

theorem test_meets_CausesOfLinkFailures :
    let meets (also : LaneId → State → Txn → Prop) : Prop :=
      ∃ (l : LaneId) (s : State) (t : Txn),
        ((s.part.lane l).txn = some t ∧ t.phase = TxnPhase.awaiting) ∧ also l s t
    meets (fun _ _ t => 3 ≤ t.replyResends)
      ∧ meets (fun _ _ t => 50 ≤ t.notReady)
      ∧ meets (fun _ _ t => ∃ (_ : List Byte) (_ : List Block), ∀ (b n : Nat), t.cmd ≠ Command.read b n)
      ∧ meets (fun _ _ t => ∃ (_ : List Byte), ∀ (b : Nat) (d : List Block), t.cmd ≠ Command.write b d)
      ∧ meets (fun _ _ t => ∃ (_ : Byte), ∀ (b n : Nat), t.cmd ≠ Command.fill b n)
      ∧ meets (fun _ _ t => ∃ (_ : BitVec 64) (_ : Word) (_ : Word), t.cmd ≠ Command.ident)
      ∧ meets (fun _ _ t => ∃ (b : Nat) (n : Nat) (codes : List Byte) (data : List Block), t.cmd = Command.read b n ∧
        codes.length = n ∧ (data.length = (List.filter (fun c => decide (c = 0 ∨ c = 1)) codes).length) ∧ (∃ c, c ∈ codes ∧
          3 ≤ BitVec.toNat c))
      ∧ meets (fun _ _ t => ∃ (b : Nat) (d : List Block) (codes : List Byte), t.cmd = Command.write b d ∧
        codes.length = d.length ∧ (∃ c, c ∈ codes ∧ c ≠ 0 ∧ c ≠ 3))
      ∧ meets (fun _ _ t => ∃ (b : Nat) (n : Nat) (code : Byte), t.cmd = Command.fill b n ∧ code ≠ 0 ∧ code ≠ 3) :=
  ⟨⟨1, (inTxn fun t => {t with replyResends := 3}), {txn0 with replyResends := 3}, by decide +kernel⟩,
    ⟨1, (inTxn fun t => {t with notReady := 50}), {txn0 with notReady := 50}, by decide +kernel⟩,
    ⟨1, (sending .ident), (.start .ident), by decide +kernel, [0], [[]], nofun⟩,
    ⟨1, (sending .ident), (.start .ident), by decide +kernel, [0], nofun⟩,
    ⟨1, (sending .ident), (.start .ident), by decide +kernel, 0, nofun⟩,
    ⟨1, (inTxn id), txn0, by decide +kernel, 0, 0, 0, by decide +kernel⟩,
    ⟨1, (inTxn id), txn0, by decide +kernel, 10, 2, [1, 3], [[]], by decide +kernel⟩,
    ⟨1, (sending (.write 10 [[]])), (.start (.write 10 [[]])), by decide +kernel, 10, [[]], [1],
        by decide +kernel⟩,
    ⟨1, (sending (.fill 10 4)), (.start (.fill 10 4)), by decide +kernel, 10, 4, 1, by decide +kernel⟩⟩

theorem test_meets_CausesOfLinkFailures_of_another_size :
    let meets (also : Command → Prop) : Prop :=
      ∃ (l : LaneId) (s : State) (t : Txn), ((s.part.lane l).txn = some t ∧ t.phase = .awaiting) ∧ also t.cmd
    let reads (codes : List Byte) (data : List Block) : Prop :=
      meets fun c => c = .read 10 2 ∧
        (codes.length ≠ 2 ∨ data.length ≠ (codes.filter fun c => c = 0 ∨ c = 1).length)
    let writes (codes : List Byte) : Prop := meets fun c => c = .write 10 [[]] ∧ codes.length ≠ [([] : Block)].length
    reads [0] [[]] ∧ reads [0, 1, 2] [[], []] ∧ reads [0, 2] [[], []]
      ∧ writes [] ∧ writes [0, 0] :=
  ⟨⟨1, inTxn id, txn0, by decide +kernel⟩, ⟨1, inTxn id, txn0, by decide +kernel⟩, ⟨1, inTxn id, txn0, by decide +kernel⟩,
    ⟨1, sending (.write 10 [[]]), .start (.write 10 [[]]), by decide +kernel⟩,
    ⟨1, sending (.write 10 [[]]), .start (.write 10 [[]]), by decide +kernel⟩⟩

theorem test_meets_CausesOfLinkFailures_in_the_messages :
    let well (type : Byte) (payload : List Byte) : Instr := classify 1 (some (.read 10 2)) (messageBytes type payload)
    let status : List Byte := [2, 2]
    let odd : List Byte := messageBytes 0xAF []
    status.length < 2 ^ 32 ∧ ([] : List Byte).length < 2 ^ 32
      ∧ (odd.take 6).length < 7 ∧ fieldAt (odd.set 1 4) 1 4 ≠ (odd.set 1 4).length - 7
      ∧ fieldAt (odd.set 0 0xAE) 5 2 ≠ (crc ((odd.set 0 0xAE).take 5)).toNat
      ∧ status.length = 2 + 4096 * (status.filter fun c => c = 0 ∨ c = 1).length
      ∧ well 0xA2 status = .readReply 1 [2, 2] [] ∧ well 0xA3 status = .badReply 1 ∧ well 0xAF [] = .moduleResend 1
      ∧ well 0xAE [] = .notReady 1 := by
  and_intros <;> decide +kernel

theorem test_meets_CausesOfLinkFailures_in_the_replies :
    let replies (c : Command) (type : Byte) (payload : List Byte) (i : Instr) : Prop :=
      payload.length < 2 ^ 32 ∧ classify 1 (some c) (messageBytes type payload) = i
    replies .ident 0xA1 (leBytes 8 0x1122 ++ leBytes 4 4096 ++ leBytes 4 16) (.identReply 1 0x1122 4096 16)
      ∧ replies (.write 7 [[1], [2]]) 0xA3 [0, 3] (.writeReply 1 [0, 3])
      ∧ replies (.fill 7 30) 0xA4 [3] (.fillReply 1 3) ∧ replies (.fill 7 30) 0xA4 [0, 0] (.badReply 1)
      ∧ (Sent.bytes (.command (.read 5000 4))).take 13 = [0x52, 8, 0, 0, 0, 0x88, 0x13, 0, 0, 4, 0, 0, 0] := by
  and_intros <;> decide +kernel

theorem test_meets_TimeoutsAndHoldPulses :
    let meets (also : LaneId → State → Prop) : Prop :=
      ∃ (l : LaneId) (s : State), s.part.atRest ∧ also l s
    meets (fun l s => ∃ (t : Txn), (s.part.lane l).txn = some t ∧ t.phase = TxnPhase.awaiting)
      ∧ meets (fun l s => ∃ (t : Txn), (s.part.lane l).txn = some t ∧ (s.part.lane l).pulse = some Pulse.timeout)
      ∧ meets (fun l s => ∃ (t : Txn), (s.part.lane l).txn = some t ∧ (s.part.lane l).pulse = some Pulse.timeout ∧
        s.part.serviceable l = true ∧ 2 ≤ (s.part.lane l).budget)
      ∧ meets (fun l s => (s.part.lane l).txn = none ∧ (s.part.lane l).identification ≠ some IdentStep.ident ∧
        (s.part.lane l).service = none ∧ (s.part.lane l).queue = [] ∧ (s.part.lane l).pulse = some Pulse.departure)
      ∧ meets (fun l s => (s.part.lane l).txn = none ∧ (s.part.lane l).identification ≠ some IdentStep.ident ∧
        (s.part.lane l).service = none ∧ (s.part.lane l).queue = [] ∧ (s.part.lane l).pulse = some Pulse.cut)
      ∧ meets (fun l s => (s.part.lane l).txn = none)
      ∧ meets (fun l s => (s.part.lane l).pulse = none)
      ∧ meets (fun l s => ∃ (sv : Service) (c : PatrolChunk), (s.part.lane l).txn = none ∧
        (s.part.lane l).identification = none ∧ (s.part.lane l).pulse = some Pulse.departure ∧
          (s.part.lane l).service = some sv ∧ sv.ending = true ∧ sv.op.producer = Producer.patrol ∧
            (s.part.lane l).queue = [] ∧ (s.part.lane l).waiters = [] ∧ s.part.patrol.chunk = some c ∧ 2 ≤ c.outstanding) :=
  ⟨⟨1, (inTxn id), by decide +kernel, txn0, by decide +kernel⟩,
    ⟨1, (withLane 1 fun L => {busy L with txn := some {txn0 with phase := .timeoutHold}, pulse := some .timeout}),
        by decide +kernel, {txn0 with phase := .timeoutHold}, by decide +kernel⟩,
    ⟨1, (withLane 1 fun L => {busy L with txn := some {txn0 with phase := .timeoutHold}, pulse := some .timeout}),
        by decide +kernel, {txn0 with phase := .timeoutHold}, by decide +kernel⟩,
    ⟨2, (withLane 2 fun L => {L with pulse := some .departure}), by decide +kernel⟩,
    ⟨2, (withLane 2 fun L => {L with pulse := some .cut}), by decide +kernel⟩,
    ⟨2, base, by decide +kernel⟩,
    ⟨2, base, by decide +kernel⟩,
    ⟨1, (changed fun p => {p.modLane 1 (fun L => {L with
        runtime := .failed, pulse := some .departure,
        service := some cutService}) with patrol := {Patrol.reset with state := .running, chunk := some twoReads}}),
          by decide +kernel, cutService, twoReads, by decide +kernel⟩⟩

theorem test_meets_LineTestEndsTheProbe :
    let meets (also : LaneId → LineLevels → State → LineTest → Entry → Prop) : Prop :=
      ∃ (l : LaneId) (x : LineLevels) (s : State) (t : LineTest) (y : Entry),
        (s.part.atRest ∧ (s.part.lane l).lineTest = some t ∧ (s.part.lane l).runtime = .probing ∧ t.remembered.idle =
        true ∧ s.part.entry t.entry = some y ∧ s.part.holdsNothing (Holder.request t.entry) ∧ s.part.derived ∧
        s.part.patrolIdle) ∧ s.part.Kept ∧ also l x s t y
    meets (fun l _ s _ _ => (s.part.lane l).fell = false)
      ∧ meets (fun l _ s _ _ => (s.part.lane l).fell = true ∧ (s.part.lane l).present = false ∧ (s.part.lane l).workless ∧
        s.part.engine.state ≠ .attaching) :=
  ⟨⟨2, ⟨false, true, true, false⟩, (lineTesting id), ⟨.foreign, 4⟩, probeEntry, by decide +kernel, keptOf (by decide +kernel), by decide +kernel⟩,
    ⟨2, ⟨false, false, true, false⟩, (lineTesting fun L => {L with fell := true, present := false}), ⟨.foreign, 4⟩,
        probeEntry, by decide +kernel,
          keptOf (by decide +kernel), by decide +kernel⟩⟩

def patrolRead : LaneOp := {someOp .read with producer := .patrol, cls := .background}
def patrolReads (n : Nat) (p : Part) : Part :=
  {p.modLane 1 (fun L => {busy L with
      service := some {someService .read with op := patrolRead}, queue := [patrolRead], waiters := [patrolRead]}) with
    patrol := {p.patrol with state := .running, chunk := some {twoReads with outstanding := n}}}

/-- The read in service has no transaction outstanding. -/
def restingRead (p : Part) : Part := p.modLane 1 fun L => {L with txn := none}

theorem test_meets_DeparturesByTheirCause :
    let ended (c : DepartureCause) (L : Lane) : List LaneOp :=
      (match L.service with
        | some sv => if c ≠ .presenceLost ∧ (L.txn ≠ none ∨ sv.ending = true) then [] else [sv.op]
        | none => []) ++ L.queue ++ L.waiters
    let aborts (u : Rebuild) : Bool := u.state = .running && u.target = some 1 && !u.aborting
    let departs (c : DepartureCause) (f : Part → Part) (ch : Option PatrolChunk) (also : Part → Prop) : Prop :=
      let p := f departing.part
      let left : List LaneOp := ended c (p.lane 1)
      let few (ch : PatrolChunk) : Bool := left.length < ch.outstanding && ch.outstanding ≤ 4
      (p.atRest ∧ p.serviceable 1 = true ∧ p.committing ∧ p.committer.inFlight = some commit0
        ∧ commit0.targets.has 0 = true ∧ commit0.ends[0] = .pending
        ∧ (left = [] ∨ p.patrol.chunk = ch ∧ ch.any few = true ∧ ∀ op ∈ left, op.producer = .patrol)
        ∧ p.repair.work = none ∧ p.repair.waiter = [] ∧ (p.patrolIdle ∨ p.patrol.chunk ≠ none)
        ∧ (aborts p.rebuild = false ∨ p.rebuild.chunk = none) ∧ p.fillEntries = [] ∧ also p) ∧ p.Kept
    let reads (n : Nat) : Option PatrolChunk := some {twoReads with outstanding := n}
    let faulted := (inState .faulted).part
    (departing.part.atRest ∧ departing.part.serviceable 2 = false)
      ∧ (faulted.atRest ∧ faulted.engine.state = .faulted ∧ faulted.serviceable 1 = true
        ∧ ended .presenceLost (faulted.lane 1) = [] ∧ aborts faulted.rebuild = false)
      ∧ departs .strikes id none (fun p => ended .strikes (p.lane 1) = [])
      ∧ departs .sparesExhausted (fun p => p.modLane 1 busy) none (fun p => ended .sparesExhausted (p.lane 1) = [])
      ∧ departs .presenceLost (patrolReads 4) (reads 4) (fun p => (ended .presenceLost (p.lane 1)).length = 3)
      ∧ departs .record (patrolReads 3) (reads 3) (fun p => (ended .record (p.lane 1)).length = 2)
      ∧ departs .strikes (restingRead ∘ patrolReads 4) (reads 4) (fun p => (ended .strikes (p.lane 1)).length = 3)
      ∧ departs .retire (rebuildingLane1 none false) none (fun p => aborts p.rebuild = true)
      ∧ departs .retire (rebuildingLane1 (some rebuildChunk0) true) none (fun p => aborts p.rebuild = false) := by
  repeat' first | decide +kernel | exact keptOf (by decide +kernel) | refine ⟨?_, ?_⟩

theorem test_meets_DeparturesByTheirCause_where_a_rebuild_aborts :
    let runs := rebuildingLane1 (some rebuildChunk0) false part
    let ends (n : Nat) : Part := rebuildingLane1 (some {rebuildChunk0 with outstanding := n}) true part
    (runs.rebuild.state = .running ∧ runs.rebuild.target = some 1 ∧ runs.rebuild.aborting = false)
      ∧ ((ends 1).rebuild.aborting = true ∧ (ends 1).rebuild.chunk = some {rebuildChunk0 with outstanding := 1})
      ∧ (ends 0).rebuild.aborting = true ∧ (ends 0).rebuild.chunk = some {rebuildChunk0 with outstanding := 0}
      ∧ ({someOp .read with producer := .rebuild} : LaneOp).producer = .rebuild := by
  and_intros <;> decide +kernel

theorem test_meets_WriteReplyGoesOnOrStartsATrial :
    let meets (also : LaneId → State → List Byte → List Status → Nat → List Block → Service → Piece → Prop) : Prop :=
      ∃ (l : LaneId) (s : State) (codes : List Byte) (ss : List Status) (block : Nat) (sent : List Block)
        (sv : Service) (x : Piece),
        (s.part.atRest ∧ (s.part.lane l).awaited = some (Command.write block sent) ∧ codes.length = sent.length ∧
        writeStatuses codes = some ss ∧ (s.part.lane l).service = some sv ∧ sv.trial = none ∧ sv.cur = some x ∧
        sv.zeros = [] ∧ sv.op.cls ≠ .record ∧ sv.op.kind = .write) ∧ also l s codes ss block sent sv x
    meets (fun _ _ _ ss _ _ sv _ => ∃ (y : Piece) (rest : List Piece), (∀ (st : Status), st ∈ ss → st = Status.good) ∧
        sv.todo = y :: rest)
      ∧ meets (fun l s _ ss _ _ sv x => ∃ (b : Nat) (d : Block) (more : List (Nat × Block)),
        s.part.faultsOf sv.op x.pos ss = (b, d) :: more ∧ (s.part.lane l).spareNext < 256) :=
  ⟨⟨1, (writing twoBlocks id id), [0, 0], [.good, .good], 10, [[1],[2]], (writeService id), ⟨.write, 10, 2, 0⟩,
      by decide +kernel, ⟨.write, 12, 2, 2⟩, [],
          by decide +kernel⟩,
    ⟨1, (writing twoBlocks (fun L => {L with spareNext := 255}) id), [0, 3], [.good, .writeFault], 10, [[1],[2]],
        (writeService id), ⟨.write, 10, 2, 0⟩, by decide +kernel,
            11, [9], [], by decide +kernel⟩⟩

def lastWrite (v : Service) : Service := {v with todo := [], results := [.good, .good]}

abbrev writeAnswered (s : State) (codes : List Byte) (ss : List Status) (sv : Service) : Prop :=
  s.part.atRest ∧ (s.part.lane 1).awaited = some twoBlocks ∧ codes.length = 2 ∧ writeStatuses codes = some ss
    ∧ (s.part.lane 1).service = some sv ∧ sv.trial = none ∧ sv.cur.isSome = true ∧ sv.zeros = [] ∧ sv.op.cls ≠ .record
    ∧ sv.op.kind = .write

theorem test_meets_WriteReplyGoesOnOrStartsATrial_at_its_end :
    let sv := writeService lastWrite
    let s := writing twoBlocks id lastWrite
    (writeAnswered s [0, 0] [.good, .good] sv ∧ (∀ st ∈ [Status.good, .good], st = .good) ∧ sv.todo = [])
      ∧ writeAnswered s [3, 0] [.writeFault, .good] sv
      ∧ s.part.faultsOf sv.op 0 [.writeFault, .good] = [(10, [])] ∧ (s.part.lane 1).spareNext < 256 := by
  and_intros <;> decide +kernel

theorem test_meets_WriteReplyGoesOnOrStartsATrial_without_a_spare :
    let sv := writeService lastWrite
    let s := writing twoBlocks (fun L => {L with spareNext := 256}) lastWrite
    writeAnswered s [3, 0] [.writeFault, .good] sv ∧ s.part.faultsOf sv.op 0 [.writeFault, .good] = [(10, [])]
      ∧ (s.part.lane 1).spareNext = 256 ∧ s.part.engine.state ≠ .faulted := by
  and_intros <;> decide +kernel

theorem test_meets_TrialsThatSucceedAreInserted :
    let meets (also : LaneId → State → Nat → Service → Trial → Prop) : Prop :=
      ∃ (l : LaneId) (s : State) (block : Nat) (sv : Service) (tr : Trial),
        (s.part.atRest ∧ (s.part.lane l).service = some sv ∧ sv.trial = some tr) ∧ also l s block sv tr
    meets (fun l s block _ _ => ∃ (d : Block), (s.part.lane l).awaited = some (Command.write block [d]))
      ∧ meets (fun l s block sv tr => ∃ (data : Block) (y : Piece) (rest : List Piece),
        (s.part.lane l).awaited = some (Command.read block 1) ∧ (s.part.lane l).identification = none ∧
          sameBlock data tr.data = true ∧ s.part.committing ∧ sv.faults = [(tr.block, tr.data)] ∧ sv.zeros = [] ∧
            sv.todo = y :: rest)
      ∧ meets (fun l s block sv tr => ∃ (data : Block) (y : Piece) (rest : List Piece),
        (s.part.lane l).awaited = some (Command.read block 1) ∧ (s.part.lane l).identification = none ∧
          sameBlock data tr.data = true ∧ s.part.committing ∧ sv.faults = [(tr.block, tr.data)] ∧ sv.zeros = [] ∧
            sv.todo = y :: rest) :=
  ⟨⟨1, (writing spareWrite someRemaps (inTrial id)), 3845, (writeService (inTrial id)), trial0, by decide +kernel, [9], by decide +kernel⟩,
    ⟨1, (writing spareRead someRemaps (inTrial id)), 3845, (writeService (inTrial id)), trial0, by decide +kernel, [9], ⟨.write, 12, 2, 2⟩, [], by decide +kernel⟩,
    ⟨1, (writing spareRead (fun L => {someRemaps L with spareNext := 223}) (inTrial id)), 3845,
        (writeService (inTrial id)), trial0, by decide +kernel, [9], ⟨.write, 12, 2,
          2⟩, [], by decide +kernel⟩⟩

theorem test_meets_TrialsThatSucceedAreInserted_at_the_operations_end :
    let sv := writeService fun v => lastWrite (inTrial id v)
    let s := writing spareRead someRemaps fun v => lastWrite (inTrial id v)
    s.part.atRest ∧ (s.part.lane 1).service = some sv ∧ sv.trial = some trial0
      ∧ (s.part.lane 1).awaited = some (.read 3845 1) ∧ (s.part.lane 1).identification = none
      ∧ sameBlock [9] trial0.data = true ∧ s.part.committing ∧ sv.faults = [(trial0.block, trial0.data)] ∧ sv.zeros = []
      ∧ sv.todo = [] := by
  and_intros <;> decide +kernel

theorem test_meets_TrialsThatFailTryTheNextSpare :
    let meets (spare : Nat) (failure : LaneId → Lane → Nat → Block → Block → Trial → Instr → Lane → Prop) : Prop :=
      ∃ (l : LaneId) (s : State) (block : Nat) (sent data : Block) (sv : Service) (tr : Trial) (c : Instr) (K : Lane),
        s.part.atRest ∧ (s.part.lane l).service = some sv ∧ sv.trial = some tr ∧ (s.part.lane l).identification = none ∧
        s.part.committing ∧ (s.part.lane l).spareNext = spare ∧ failure l (s.part.lane l) block sent data tr c K
    meets 5 (fun l L block sent _ _ c K => L.awaited = some (.write block [sent]) ∧ c = .writeReply l [3] ∧
        K = { L with counters := { L.counters with writeFaults := satInc L.counters.writeFaults } })
      ∧ meets 254 (fun l L block _ _ _ c K => L.awaited = some (.read block 1) ∧ c = .readReply l [2] [] ∧
        K = { L with counters := { L.counters with unreadable := satInc L.counters.unreadable } })
      ∧ meets 223 (fun l L block _ data _ c K => L.awaited = some (.read block 1) ∧ c = .readReply l [1] [data] ∧
        K = { L with readback := data, counters := { L.counters with corrected := satInc L.counters.corrected } })
      ∧ meets 255 (fun l L block _ data tr c K => L.awaited = some (.read block 1) ∧ c = .readReply l [0] [data] ∧
        sameBlock data tr.data = false ∧ K = { L with readback := data }) :=
  ⟨⟨1, writing spareWrite someRemaps (inTrial id), 3845, [9], [], writeService (inTrial id), trial0, .writeReply 1 [3],
      {writingLane someRemaps spareWrite with counters := {Counters.zero with writeFaults := 1}}, by decide +kernel⟩,
    ⟨1, writing spareRead (spareAt 254) (inTrial id), 3845, [9], [], writeService (inTrial id), trial0,
        .readReply 1 [2] [], {writingLane (spareAt 254) spareRead with counters := {Counters.zero with unreadable := 1}},
          by decide +kernel⟩,
    ⟨1, writing spareRead (spareAt 223) (inTrial id), 3845, [9], [9], writeService (inTrial id), trial0,
        .readReply 1 [1] [[9]], {writingLane (spareAt 223) spareRead with
            readback := [9], counters := {Counters.zero with corrected := 1}}, by decide +kernel⟩,
    ⟨1, writing spareRead (spareAt 255) (inTrial id), 3845, [9], [8], writeService (inTrial id), trial0,
        .readReply 1 [0] [[8]], {writingLane (spareAt 255) spareRead with readback := [8]}, by decide +kernel⟩⟩

theorem test_meets_FillRepliesAndTheirZeroWrites :
    let meets (also : LaneId → State → Nat → Nat → Service → Piece → Prop) : Prop :=
      ∃ (l : LaneId) (s : State) (block : Nat) (n : Nat) (sv : Service) (x : Piece),
        (s.part.atRest ∧ (s.part.lane l).awaited = some (Command.fill block n) ∧ (s.part.lane l).service = some sv ∧
        sv.cur = some x ∧ sv.faults = [] ∧ sv.op.bufs = []) ∧ also l s block n sv x
    meets (fun _ _ _ _ sv _ => ∃ (y : Piece) (rest : List Piece), sv.todo = y :: rest ∧ y.kind = .fill)
      ∧ meets (fun _ _ _ _ _ x => 1 ≤ x.count)
      ∧ meets (fun _ _ _ _ _ x => 1 ≤ x.count) :=
  ⟨⟨1, fillState, 10, 20, fillService, ⟨.fill, 10, 20, 0⟩, by decide +kernel, ⟨.fill, 12, 2, 2⟩, [], by decide +kernel⟩,
    ⟨1, fillState, 10, 20, fillService, ⟨.fill, 10, 20, 0⟩, by decide +kernel⟩,
    ⟨1, fillOneState, 10, 1, fillOne, ⟨.fill, 10, 1, 0⟩, by decide +kernel⟩⟩

def lastFill : Service := {fillService with todo := []}
def zeroWriting (zs : List Piece) : Service := {lastFill with cur := some ⟨.write, 10, 16, 0⟩, zeros := zs}
def lastFilling (v : Service) (c : Command) : State := withLane 1 fun L => {L with service := some v, txn := some (.start c)}

theorem test_meets_FillRepliesAndTheirZeroWrites_at_its_end :
    let s := lastFilling lastFill (.fill 10 20)
    s.part.atRest ∧ (s.part.lane 1).awaited = some (.fill 10 20) ∧ (s.part.lane 1).service = some lastFill
      ∧ lastFill.cur = some ⟨.fill, 10, 20, 0⟩ ∧ lastFill.faults = [] ∧ lastFill.op.bufs = [] ∧ lastFill.todo = [] := by
  and_intros <;> decide +kernel

theorem test_meets_FillRepliesAndTheirZeroWrites_in_zero_writes :
    let sent : List Block := List.replicate 16 zeroBlock
    let meets (zs : List Piece) : Prop :=
      let s := lastFilling (zeroWriting zs) (.write 10 sent)
      let sv := zeroWriting zs
      s.part.atRest ∧ (s.part.lane 1).awaited = some (.write 10 sent) ∧ (s.part.lane 1).service = some sv
        ∧ sv.op.kind = .fill ∧ sv.op.cls ≠ .record ∧ sv.op.bufs = [] ∧ sv.trial = none
        ∧ sv.cur = some ⟨.write, 10, 16, 0⟩ ∧ sv.todo = []
    meets [⟨.write, 26, 4, 16⟩] ∧ meets [] := by
  and_intros <;> decide +kernel

theorem test_meets_RecordWritesEndInTheirSlot :
    let meets (also : LaneId → LaneId → State → RecordSlot → Nat → Block → Service → Piece → Commit → Prop) : Prop :=
      ∃ (l : LaneId) (m : LaneId) (s : State) (slot : RecordSlot) (block : Nat) (sent : Block)
        (sv : Service) (x : Piece) (k : Commit),
        s.part.atRest ∧ (s.part.lane l).awaited = some (Command.write block [sent]) ∧ (s.part.lane l).service = some sv ∧
        sv.op = recordOp l slot ∧ sv.trial = none ∧ sv.cur = some x ∧ sv.todo = [] ∧ sv.zeros = [] ∧ sv.faults = [] ∧
        sv.results = [] ∧ (s.part.lane l).queue = [] ∧ (s.part.lane l).waiters = [] ∧
        s.part.committer.inFlight = some k ∧ m ≠ l ∧ k.targets.has m = true ∧ k.ends[↑m] = WriteEnd.pending ∧
        also l m s slot block sent sv x k
    meets (fun l _ s slot _ _ _ _ _ => s.part.committer.fresh[↑l] = false ∨ slot = RecordSlot.b)
      ∧ meets (fun l _ s slot _ _ _ _ _ => s.part.committer.fresh[↑l] = false ∨ slot = RecordSlot.b)
      ∧ meets (fun _ _ _ _ _ _ _ _ _ => True) :=
  ⟨⟨1, 0, (recordWriting .a id), .a, 0, [1], (recordService .a), ⟨.write, 0, 1, 0⟩, commit0, by decide +kernel⟩,
    ⟨1, 0, (recordWriting .b fun p => {p with committer := {p.committer with fresh := .replicate 4 true}}), .b, 1, [1],
        (recordService .b), ⟨.write, 1, 1, 0⟩, commit0, by decide +kernel⟩,
    ⟨1, 0, (recordWriting .a id), .a, 0, [1], (recordService .a), ⟨.write, 0, 1, 0⟩, commit0, by decide +kernel⟩⟩

theorem test_meets_RecordWritesEndInTheirSlot_after_slot_a_of_a_fresh_lane :
    let s := recordWriting .a fun p => {p.modLane 1 (fun L => {L with remap := [(1, 3)]}) with
      committer := {p.committer with fresh := .replicate 4 true}}
    s.part.atRest ∧ (s.part.lane 1).awaited = some (.write 0 [[1]]) ∧ (s.part.lane 1).service = some (recordService .a)
      ∧ (s.part.lane 1).queue = [] ∧ (s.part.lane 1).waiters = [] ∧ s.part.committer.inFlight = some commit0
      ∧ commit0.targets.has 0 = true ∧ commit0.ends[0] = .pending ∧ s.part.committer.fresh[1] = true
      ∧ s.part.serviceable 1 = true ∧ (s.part.lane 1).hold = false := by
  and_intros <;> decide +kernel

theorem test_meets_GenericChecksRefuseRequests :
    let meets (also : EntryId → Entry → State → Prop) : Prop :=
      ∃ (e : EntryId) (x : Entry) (s : State),
        (s.part.agenda = [] ∧ s.part.takes e x ∧ s.part.holdsNothing (Holder.request e)) ∧ s.part.Kept ∧ also e x s
    meets (fun _ x _ => ¬x.req.kind ∈ knownKinds)
      ∧ meets (fun _ x _ => x.req.kind ∈ knownKinds ∧ unusedField x.req = true) :=
  ⟨⟨0, (takingEntry {req0 with kind := 0x99}), (taking {req0 with kind := 0x99}), by decide +kernel,
      keptOf (by decide +kernel), by decide +kernel⟩,
    ⟨0, (takingEntry {readReq with flags := 1}), (taking {readReq with flags := 1}), by decide +kernel,
        keptOf (by decide +kernel), by decide +kernel⟩⟩

theorem test_meets_FaultedTransfersEnterFaulted :
    let meets (also : State → Prop) : Prop :=
      ∃ (s : State),
        ((∀ l, (s.part.lane l).held = false) ∧ s.part.rebuild.aborting = false) ∧ also s
    meets (fun s => ∃ e x, s.part.takes e x)
      ∧ meets (fun s => s.part.docket.xfer = some (.consumedRead true))
      ∧ meets (fun s => s.part.docket.xfer = some (.slotRead 3 true))
      ∧ meets (fun s => s.part.docket.xfer = some (.outcomeWrite 3))
      ∧ meets (fun s => s.part.docket.xfer = some (.doneWrite 3))
      ∧ meets (fun s => s.part.docket.xfer = some (.tallyWrite 3))
      ∧ meets (fun s => s.part.journal.xfer = some .entryWrite)
      ∧ meets (fun s => s.part.journal.xfer = some .writtenWrite)
      ∧ meets (fun s => s.part.journal.xfer = some (.lostWrite 2))
      ∧ meets (fun s => s.part.journal.xfer = some .reread)
      ∧ meets (fun s => s.part.engine.attach ∈ [.tallyWrite, .writtenWrite, .lostWrite]) :=
  ⟨⟨(taking req0), by decide +kernel, 0, (takingEntry req0), by decide +kernel⟩,
    ⟨(withDocket (.consumedRead true)), by decide +kernel⟩,
    ⟨(withDocket (.slotRead 3 true)), by decide +kernel⟩,
    ⟨(withDocket (.outcomeWrite 3)), by decide +kernel⟩,
    ⟨(withDocket (.doneWrite 3)), by decide +kernel⟩,
    ⟨(withDocket (.tallyWrite 3)), by decide +kernel⟩,
    ⟨(withJournal .entryWrite), by decide +kernel⟩,
    ⟨(withJournal .writtenWrite), by decide +kernel⟩,
    ⟨(withJournal (.lostWrite 2)), by decide +kernel⟩,
    ⟨(withJournal .reread), by decide +kernel⟩,
    ⟨(attachingAt .lostWrite), by decide +kernel⟩⟩

theorem test_meets_DataRequestsAreCheckedInOrder :
    let meets (kind : Byte) (o : ReqOutcome) : Prop :=
      ∃ (e : EntryId) (x : Entry) (s : State),
        (s.part.agenda = [] ∧ s.part.takes e x ∧ s.part.holdsNothing (.request e) ∧ genericRefusal x.req = none ∧
        x.req.kind = kind ∧ dataCheck x.req s.part = some o) ∧ s.part.Kept
    meets kindRead .refusedVolume
      ∧ meets kindRead .refusedVolume
      ∧ meets kindRead .refusedFormat
      ∧ meets kindRead .refusedFormat
      ∧ meets kindRead .refusedRange
      ∧ meets kindRead .lost
      ∧ meets kindRead .refusedLane
      ∧ meets kindWrite .refusedFormat
      ∧ meets kindWrite .refusedFormat
      ∧ meets kindVerify .refusedFormat
      ∧ meets kindVerify .refusedFormat :=
  ⟨⟨0, takingEntry {readReq with target := 8}, taking {readReq with target := 8}, by decide +kernel,
      keptOf (by decide +kernel)⟩,
    ⟨0, takingEntry {readReq with target := 1}, taking {readReq with target := 1}, by decide +kernel,
        keptOf (by decide +kernel)⟩,
    ⟨0, takingEntry {readReq with count := 17}, taking {readReq with count := 17}, by decide +kernel,
        keptOf (by decide +kernel)⟩,
    ⟨0, takingEntry {readReq with selector := 4}, taking {readReq with selector := 4}, by decide +kernel, keptOf (by decide +kernel)⟩,
    ⟨0, takingEntry {readReq with first := 97}, taking {readReq with first := 97}, by decide +kernel,
        keptOf (by decide +kernel)⟩,
    ⟨0, takingEntry readReq, taking readReq (fun p => p.setVol 0 {vol0 with state := .lost}), by decide +kernel, keptOf (by decide +kernel)⟩,
    ⟨0, takingEntry {readReq with selector := 2}, taking {readReq with selector := 2}, by decide +kernel, keptOf (by decide +kernel)⟩,
    ⟨0, takingEntry {writeReq with count := 0}, taking {writeReq with count := 0}, by decide +kernel,
        keptOf (by decide +kernel)⟩,
    ⟨0, takingEntry {writeReq with address := 65}, taking {writeReq with address := 65}, by decide +kernel, keptOf (by decide +kernel)⟩,
    ⟨0, takingEntry {verifyReq with selector := 4}, taking {verifyReq with selector := 4}, by decide +kernel, keptOf (by decide +kernel)⟩,
    ⟨0, takingEntry {verifyReq with selector := 0x11}, taking {verifyReq with selector := 0x11}, by decide +kernel, keptOf (by decide +kernel)⟩⟩

theorem test_meets_DataRequestsWaitForLockAndBuffers :
    let meets (also : EntryId → Entry → State → Prop) : Prop :=
      ∃ (e : EntryId) (x : Entry) (s : State),
        s.part.agenda = [] ∧ s.part.takes e x ∧ genericRefusal x.req = none ∧ dataRefusal x.req s.part = none ∧
        s.part.pool.headWaits ∧ also e x s
    meets (fun e x s => x.req.kind = kindRead ∧ namedRefusal x.req s.part = none ∧
        ((lockOf e x false).clearOf s.part.locks.granted && (lockOf e x false).clearOf s.part.locks.waiting) = false)
      ∧ meets (fun e x s => x.req.kind = kindRead ∧ namedRefusal x.req s.part = none ∧
        ((lockOf e x false).clearOf s.part.locks.granted && (lockOf e x false).clearOf s.part.locks.waiting) = true ∧
          (s.part.pool.waiting ≠ [] ∨ s.part.pool.freeCount < x.req.count.toNat))
      ∧ meets (fun e x s => x.req.kind = kindWrite ∧
        ((lockOf e x true).clearOf s.part.locks.granted && (lockOf e x true).clearOf s.part.locks.waiting) = false)
      ∧ meets (fun e x s => x.req.kind = kindWrite ∧
        ((lockOf e x true).clearOf s.part.locks.granted && (lockOf e x true).clearOf s.part.locks.waiting) = true ∧
          (s.part.pool.waiting ≠ [] ∨ s.part.pool.freeCount < x.req.count.toNat))
      ∧ meets (fun e x s => x.req.kind = kindWrite ∧
        ((lockOf e x true).clearOf s.part.locks.granted && (lockOf e x true).clearOf s.part.locks.waiting) = true ∧
          s.part.pool.waiting = [] ∧ x.req.count.toNat ≤ s.part.pool.freeCount)
      ∧ meets (fun e x s => x.req.kind = kindVerify ∧
        ((lockOf e x false).clearOf s.part.locks.granted && (lockOf e x false).clearOf s.part.locks.waiting) = false)
      ∧ meets (fun e x s => x.req.kind = kindVerify ∧
        ((lockOf e x false).clearOf s.part.locks.granted && (lockOf e x false).clearOf s.part.locks.waiting) = true ∧
          verifyLanes x s.part ≠ [] ∧
            (s.part.pool.waiting ≠ [] ∨ s.part.pool.freeCount < x.req.count.toNat * (verifyLanes x s.part).length)) :=
  ⟨⟨0, (takingEntry readReq), (taking readReq lockedOut), by decide +kernel⟩,
    ⟨0, (takingEntry readReq), (taking readReq poolFull), by decide +kernel⟩,
    ⟨0, (takingEntry writeReq), (taking writeReq lockedOut), by decide +kernel⟩,
    ⟨0, (takingEntry writeReq), (taking writeReq poolFull), by decide +kernel⟩,
    ⟨0, (takingEntry writeReq), (taking writeReq), by decide +kernel⟩,
    ⟨0, (takingEntry verifyReq), (taking verifyReq lockedOut), by decide +kernel⟩,
    ⟨0, (takingEntry verifyReq), (taking verifyReq poolFull), by decide +kernel⟩⟩

theorem test_meets_ReadsAndVerifiesIssueTheirOperations :
    let meets (also : EntryId → Entry → Prop) : Prop :=
      ∃ (e : EntryId) (x : Entry), also e x
    meets (fun e x => ∃ (l : LaneId) (pointer : LaneId) (s : State), s.part.agenda = [] ∧ s.part.takes e x ∧
        genericRefusal x.req = none ∧ x.req.kind = kindRead ∧ x.req.selector = 15 ∧ dataRefusal x.req s.part = none ∧
          ((s.part.vol x.req.volume).policy = .fixed → s.part.actingReference x.req.volume = some l ∧
            pointer = (s.part.vol x.req.volume).rotation) ∧
              ((s.part.vol x.req.volume).policy = .spread → s.part.spreadFirst x.req.volume = some l ∧
                pointer = (nextLane l (s.part.onlineMember x.req.volume)).getD l) ∧
                  (lockOf e x false).clearOf s.part.locks.granted = true ∧
                    (lockOf e x false).clearOf s.part.locks.waiting = true ∧ s.part.pool.waiting = [] ∧
                      x.req.count.toNat ≤ s.part.pool.freeCount ∧ (s.part.lane l).service ≠ none ∧
                        (s.part.lane l).places < 16)
      ∧ meets (fun e x => ∃ (l : LaneId) (pointer : LaneId) (s : State), s.part.agenda = [] ∧ s.part.takes e x ∧
        genericRefusal x.req = none ∧ x.req.kind = kindRead ∧ x.req.selector = 15 ∧ dataRefusal x.req s.part = none ∧
          ((s.part.vol x.req.volume).policy = .fixed → s.part.actingReference x.req.volume = some l ∧
            pointer = (s.part.vol x.req.volume).rotation) ∧
              ((s.part.vol x.req.volume).policy = .spread → s.part.spreadFirst x.req.volume = some l ∧
                pointer = (nextLane l (s.part.onlineMember x.req.volume)).getD l) ∧
                  (lockOf e x false).clearOf s.part.locks.granted = true ∧
                    (lockOf e x false).clearOf s.part.locks.waiting = true ∧ s.part.pool.waiting = [] ∧
                      x.req.count.toNat ≤ s.part.pool.freeCount ∧ (s.part.lane l).service ≠ none ∧
                        (s.part.lane l).places < 16)
      ∧ meets (fun e x => ∃ (s : State), s.part.agenda = [] ∧ s.part.takes e x ∧ genericRefusal x.req = none ∧
        x.req.kind = kindVerify ∧ dataRefusal x.req s.part = none ∧
          (lockOf e x false).clearOf s.part.locks.granted = true ∧ (lockOf e x false).clearOf s.part.locks.waiting = true ∧
            s.part.pool.waiting = [] ∧ x.req.count.toNat * (verifyLanes x s.part).length ≤ s.part.pool.freeCount ∧
              verifyLanes x s.part ≠ [] ∧ (∀ (l : LaneId), l ∈ verifyLanes x s.part → (s.part.lane l).service ≠ none ∧
                (s.part.lane l).places < 16)) :=
  ⟨⟨0, (takingEntry readReq), 0, 0, (taking readReq allBusy), by decide +kernel⟩,
    ⟨0, (takingEntry readReq), 1, 0, (taking readReq spread), by decide +kernel⟩,
    ⟨0, (takingEntry verifyReq), (taking verifyReq allBusy), by decide +kernel⟩⟩

abbrev dataRequestTaken (r : Request) (f : Part → Part) : Prop :=
  let p := (taking r f).part
  p.agenda = [] ∧ p.takes 0 (takingEntry r) ∧ genericRefusal r = none ∧ dataRefusal r p = none
    ∧ (lockOf 0 (takingEntry r) false).clearOf p.locks.granted = true
    ∧ (lockOf 0 (takingEntry r) false).clearOf p.locks.waiting = true

theorem test_meets_ReadsAndVerifiesIssueTheirOperations_on_a_named_lane :
    let r : Request := {readReq with selector := 1}
    let p := (taking r allBusy).part
    dataRequestTaken r allBusy ∧ r.kind = kindRead ∧ p.onlineMember r.volume 1 = true ∧ p.pool.waiting = []
      ∧ r.count.toNat ≤ p.pool.freeCount ∧ (p.lane 1).service ≠ none ∧ (p.lane 1).places < 16 := by
  and_intros <;> decide +kernel

def stale1 (p : Part) : Part := p.modLane 1 fun L => {L with runtime := .stale}
def noneOnline (p : Part) : Part := stale1 (p.modLane 0 fun L => {L with runtime := .failed})

theorem test_meets_ReadsAndVerifiesIssueTheirOperations_without_an_online_lane :
    let meets (r : Request) (f : Part → Part) : Prop :=
      dataRequestTaken r f ∧ r.kind = kindVerify ∧ verifyLanes (takingEntry r) (taking r f).part = []
    (meets verifyReq noneOnline ∧ (taking verifyReq noneOnline).part.Kept)
      ∧ (meets {verifyReq with selector := 2} stale1 ∧ (taking {verifyReq with selector := 2} stale1).part.Kept) :=
  ⟨⟨by decide +kernel, keptOf (by decide +kernel)⟩, ⟨by decide +kernel, keptOf (by decide +kernel)⟩⟩

/-- A READ of four blocks from lane block 10 whose last operation is in service. -/
def roundWork (n : Nat) : ReadWork := ⟨false, 1, [1], .replicate 4 ⟨none, false, []⟩, n, 0⟩
def roundEntry : Entry :=
  {takingEntry {readReq with first := 8} with state := .atLanes, work := .read (roundWork 1)}
def roundPart : Part := {allBusy part with table := part.table.set 5 (some roundEntry), pool := part.pool.give (.request 5) 4}

def lostVol0 (p : Part) : Part := p.modVol 0 fun v => {v with state := .lost}
/-- A VERIFY that waits for its buffers, its lanes fixed. -/
def waitingVerify (gone : LaneMask) : VerifyWork := ⟨[0, 1], [], 0, gone⟩
def waitingVerifyEntry (gone : LaneMask) : Entry :=
  {takingEntry verifyReq with state := .waitBuffers, work := .verify (waitingVerify gone)}

abbrev verifyGranted (gone : LaneMask) (f : Part → Part) (read : List (LaneId × Nat)) (lost : Bool) : Prop :=
  let p := (atEntry (waitingVerifyEntry gone) f).part
  p.entry 0 = some (waitingVerifyEntry gone) ∧ (waitingVerifyEntry gone).state = .waitBuffers
    ∧ (waitingVerifyEntry gone).work = .verify (waitingVerify gone) ∧ verifyReq.kind = kindVerify
    ∧ ((waitingVerify gone).lanes.zipIdx.filter fun y => !gone.has y.1 && p.online y.1) = read
    ∧ p.isLost verifyReq.volume = lost

theorem test_meets_ReadsAndVerifiesIssueTheirOperations_granted_later :
    verifyGranted 0 (fun p => lostVol0 (noneOnline p)) [] true ∧ verifyGranted 0 noneOnline [] false
      ∧ verifyGranted 3 id [] false ∧ verifyGranted 1 id [(1, 1)] false ∧ verifyGranted 0 id [(0, 0), (1, 1)] false := by
  and_intros <;> decide +kernel

/-- Lane 0 departed while the VERIFY waited and is ONLINE again: only lane 1 is read, into its own buffers. -/
theorem test_verify_passes_over_a_lane_that_departed_while_it_waited :
    let p := (atEntry (waitingVerifyEntry 1) fun p => allBusy {p with pool := p.pool.give (.request 0) 8}).part
    let q := requestBuffered 0 p
    p.online 0 = true ∧ (q.lane 0).queue = [] ∧ (q.lane 1).queue.map (·.bufs) = [[.staging 4, .staging 5, .staging 6, .staging 7]] := by
  decide +kernel

theorem test_meets_ReadsAndVerifiesIssueTheirOperations_in_the_next_round :
    let merged := mergeTries 1 0 [.good, .unreadable, .corrected, .unreadable] (roundWork 1).blocks
    (someOp .read).producer = .request 5 ∧ roundPart.entry 5 = some roundEntry ∧ roundEntry.work = .read (roundWork 1)
      ∧ (roundWork 1).named = false ∧ (roundWork 1).outstanding ≤ 1 ∧ (∃ b ∈ merged, b.source = none)
      ∧ roundPart.nextTry roundEntry.req.volume (roundWork 1).tried = some 0 := by decide +kernel

theorem test_meets_ReadsAndVerifiesIssueTheirOperations_in_merging :
    let ss : List Status := [.good, .unreadable]
    let bs : List BlockTry := .replicate 4 ⟨none, false, []⟩
    (bs[0]?.isSome = true ∧ 0 < 1) ∧ (bs[1]?.isSome = true ∧ ss[1 - 1]? = some .good)
      ∧ (bs[2]?.isSome = true ∧ ss[2 - 1]? = some .unreadable) ∧ (bs[3]?.isSome = true ∧ 1 + ss.length ≤ 3) := by decide

theorem test_meets_ReadsAndVerifiesIssueTheirOperations_in_the_circular_order :
    let p := changed (fun p => p.setVol 0 {vol0 with policy := .spread, rotation := 1, members := 0b1011}) |>.part
    p.onlineMember 0 1 = true ∧ p.spreadFirst 0 = some 1
      ∧ (p.modLane 1 fun L => {L with runtime := .failed}).onlineMember 0 1 = false
      ∧ (p.modLane 1 fun L => {L with runtime := .failed}).spreadFirst 0 = some 0
      ∧ nextLane 2 (fun l => l ≠ 3) = some 0 ∧ p.nextTry 0 [0] = some 1 ∧ p.nextTry 0 [0, 1] = none := by decide +kernel

theorem test_meets_DefineIsReceivedAndFreezeFinishes :
    let meets (also : EntryId → Entry → State → Prop) : Prop :=
      ∃ (e : EntryId) (x : Entry) (s : State),
        (s.part.agenda = [] ∧ s.part.takes e x ∧ s.part.holdsNothing (Holder.request e) ∧ genericRefusal x.req = none)
        ∧ s.part.Kept ∧ also e x s
    meets (fun _ x s => x.req.kind = kindDefine ∧ s.part.frozen = true)
      ∧ meets (fun _ x s => x.req.kind = kindDefine ∧ s.part.frozen = false ∧ ¬ defineFormed x.req)
      ∧ meets (fun _ x s => x.req.kind = kindDefine ∧ s.part.frozen = false ∧ ¬ defineFormed x.req)
      ∧ meets (fun _ x s => x.req.kind = kindDefine ∧ s.part.frozen = false ∧ defineFormed x.req)
      ∧ meets (fun _ x _ => x.req.kind = kindFreeze) :=
  ⟨⟨0, (takingEntry defineReq), (taking defineReq frozenPart), by decide +kernel,
      keptOf (by decide +kernel), by decide +kernel⟩,
    ⟨0, (takingEntry {defineReq with parameter := 0x12}), (taking {defineReq with parameter := 0x12}), by decide +kernel, keptOf (by decide +kernel), by decide +kernel⟩,
    ⟨0, (takingEntry {defineReq with defMembers := 2}), (taking {defineReq with defMembers := 2}), by decide +kernel, keptOf (by decide +kernel), by decide +kernel⟩,
    ⟨0, (takingEntry defineReq), (taking defineReq), by decide +kernel, keptOf (by decide +kernel),
        by decide +kernel⟩,
    ⟨0, (takingEntry freezeReq), (taking freezeReq), by decide +kernel, keptOf (by decide +kernel),
        by decide +kernel⟩⟩

/-- A volume's use that R17 refuses: by another request, a fill, patrol's plan or recovery, a rebuild, or a repair. -/
def inUseBy (v : VolId) (e : EntryId) (p : Part) : Prop :=
  (∃ z ∈ p.entries, z.1 ≠ e ∧ z.2.req.kind ∈ [kindRead, kindWrite, kindVerify, kindDefine, kindDelete]
      ∧ z.2.req.target.toNat = v.val)
    ∨ (p.vol v).state = .filling
    ∨ (p.patrol.state ≠ .idle ∧ p.patrol.state ≠ .done ∧ ∃ sp ∈ (p.patrol.plan.map (·.spans)).getD [], sp.volume = v)
    ∨ p.patrol.marker = true
    ∨ (p.rebuild.state ≠ .idle ∧ p.rebuild.target.any (p.vol v).members.has = true)
    ∨ p.repair.work.any (fun w => w.volume = v) = true

theorem test_meets_DeleteClearsTheVolume :
    let meets (r : Request) (f : Part → Part) (also : Part → Prop) : Prop :=
      let p := (taking r f).part
      (p.agenda = [] ∧ p.takes 0 (takingEntry r) ∧ p.holdsNothing (.request 0) ∧ genericRefusal r = none
        ∧ r.kind = kindDelete ∧ also p) ∧ p.Kept
    let refused (f : Part → Part) : Prop := meets deleteReq f fun p =>
      p.frozen = false ∧ (p.vol 0).inUse = true ∧ inUseBy 0 0 p
    let passes (f : Part → Part) (also : Part → Prop) : Prop := meets deleteReq f fun p =>
      p.frozen = false ∧ (p.vol 0).inUse = true ∧ ¬ inUseBy 0 0 p ∧ p.committing ∧ also p
    let listed (p : Part) : Prop :=
      (∃ y ∈ p.repair.list, y.volume = 0) ∧ p.repair.waiter = [] ∧ p.repair.list.length ≤ 32
    let alongside (r : Request) (p : Part) : Part := {p with table := p.table.set 9 (some (takingEntry r))}
    meets deleteReq frozenPart (fun p => p.frozen = true)
      ∧ meets {deleteReq with target := 1} id (fun p => p.frozen = false ∧ (p.vol 1).inUse = false)
      ∧ meets {deleteReq with target := 8} id (fun p => p.frozen = false)
      ∧ refused (alongside writeReq)
      ∧ refused (fun p => p.modVol 0 fun v => {v with state := .filling})
      ∧ refused (fun p => {p with patrol := {p.patrol with state := .resting, plan := some planB}})
      ∧ refused (fun p => {p with patrol := {p.patrol with marker := true}})
      ∧ refused (rebuildingLane1 none false)
      ∧ refused repairWaiting
      ∧ passes (alongside snapshotReq) (fun p => ∀ y ∈ p.repair.list, y.volume ≠ 0)
      ∧ passes withPlan (fun p => listed p ∧ p.patrol.state ≠ .running ∧ p.patrol.state ≠ .waiting)
      ∧ passes otherChunk (fun p => listed p ∧ p.patrol.chunk ≠ none ∧ p.patrol.state = .running) := by
  unfold inUseBy
  repeat' first | decide +kernel | exact keptOf (by decide +kernel) | refine ⟨?_, ?_⟩

theorem test_meets_DefineTakesTheVolumeEntry :
    let meets (also : Entry → State → List Byte → Prop) : Prop :=
      ∃ (e : EntryId) (x : Entry) (s : State) (label : List Byte),
        (s.part.agenda = [] ∧ s.part.entry e = some x ∧ x.req.kind = kindDefine ∧ x.state = .received ∧
        s.part.holdsNothing (.request e)) ∧ s.part.Kept ∧ also x s label
    meets (fun x s _ => defineCheck x.req s.part = some .refusedVolume)
      ∧ meets (fun x s _ => defineCheck x.req s.part = some .refusedBusy)
      ∧ meets (fun x s _ => defineCheck x.req s.part = some .refusedLane)
      ∧ meets (fun x s _ => defineCheck x.req s.part = some .refusedRange)
      ∧ meets (fun x s _ => defineCheck x.req s.part = some .refusedRange)
      ∧ meets (fun x s _ => defineCheck x.req s.part = some .refusedRange)
      ∧ meets (fun x s label => defineCheck x.req s.part = none ∧ x.req.selector = 0 ∧ x.req.members.lanes ≠ [] ∧
        s.part.committing ∧ label.length = 16) :=
  ⟨⟨0, receivedEntry {defineReq with target := 0}, atEntry (receivedEntry {defineReq with target := 0}) bigLanes, label0,
      by decide +kernel, keptOf (by decide +kernel),
        by decide +kernel⟩,
    ⟨0, receivedEntry defineReq, atEntry (receivedEntry defineReq) (fun p =>
        {bigLanes p with rebuild := {Rebuild.reset with state := .held}}), label0, by decide +kernel, keptOf (by decide +kernel), by decide +kernel⟩,
    ⟨0, receivedEntry {defineReq with defMembers := 5}, atEntry (receivedEntry {defineReq with defMembers := 5}) bigLanes,
        label0, by decide +kernel, keptOf (by decide +kernel),
          by decide +kernel⟩,
    ⟨0, receivedEntry {defineReq with defFirst := 1}, atEntry (receivedEntry {defineReq with defFirst := 1}) bigLanes,
        label0, by decide +kernel, keptOf (by decide +kernel),
          by decide +kernel⟩,
    ⟨0, receivedEntry {defineReq with defFirst := 102, defLength := 99643},
        atEntry (receivedEntry {defineReq with defFirst := 102, defLength := 99643}) bigLanes, label0, by decide +kernel, keptOf (by decide +kernel), by decide +kernel⟩,
    ⟨0, receivedEntry {defineReq with defFirst := 101}, atEntry (receivedEntry {defineReq with defFirst := 101}) bigLanes,
        label0, by decide +kernel, keptOf (by decide +kernel),
          by decide +kernel⟩,
    ⟨0, receivedEntry boundaryDefine, atEntry (receivedEntry boundaryDefine) bigLanes, label0, by decide +kernel, keptOf (by decide +kernel), by decide +kernel⟩⟩

def zeroReq : Request := {defineReq with selector := 1}
def receives (r : Request) (f : Part → Part) : Part := (atEntry (receivedEntry r) f).part
def heldVolume (p : Part) : Part := (bigLanes p).modVol 1 fun v => {v with hold := .bound}

abbrev receivedZero (r : Request) (f : Part → Part) : Prop :=
  let p := receives r f
  p.agenda = [] ∧ p.entry 0 = some (receivedEntry r) ∧ p.holdsNothing (.request 0) ∧ defineCheck r p = none
    ∧ r.selector = 1 ∧ r.members.lanes ≠ [] ∧ 1 ≤ r.defLength.toNat ∧ label0.length = 16

theorem test_meets_DefineTakesTheVolumeEntry_to_fill_it :
    let shortest : Request := {zeroReq with defFirst := 102, defLength := 1}
    let issues (r : Request) : Prop := receivedZero r (fun p => allBusy (bigLanes p))
      ∧ ((receives r (fun p => allBusy (bigLanes p))).vol 1).hold = .none
      ∧ ∀ l ∈ r.members.lanes, ((receives r (fun p => allBusy (bigLanes p))).lane l).service ≠ none
        ∧ ((receives r (fun p => allBusy (bigLanes p))).lane l).places < 16
    (receivedZero zeroReq heldVolume ∧ ((receives zeroReq heldVolume).vol 1).hold ≠ .none)
      ∧ issues zeroReq ∧ issues shortest := by
  and_intros <;> decide +kernel

/-- A ZERO fill of two pieces, its request at the lanes, its members so far. -/
def fills (fs : List FillLane) : Entry := {receivedEntry zeroReq with state := .atLanes, work := .fill 2 fs}
def filling (fs : List FillLane) (f : Part → Part := id) : Part := (atEntry (fills fs) fun p => f (bigLanes p)).part
def bothFill : List FillLane := [⟨0, 0, true, false, false⟩, ⟨1, 1, true, false, false⟩]
/-- Lane 0 has departed, a piece of it outstanding. -/
def oneLost : List FillLane := [⟨0, 0, true, true, false⟩, ⟨1, 1, true, false, false⟩]

abbrev pieceEnds (fs : List FillLane) (f : Part → Part) (g : FillLane) (also : Part → Bool) : Prop :=
  let p := filling fs f
  p.entry 0 = some (fills fs) ∧ (fills fs).state = .atLanes ∧ g ∈ fs ∧ (fs.map (·.lane)).Nodup ∧ g.outstanding = true
    ∧ g.waitsHold = false ∧ also p = true

theorem test_meets_DefineTakesTheVolumeEntry_at_a_pieces_end :
    let first : FillLane := ⟨0, 0, true, false, false⟩
    let last : FillLane := ⟨1, 1, true, false, false⟩
    pieceEnds bothFill id last (fun _ => true)
      ∧ pieceEnds oneLost id ⟨0, 0, true, true, false⟩ (fun _ => true)
      ∧ pieceEnds bothFill id last (fun _ => !last.lost && 2 ≤ last.next + 1)
      ∧ pieceEnds bothFill (fun p => p.modLane 0 fun L => {L with runtime := .failed}) first
        (fun p => !first.lost && !p.serviceable 0)
      ∧ pieceEnds bothFill (fun p => p.modVol 1 fun v => {v with hold := .bound}) first
        (fun p => !first.lost && p.serviceable 0 && decide ((p.vol 1).hold ≠ .none))
      ∧ pieceEnds bothFill id first (fun p => !first.lost && p.serviceable 0 && decide ((p.vol 1).hold = .none)) := by
  and_intros <;> decide +kernel

theorem test_meets_DefineTakesTheVolumeEntry_at_the_fills_end :
    let ended (left : Bool) : List FillLane := [⟨0, 2, false, false, false⟩, ⟨1, 1, left, true, false⟩]
    let filled (g : FillLane) : Bool := !g.lost && decide (2 ≤ g.next) && !g.outstanding
    let members (p : Part) : Part := p.setVol 1 {vol0 with members := 3, first := 200, length := 70000, state := .filling}
    let allEnded (left : Bool) (f : Part → Part) (also : Part → Prop) : Prop :=
      (∀ g ∈ ended left, g.lost = true ∨ filled g = true) ∧ (fills (ended left)).state = .atLanes
        ∧ (filling (ended left) f).entry 0 = some (fills (ended left)) ∧ also (filling (ended left) f)
    let noneLeft (p : Part) : Part := members (noneOnline p)
    (∃ g ∈ bothFill, g.lost = false ∧ filled g = false)
      ∧ allEnded false noneLeft (fun p => p.onlineMembers 1 = [])
      ∧ allEnded true noneLeft (fun p => p.onlineMembers 1 = [])
      ∧ allEnded false members (fun p => p.onlineMembers 1 ≠ [] ∧ p.committing ∧ p.engine.state = .running)
      ∧ allEnded true members (fun p => p.onlineMembers 1 ≠ [] ∧ p.committing ∧ p.engine.state = .running) := by
  and_intros <;> decide +kernel

theorem test_meets_DefineTakesTheVolumeEntry_after_the_fills_end :
    let op : LaneOp := ⟨.foreground, .fill, 200, 65536, [], .request 0, false⟩
    let after (w : Work) (state : EntryState) (m : WaitMark) : Entry :=
      {receivedEntry zeroReq with state := state, work := w, mark := m, outcome := .failedMedia}
    let stands (x : Entry) (w : Work) (state : EntryState) (m : WaitMark) : Prop :=
      (atEntry x).part.entry 0 = some x ∧ x.work = w ∧ x.state = state ∧ x.mark = m
    op.producer = .request 0
      ∧ stands (after (.fillLeft 2) .atLanes .none) (.fillLeft 2) .atLanes .none
      ∧ stands (after (.fillLeft 1) .atLanes .none) (.fillLeft 1) .atLanes .none
      ∧ stands (after (.fillLeft 1) .waitCommit .bound) (.fillLeft 1) .waitCommit .bound
      ∧ stands (after (.fillLeft 1) .waitCommit .none) (.fillLeft 1) .waitCommit .none
      ∧ stands (after .none .waitCommit .none) .none .waitCommit .none := by
  and_intros <;> decide +kernel

theorem test_meets_AdmitBringsALaneIntoService :
    let meets (also : Entry → LaneId → State → Prop) : Prop :=
      ∃ (e : EntryId) (x : Entry) (l : LaneId) (s : State),
        (s.part.agenda = [] ∧ s.part.takes e x ∧ s.part.holdsNothing (.request e) ∧ genericRefusal x.req = none ∧
        x.req.kind = kindLane ∧ x.req.selector = 1) ∧ s.part.Kept ∧ also x l s
    let formatted (x : Entry) : Prop := x.req.target.toNat < 4 ∧ x.req.parameter.toNat ≤ 15 ∧ x.req.flags &&& 2 = 0
    let passes (o : Option ReqOutcome) (also : LaneId → State → Prop) : Prop :=
      meets fun x l s => (formatted x ∧ x.req.target.toNat = l.val ∧ admitCheck l s.part = o) ∧ also l s
    meets (fun x _ _ => ¬ formatted x)
      ∧ passes (some .refusedLane) (fun _ _ => True)
      ∧ passes (some .refusedBusy) (fun _ _ => True)
      ∧ passes (some .refusedCapacity) (fun _ _ => True)
      ∧ passes none (fun l s => s.part.committing ∧ s.part.patrolIdle ∧ s.part.volumesOf l = [])
      ∧ passes none (fun l s => s.part.committing ∧ s.part.patrolIdle ∧ s.part.volumesOf l = [] ∧
        s.part.committer.serial = 0)
      ∧ passes none (fun l s => (s.part.committing ∧ s.part.patrolIdle) ∧ ∃ (v : VolId) (rest : List VolId),
        s.part.volumesOf l = v :: rest ∧ s.part.derived ∧ s.part.engine.state = .running ∧ s.part.rebuild.paused = false ∧
          (s.part.vol v).state ≠ .lost ∧ ((⟨.rebuild, v, 0, min 16 (s.part.vol v).length,
            true⟩ : Lock).clearOf s.part.locks.granted && (⟨.rebuild, v, 0, min 16 (s.part.vol v).length,
              true⟩ : Lock).clearOf s.part.locks.waiting) = false) :=
  ⟨⟨0, takingEntry {admitReq with parameter := 16}, 2, taking {admitReq with parameter := 16}, by decide +kernel, keptOf (by decide +kernel), by decide +kernel⟩,
    ⟨0, takingEntry {admitReq with target := 1}, 1, taking {admitReq with target := 1}, by decide +kernel, keptOf (by decide +kernel), by decide +kernel⟩,
    ⟨0, takingEntry admitReq, 2, taking admitReq fun p => {p with rebuild := {Rebuild.reset with state := .held}},
        by decide +kernel, keptOf (by decide +kernel), by decide +kernel⟩,
    ⟨0, takingEntry admitReq, 2, taking admitReq fun p =>
        p.setVol 3 {vol0 with members := 0b0101, state := .degraded, length := 3839}, by decide +kernel,
          keptOf (by decide +kernel), by decide +kernel⟩,
    ⟨0, takingEntry {admitReq with parameter := 15}, 2, taking {admitReq with parameter := 15}, by decide +kernel, keptOf (by decide +kernel), by decide +kernel⟩,
    ⟨0, takingEntry admitReq, 2, taking admitReq fun p => {p with committer := {p.committer with serial := 0}},
        by decide +kernel, keptOf (by decide +kernel), by decide +kernel⟩,
    ⟨0, takingEntry {admitReq with parameter := 0}, 2, taking {admitReq with parameter := 0} degraded3, by decide +kernel, keptOf (by decide +kernel), by decide +kernel, by decide +kernel,
            3, [], by decide +kernel⟩⟩

/-- Lane 2 REBUILDING into volume 3, a chunk of four blocks in work. -/
def rebuilding (f : RebuildChunk → RebuildChunk) (g : Part → Part := id) : Part :=
  let p := (part.setVol 3 {vol0 with members := 0b0111, state := .degraded, first := 40, length := 50}).modLane 2 fun L =>
    {L with runtime := .rebuilding, recorded := .rebuilding, boundSerial := 9, budget := 3}
  let chunk : RebuildChunk := f ⟨3, 16, 4, .source, [0, 1], [0], .replicate 4 ⟨none, false, []⟩, 1⟩
  g {p with
    pool := p.pool.give .rebuild 4, locks := ⟨[⟨.rebuild, 3, 16, 4, true⟩], []⟩,
    rebuild := {Rebuild.reset with
      state := .running, target := some 2, volumes := [3], cursorVol := 3, cursorBlock := 16, chunk := some chunk}}

def sourced : List BlockTry := [⟨some 0, false, []⟩, ⟨some 1, false, [0]⟩, ⟨none, false, [0, 1]⟩, ⟨some 0, true, []⟩]
def writtenChunk (k : RebuildChunk) : RebuildChunk := {k with phase := .write, outstanding := 0, blocks := sourced}

abbrev chunkIs (p : Part) (also : RebuildChunk → Bool) : Prop :=
  p.rebuild.aborting = false ∧ (p.rebuild.chunk.any also) = true

theorem test_meets_AdmitBringsALaneIntoService_where_rebuild_operations_end :
    let next (p : Part) (k : RebuildChunk) : Option LaneId := k.order.find? fun m => p.online m && !k.tried.contains m
    let open_ (k : RebuildChunk) : Bool := k.blocks.any fun b => b.source = none
    let reading (k : RebuildChunk) : Bool := k.outstanding ≤ 1 && decide (k.phase = .source)
    let triedAll (k : RebuildChunk) : RebuildChunk := {k with tried := [0, 1]}
    let lost (p : Part) : Part := p.modVol 3 fun v => {v with state := .lost}
    chunkIs (rebuilding fun k => {k with outstanding := 2}) (fun k => 2 ≤ k.outstanding)
      ∧ chunkIs (rebuilding writtenChunk) (fun k => k.outstanding ≤ 1 && decide (k.phase = .write))
      ∧ chunkIs (rebuilding id) (fun k => reading k && open_ k && decide (next (rebuilding id) k = some 1))
      ∧ (chunkIs (rebuilding triedAll lost) (fun k => reading k && (next (rebuilding triedAll lost) k).isNone)
        ∧ (rebuilding triedAll lost).isLost 3 = true)
      ∧ (chunkIs (rebuilding triedAll) (fun k => reading k && k.blocks.all fun b => b.source = none)
        ∧ (rebuilding triedAll).isLost 3 = false)
      ∧ chunkIs (rebuilding fun k => {k with blocks := sourced}) (fun k => reading k && k.blocks.any fun b => b.source.isSome)
      ∧ chunkIs (rebuilding fun k => {k with blocks := .replicate 4 ⟨some 0, false, []⟩})
        (fun k => reading k && k.blocks.all fun b => b.source.isSome) := by
  and_intros <;> decide +kernel

theorem test_meets_AdmitBringsALaneIntoService_where_rebuild_writes :
    let held := rebuilding (fun k => {k with phase := .hold}) fun p => p.modVol 3 fun v => {v with hold := .bound}
    let free := rebuilding fun k => {k with phase := .hold}
    (chunkIs held (fun k => k.volume = 3) ∧ held.rebuild.target = some 2 ∧ (held.vol 3).hold ≠ .none)
      ∧ chunkIs free (fun k => k.volume = 3) ∧ (free.vol 3).hold = .none ∧ free.serviceable 2 = true := by
  and_intros <;> decide +kernel

theorem test_meets_AdmitBringsALaneIntoService_at_a_chunks_end :
    let ends (p : Part) (also : Nat → Nat → Bool) : Prop :=
      chunkIs p fun k => also (p.rebuild.cursorBlock + k.count) (p.vol k.volume).length
    let length (n : Nat) (p : Part) : Part := p.modVol 3 fun v => {v with length := n}
    let two (p : Part) : Part := {length 20 p with rebuild := {p.rebuild with volumes := [3, 5]}}
    let quiet : List BlockTry := [⟨some 0, false, []⟩, ⟨some 1, false, []⟩, ⟨none, false, []⟩, ⟨some 0, false, []⟩]
    ends (rebuilding writtenChunk (length 21)) (fun ended n => decide (ended < n))
      ∧ (ends (rebuilding writtenChunk (length 20)) (fun ended n => decide (n ≤ ended))
        ∧ (rebuilding writtenChunk (length 20)).rebuild.volumes.find? (fun v => 3 < v) = none)
      ∧ (ends (rebuilding writtenChunk two) (fun ended n => decide (n ≤ ended))
        ∧ (rebuilding writtenChunk two).rebuild.volumes.find? (fun v => 3 < v) = some 5)
      ∧ tryDiscoveries 3 .rebuild 0 16 quiet = [] := by
  and_intros <;> decide +kernel

theorem test_meets_AdmitBringsALaneIntoService_at_the_rebuilds_end :
    let p := rebuilding id fun p => {p with rebuild := {p.rebuild with chunk := none, passed := true}}
    p.rebuild.target = some 2 ∧ p.rebuild.state = .running ∧ p.rebuild.aborting = false ∧ p.rebuild.chunk = none
      ∧ p.rebuild.passed = true := by decide +kernel

theorem test_meets_AdmitBringsALaneIntoService_where_a_volume_is_skipped :
    let lost (vs : List VolId) (f : Rebuild → Rebuild) : Part :=
      let p := rebuildingLane1 none false part
      {(failedLane0 p).modVol 0 fun v => {v with state := .lost} with rebuild := f {p.rebuild with volumes := vs}}
    let buffering (u : Rebuild) : Rebuild := {u with chunk := some {rebuildChunk0 with phase := .buffers}}
    let p := lost [0, 3] id
    p.rebuild.volumes.find? (fun w => p.rebuild.cursorVol < w) = some 3
      ∧ (lost [0] id).rebuild.volumes.find? (fun w => (lost [0] id).rebuild.cursorVol < w) = none
      ∧ (p.rebuild.target ≠ none ∧ p.rebuild.state = .running ∧ p.rebuild.aborting = false ∧ p.rebuild.chunk = none
        ∧ p.rebuild.passed = false ∧ p.rebuild.paused = false ∧ (p.vol p.rebuild.cursorVol).state = .lost)
      ∧ ((lost [0, 3] buffering).rebuild.chunk = some {rebuildChunk0 with phase := .buffers}
        ∧ (lost [0, 3] buffering).rebuild.aborting = false ∧ (lost [0, 3] buffering).onlineMembers 0 = []
        ∧ ((lost [0, 3] buffering).vol 0).reference ∈ ((lost [0, 3] buffering).vol 0).members.lanes) := by
  and_intros <;> decide +kernel

theorem test_meets_ChosenSerialsAreNewAndNotZero :
    ∃ (p : Part), p.committer.seen.length < 2 ^ 32 :=
  ⟨{part with committer := {committer0 with seen := [0, 1]}}, by decide +kernel⟩

theorem test_meets_RetireAndProbeActOnTheirLane :
    let meets (also : EntryId → Entry → LaneId → State → Prop) : Prop :=
      ∃ (e : EntryId) (x : Entry) (l : LaneId) (s : State),
        (s.part.agenda = [] ∧ s.part.takes e x ∧ s.part.holdsNothing (Holder.request e) ∧ genericRefusal x.req = none
        ∧ x.req.kind = kindLane) ∧ s.part.Kept ∧ also e x l s
    meets (fun _ x _ _ => x.req.selector = 2 ∧ (4 ≤ BitVec.toNat x.req.target ∨ x.req.parameter ≠ 0))
      ∧ meets (fun _ x l s => x.req.selector = 2 ∧ BitVec.toNat x.req.target = ↑l ∧ x.req.parameter = 0 ∧
        s.part.serviceable l = false ∧ (s.part.lane l).runtime ≠ .stale ∧ (s.part.lane l).runtime ≠ .failed)
      ∧ meets (fun _ x l s => x.req.selector = 2 ∧ BitVec.toNat x.req.target = ↑l ∧ x.req.parameter = 0 ∧
        ((s.part.lane l).runtime = .online ∧ ∃ v, (s.part.vol v).inUse = true ∧ s.part.onlineMembers v = [l]) ∧
          x.req.flags &&& 2 = 0)
      ∧ meets (fun _ x l s => x.req.selector = 2 ∧ BitVec.toNat x.req.target = ↑l ∧ x.req.parameter = 0 ∧
        s.part.serviceable l = true ∧ (¬((s.part.lane l).runtime = .online ∧ ∃ v, (s.part.vol v).inUse = true ∧
          s.part.onlineMembers v = [l]) ∨ x.req.flags &&& 2 ≠ 0))
      ∧ meets (fun _ x l s => x.req.selector = 2 ∧ BitVec.toNat x.req.target = ↑l ∧ x.req.parameter = 0 ∧
        ((s.part.lane l).runtime = .stale ∨ (s.part.lane l).runtime = .failed) ∧ s.part.committing ∧ s.part.derived ∧
          s.part.patrolIdle)
      ∧ meets (fun _ x _ _ => x.req.selector = 3 ∧
        (4 ≤ BitVec.toNat x.req.target ∨ x.req.parameter ≠ 0 ∨ x.req.flags &&& 2 ≠ 0))
      ∧ meets (fun _ x l s => x.req.selector = 3 ∧ BitVec.toNat x.req.target = ↑l ∧ x.req.parameter = 0 ∧
        x.req.flags &&& 2 = 0 ∧ (s.part.lane l).runtime.idle = false)
      ∧ meets (fun _ x l s => x.req.selector = 3 ∧ BitVec.toNat x.req.target = ↑l ∧ x.req.parameter = 0 ∧
        x.req.flags &&& 2 = 0 ∧ (s.part.lane l).runtime.idle = true ∧ s.part.derived ∧ s.part.patrolIdle) :=
  ⟨⟨0, (takingEntry {retireReq with parameter := 1}), 2, (taking {retireReq with parameter := 1}), by decide +kernel, keptOf (by decide +kernel), by decide +kernel⟩,
    ⟨0, (takingEntry retireReq), 2, (taking retireReq), by decide +kernel, keptOf (by decide +kernel),
        by decide +kernel⟩,
    ⟨0, (takingEntry {retireReq with target := 0}), 0, (taking {retireReq with target := 0} fun p => p.modLane 1 fun L =>
        {L with runtime := .failed}), by decide +kernel, keptOf (by decide +kernel), by decide +kernel⟩,
    ⟨0, (takingEntry {retireReq with target := 0}), 0, (taking {retireReq with target := 0}), by decide +kernel, keptOf (by decide +kernel), by decide +kernel⟩,
    ⟨0, (takingEntry retireReq), 2, (taking retireReq fun p => p.modLane 2 fun L =>
        {L with runtime := .stale, recorded := .departed}), by decide +kernel,
          keptOf (by decide +kernel), by decide +kernel⟩,
    ⟨0, (takingEntry {probeReq with flags := 2}), 2, (taking {probeReq with flags := 2}), by decide +kernel, keptOf (by decide +kernel), by decide +kernel⟩,
    ⟨0, (takingEntry {probeReq with target := 1}), 1, (taking {probeReq with target := 1}), by decide +kernel, keptOf (by decide +kernel), by decide +kernel⟩,
    ⟨0, (takingEntry probeReq), 2, (taking probeReq), by decide +kernel, keptOf (by decide +kernel),
        by decide +kernel⟩⟩

theorem test_meets_PlanAndSnapshotAskForOneBuffer :
    let meets (also : EntryId → Entry → State → Prop) : Prop :=
      ∃ (e : EntryId) (x : Entry) (s : State),
        (s.part.agenda = [] ∧ s.part.takes e x ∧ s.part.holdsNothing (Holder.request e) ∧ genericRefusal x.req = none)
        ∧ s.part.Kept ∧ also e x s
    meets (fun _ x s => x.req.kind = kindPlan ∧ s.part.frozen = true)
      ∧ meets (fun _ x s => x.req.kind = kindPlan ∧ s.part.frozen = false ∧ x.req.address.toNat % 64 ≠ 0)
      ∧ meets (fun _ x s => x.req.kind = kindPlan ∧ s.part.frozen = false ∧ x.req.address.toNat % 64 = 0 ∧
        (s.part.pool.waiting ≠ [] ∨ s.part.pool.freeCount = 0))
      ∧ meets (fun _ x s => x.req.kind = kindPlan ∧ s.part.frozen = false ∧ x.req.address.toNat % 64 = 0 ∧
        ¬(s.part.pool.waiting ≠ [] ∨ s.part.pool.freeCount = 0))
      ∧ meets (fun _ x _ => x.req.kind = kindSnapshot ∧ x.req.address.toNat % 64 ≠ 0)
      ∧ meets (fun _ x s => x.req.kind = kindSnapshot ∧ x.req.address.toNat % 64 = 0 ∧
        (s.part.pool.waiting ≠ [] ∨ s.part.pool.freeCount = 0))
      ∧ meets (fun _ x s => ∃ (b : BufId) (rest : List BufId), x.req.kind = kindSnapshot ∧ x.req.address.toNat % 64 = 0 ∧
        s.part.pool.waiting = [] ∧ s.part.pool.freeBufs = b :: rest) :=
  ⟨⟨0, (takingEntry planReq), (taking planReq frozenPart), by decide +kernel,
      keptOf (by decide +kernel), by decide +kernel⟩,
    ⟨0, (takingEntry {planReq with address := 65}), (taking {planReq with address := 65}), by decide +kernel, keptOf (by decide +kernel), by decide +kernel⟩,
    ⟨0, (takingEntry planReq), (taking planReq poolFull), by decide +kernel, keptOf (by decide +kernel),
        by decide +kernel⟩,
    ⟨0, (takingEntry planReq), (taking planReq), by decide +kernel, keptOf (by decide +kernel),
        by decide +kernel⟩,
    ⟨0, (takingEntry {snapshotReq with address := 65}), (taking {snapshotReq with address := 65}), by decide +kernel, keptOf (by decide +kernel), by decide +kernel⟩,
    ⟨0, (takingEntry snapshotReq), (taking snapshotReq poolFull), by decide +kernel,
        keptOf (by decide +kernel), by decide +kernel⟩,
    ⟨0, (takingEntry snapshotReq), (taking snapshotReq fun p =>
        {p with pool := {p.pool with holders := p.pool.holders.set 0 (some .rebuild)}}), by decide +kernel, keptOf (by decide +kernel), 1,
            ((List.finRange 64).drop 2), by decide +kernel⟩⟩

theorem test_meets_PlanAndSnapshotAskForOneBuffer_where_the_report_is_made :
    let labelled (f : Part → Part) : Part := f {part with volumes := part.volumes.map fun v => {v with label := label0}}
    let recovers := labelled fun p => {p with
      patrol := {p.patrol with marker := true, recovery := [3, 4]}, rebuild := {p.rebuild with target := some 2}}
    ((∀ v, ((labelled id).vol v).label.length = 16) ∧ (labelled id).patrol.marker = false ∧ (labelled id).rebuild.target = none)
      ∧ (∀ v, (recovers.vol v).label.length = 16) ∧ recovers.patrol.marker = true ∧ recovers.patrol.recovery = [3, 4]
      ∧ recovers.rebuild.target = some 2 := by
  and_intros <;> decide +kernel

theorem test_meets_PatrolControlStartsAndStops :
    let meets (also : EntryId → Entry → State → Prop) : Prop :=
      ∃ (e : EntryId) (x : Entry) (s : State),
        (s.part.agenda = [] ∧ s.part.takes e x ∧ s.part.holdsNothing (Holder.request e) ∧ genericRefusal x.req = none
        ∧ x.req.kind = kindControl) ∧ s.part.Kept ∧ also e x s
    meets (fun _ x _ => x.req.selector ≠ 1 ∧ x.req.selector ≠ 2)
      ∧ meets (fun _ x s => x.req.selector = 1 ∧ (s.part.patrol.marker = true ∨ s.part.patrol.state ≠ .idle ∧
        s.part.patrol.state ≠ .done))
      ∧ meets (fun _ x s => x.req.selector = 1 ∧ s.part.patrol.marker = false ∧ ¬(s.part.patrol.state ≠ .idle ∧
        s.part.patrol.state ≠ .done) ∧ s.part.patrol.plan = none)
      ∧ meets (fun _ x s => ∃ (plan : Plan), x.req.selector = 1 ∧ s.part.patrol.marker = false ∧
        ¬(s.part.patrol.state ≠ .idle ∧ s.part.patrol.state ≠ .done) ∧ s.part.patrol.plan = some plan ∧ s.part.committing ∧
          (1 ≤ plan.holdoff ∨ s.part.engine.state ≠ .running ∨ s.part.patrol.paused = true))
      ∧ meets (fun _ x s => ∃ (plan : Plan), x.req.selector = 1 ∧ s.part.patrol.marker = false ∧
        ¬(s.part.patrol.state ≠ .idle ∧ s.part.patrol.state ≠ .done) ∧ s.part.patrol.plan = some plan ∧ s.part.committing ∧
          (1 ≤ plan.holdoff ∨ s.part.engine.state ≠ .running ∨ s.part.patrol.paused = true) ∧ plan.holdoff = 0)
      ∧ meets (fun _ x s => ∃ (plan : Plan), x.req.selector = 1 ∧ s.part.patrol.marker = false ∧
        ¬(s.part.patrol.state ≠ .idle ∧ s.part.patrol.state ≠ .done) ∧ s.part.patrol.plan = some plan ∧ s.part.committing ∧
          plan.holdoff = 0 ∧ s.part.engine.state = .running ∧ s.part.patrol.paused = false)
      ∧ meets (fun _ x s => x.req.selector = 2 ∧ s.part.patrol.marker = true)
      ∧ meets (fun _ x s => x.req.selector = 2 ∧ s.part.patrol.marker = false ∧ ¬(s.part.patrol.state ≠ .idle ∧
        s.part.patrol.state ≠ .done))
      ∧ meets (fun _ x s => x.req.selector = 2 ∧ s.part.patrol.marker = false ∧ (s.part.patrol.state ≠ .idle ∧
        s.part.patrol.state ≠ .done) ∧ s.part.patrol.chunk ≠ none)
      ∧ meets (fun _ x s => x.req.selector = 2 ∧ s.part.patrol.marker = false ∧ (s.part.patrol.state ≠ .idle ∧
        s.part.patrol.state ≠ .done) ∧ s.part.patrol.chunk = none ∧ s.part.committing) :=
  ⟨⟨0, (takingEntry (controlReq 0)), (controlled 0 id), by decide +kernel, keptOf (by decide +kernel),
      by decide +kernel⟩,
    ⟨0, (takingEntry (controlReq 1)), (controlled 1 fun q => {q with state := .waiting}), by decide +kernel, keptOf (by decide +kernel), by decide +kernel⟩,
    ⟨0, (takingEntry (controlReq 1)), (controlled 1 id), by decide +kernel, keptOf (by decide +kernel),
        by decide +kernel⟩,
    ⟨0, (takingEntry (controlReq 1)), (controlled 1 fun q =>
        {q with state := .done, plan := some planA, pass := 4, checked := 3}), by decide +kernel,
          keptOf (by decide +kernel), planA, by decide +kernel⟩,
    ⟨0, (takingEntry (controlReq 1)), (controlled 1 fun q => {q with state := .done, plan := some planNow, paused := true}),
        by decide +kernel, keptOf (by decide +kernel), planNow, by decide +kernel⟩,
    ⟨0, (takingEntry (controlReq 1)), (controlled 1 fun q => {q with state := .done, plan := some planNow}),
        by decide +kernel, keptOf (by decide +kernel), planNow, by decide +kernel⟩,
    ⟨0, (takingEntry (controlReq 2)), (controlled 2 fun q => {q with marker := true}), by decide +kernel, keptOf (by decide +kernel), by decide +kernel⟩,
    ⟨0, (takingEntry (controlReq 2)), (controlled 2 id), by decide +kernel, keptOf (by decide +kernel),
        by decide +kernel⟩,
    ⟨0, (takingEntry (controlReq 2)), (controlled 2 fun q =>
        {q with state := .running, chunk := some ⟨0, 0, 8, .lock, [], [], 0, 0⟩}), by decide +kernel,
          keptOf (by decide +kernel), by decide +kernel⟩,
    ⟨0, (takingEntry (controlReq 2)), (controlled 2 fun q => {q with state := .resting, rest := 3}), by decide +kernel, keptOf (by decide +kernel), by decide +kernel⟩⟩

theorem test_meets_WriteDataGoesToTheTargets :
    let meets (f : Part → Part) (also : Volume → Part → Prop) : Prop :=
      let p := (atEntry fetchEntry f).part
      p.agenda = [] ∧ p.entry 0 = some fetchEntry ∧ fetchEntry.req.kind = kindWrite ∧ fetchEntry.state = .fetching
        ∧ [[1], [2]].length = fetchEntry.req.count.toNat ∧ also (p.vol 0) p
    let withVol (f : Volume → Volume) (p : Part) : Part := (holding2 p).modVol 0 f
    let idle (p : Part) : Part :=
      {p with locks := ⟨[⟨.request 0, 0, 3, 2, true⟩], []⟩, pool := p.pool.give (.request 0) 2}
    meets holding2 (fun _ p => p.noWaiters)
      ∧ meets (withVol fun v => {v with state := .lost}) (fun v p => p.noWaiters ∧ v.state = .lost)
      ∧ meets (withVol fun v => {v with hold := .waiting}) (fun v _ => v.state ≠ .lost ∧ v.hold ≠ .none)
      ∧ meets idle (fun v p => v.state ≠ .lost ∧ v.hold = .none ∧ (p.lane 0).service = none)
      ∧ meets holding2 (fun v p => v.state ≠ .lost ∧ v.hold = .none ∧
        ∀ l ∈ v.members.lanes.filter p.serviceable, (p.lane l).service ≠ none ∧ (p.lane l).places < 16) := by
  and_intros <;> decide +kernel

theorem test_meets_WriteDataGoesToTheTargets_in_a_lane_queue :
    let queued (n : Nat) : Lane := {busy onlineLane with queue := .replicate n (someOp .write)}
    let pulsing : Lane := {onlineLane with pulse := some .departure}
    16 ≤ (queued 15).places
      ∧ ((queued 14).places < 16 ∧ (queued 14).service ≠ none)
      ∧ (pulsing.places < 16 ∧ pulsing.hold = true)
      ∧ (onlineLane.service = none ∧ onlineLane.queue = [] ∧ onlineLane.txn = none ∧ onlineLane.hold = false
        ∧ part.serviceable 1 = true) := by
  and_intros <;> decide +kernel

/-- The operations that wait on a lane: two BACKGROUND ones, two FOREGROUND ones and, in `all`, a RECORD one. -/
def bothClasses : List LaneOp := [patrolRead, someOp .write, {patrolRead with start := 90}, someOp .read]
def allClasses : List LaneOp := bothClasses ++ [recordOp 1 .a]

theorem test_meets_WriteDataGoesToTheTargets_in_the_choice_of_an_operation :
    let has (c : OpClass) (q : List LaneOp) : Prop := ∃ op ∈ q, op.cls = c
    let waiting (streak : Nat) (q : List LaneOp) : Part := part.modLane 1 fun L => {L with queue := q, streak := streak}
    let share := part.engine.share
    (has .record allClasses ∧ choose 4 4 allClasses = some (recordOp 1 .a, bothClasses, 4))
      ∧ (¬ has .record bothClasses ∧ has .foreground bothClasses ∧ has .background bothClasses
        ∧ choose 4 3 bothClasses = some (someOp .write, patrolRead :: bothClasses.drop 2, 4)
        ∧ choose 4 4 bothClasses = some (patrolRead, bothClasses.drop 1, 0))
      ∧ (¬ has .record [patrolRead] ∧ ¬ has .foreground [patrolRead] ∧ choose 4 0 [patrolRead] = some (patrolRead, [], 0))
      ∧ (¬ has .record [someOp .read] ∧ ¬ has .background [someOp .read]
        ∧ choose 4 15 [someOp .read] = some (someOp .read, [], 15))
      ∧ (((waiting 0 []).lane 1).service = none ∧ ((waiting 0 []).lane 1).txn = none ∧ ((waiting 0 []).lane 1).hold = false
        ∧ (waiting 0 []).serviceable 1 = true ∧ ((waiting 0 []).lane 1).queue = [])
      ∧ (waiting share bothClasses).serviceable 1 = true ∧ ((waiting share bothClasses).lane 1).service = none
      ∧ choose share ((waiting share bothClasses).lane 1).streak ((waiting share bothClasses).lane 1).queue =
        some (patrolRead, bothClasses.drop 1, 0)
      ∧ ((waiting share bothClasses).lane 1).places < 16 := by
  and_intros <;> decide +kernel

/-- A WRITE to lanes 0 and 1, some of its operations ended. -/
def writeWork (completed lost : LaneMask) : WriteWork := ⟨false, 3, completed, lost⟩
def writeEntry (w : WriteWork) (m : WaitMark) : Entry :=
  {takingEntry writeData with state := .atLanes, work := .write w, mark := m}

abbrev writeOpEnds (w : WriteWork) (m : WaitMark) (completed lost : LaneMask) : Prop :=
  let p := (atEntry (writeEntry w m) holding2).part
  p.entry 0 = some (writeEntry w m) ∧ (writeEntry w m).work = .write w ∧ w.completed &&& completed = w.completed
    ∧ w.lost &&& lost = w.lost

theorem test_meets_WriteDataGoesToTheTargets_at_an_operations_end :
    let open_ (completed lost : LaneMask) : Prop := ∃ m, (3 : LaneMask).has m = true ∧ completed.has m = false ∧ lost.has m = false
    let all (completed lost : LaneMask) : Prop := ∀ m, (3 : LaneMask).has m = true → completed.has m = true ∨ lost.has m = true
    (writeOpEnds (writeWork 0 0) .none 1 0 ∧ open_ 1 0)
      ∧ (writeOpEnds (writeWork 1 0) .none 3 0 ∧ all 3 0)
      ∧ (writeOpEnds (writeWork 0 1) .none 2 1 ∧ all 2 1)
      ∧ (writeOpEnds (writeWork 0 1) .none 0 3 ∧ all 0 3)
      ∧ (writeOpEnds (writeWork 1 0) .waiting 1 2 ∧ all 1 2 ∧ WaitMark.waiting ≠ .none)
      ∧ (writeOpEnds (writeWork 0 1) .bound 2 1 ∧ all 2 1 ∧ WaitMark.bound ≠ .none) := by
  and_intros <;> decide +kernel

theorem test_meets_DeliveriesFinishTheirRequests :
    let meets (also : EntryId → Entry → State → Prop) : Prop :=
      ∃ (e : EntryId) (x : Entry) (s : State),
        (s.part.agenda = [] ∧ s.part.entry e = some x ∧ x.state = EntryState.delivering ∧ s.part.noWaiters) ∧ also e x s
    meets (fun _ x _ => ∃ (w : ReadWork), x.work = Work.read w)
      ∧ meets (fun _ x _ => ∃ (w : ReadWork), x.work = Work.read w)
      ∧ meets (fun _ x _ => x.req.kind = kindSnapshot) :=
  ⟨⟨0, (readEntry (.read twoLanes)), (atEntry (readEntry (.read twoLanes)) holding2), by decide +kernel, twoLanes, by decide +kernel⟩,
    ⟨0, (readEntry (.read oneLane)), (atEntry (readEntry (.read oneLane)) holding2), by decide +kernel, oneLane, by decide +kernel⟩,
    ⟨0, snapshotEntry, (atEntry snapshotEntry holding2), by decide +kernel⟩⟩

theorem test_meets_DeliveriesFinishTheirRequests_in_the_transfer :
    let p := (atEntry (readEntry .none) holding2).part
    p.entry 0 = some (readEntry .none) ∧ (readEntry .none).state = .delivering ∧ (readEntry .none).req.kind = kindRead
      ∧ (p.pool.bufsOf (.request 0))[1]? = some 1 := by decide +kernel

/-- A READ of two blocks, chosen lane 0 first. -/
def lastRound (named : Bool) (n : Nat) (tried : List LaneId) : ReadWork :=
  ⟨named, 0, tried, .replicate 2 ⟨none, false, []⟩, n, 0⟩
def readingPart (w : ReadWork) (f : Part → Part := id) : Part :=
  f (atEntry {readEntry (.read w) with state := .atLanes} holding2).part
def failedLane (l : LaneId) (p : Part) : Part := p.modLane l fun L => {L with runtime := .failed}

theorem test_meets_DeliveriesFinishTheirRequests_where_a_read_ends :
    let meets (w : ReadWork) (f : Part → Part) (also : Part → Prop) : Prop :=
      let p := readingPart w f
      p.entry 0 = some {readEntry (.read w) with state := .atLanes} ∧ also p
    let merged (ss : List Status) : List BlockTry := mergeTries 0 0 ss (.replicate 2 ⟨none, false, []⟩)
    let resolved (bs : List BlockTry) : Prop := ∀ b ∈ bs, b.source ≠ none
    let unresolved (bs : List BlockTry) : Prop := ∃ b ∈ bs, b.source = none
    let policy := lastRound false 1 [0]
    let named := lastRound true 1 [0]
    meets (lastRound false 2 [0]) id (fun _ => True)
      ∧ (meets policy id (fun _ => True) ∧ resolved (merged [.good, .corrected]))
      ∧ (meets policy (failedLane 1) (fun p => (∀ m ∈ p.onlineMembers 0, m ∈ [0]) ∧ p.isLost 0 = false)
        ∧ unresolved (merged [.good, .unreadable]))
      ∧ meets policy (fun p => (failedLane 0 (failedLane 1 p)).modVol 0 fun v => {v with state := .lost})
        (fun p => (∀ m ∈ p.onlineMembers 0, m ∈ [0]) ∧ p.isLost 0 = true)
      ∧ (meets named id (fun p => ∃ m ∈ p.onlineMembers 0, m ≠ 0) ∧ named.completed = 0)
      ∧ meets named (failedLane 1) (fun p => ∀ m ∈ p.onlineMembers 0, m = 0) := by
  and_intros <;> decide +kernel

theorem test_meets_DeliveriesFinishTheirRequests_in_its_discoveries :
    tryDiscoveries 0 .read 9 4 [⟨some 2, true, [1, 0]⟩, ⟨none, false, [1, 0, 2]⟩, ⟨some 1, false, []⟩] =
      [⟨1, 0, 4, .unreadable, .read, 9⟩, ⟨0, 0, 4, .unreadable, .read, 9⟩, ⟨2, 0, 4, .weak, .read, 9⟩] := by decide

theorem test_meets_FetchedPlansAreCheckedAndStored :
    let meets (also : EntryId → Entry → State → List Byte → BufId → Prop) : Prop :=
      ∃ (e : EntryId) (x : Entry) (s : State) (bs : List Byte) (b : BufId),
        (s.part.agenda = [] ∧ s.part.entry e = some x ∧ x.req.kind = kindPlan ∧ x.state = EntryState.fetching ∧
        s.part.noWaiters ∧ s.part.pool.bufsOf (Holder.request e) = [b]) ∧ also e x s bs b
    meets (fun _ _ _ _ _ => True)
      ∧ meets (fun _ _ s _ _ => s.part.patrol.marker = true ∨ s.part.patrol.state ≠ .idle ∧ s.part.patrol.state ≠ .done)
      ∧ meets (fun _ _ s bs _ => ¬(s.part.patrol.marker = true ∨ s.part.patrol.state ≠ .idle ∧
        s.part.patrol.state ≠ .done) ∧ parsePlan bs = none)
      ∧ meets (fun _ _ s bs _ => ∃ (plan : Plan), ¬(s.part.patrol.marker = true ∨ s.part.patrol.state ≠ .idle ∧
        s.part.patrol.state ≠ .done) ∧ parsePlan bs = some plan ∧ (∃ y ∈ plan.spans, s.part.ready y.volume = false))
      ∧ meets (fun _ _ s bs _ => ∃ (plan : Plan), ¬(s.part.patrol.marker = true ∨ s.part.patrol.state ≠ .idle ∧
        s.part.patrol.state ≠ .done) ∧ parsePlan bs = some plan ∧ (∀ (y : Span),
          y ∈ plan.spans → s.part.ready y.volume = true) ∧ (∃ y ∈ plan.spans,
            (s.part.vol y.volume).length < y.first + y.count))
      ∧ meets (fun _ _ s bs _ => ∃ (plan : Plan), ¬(s.part.patrol.marker = true ∨ s.part.patrol.state ≠ .idle ∧
        s.part.patrol.state ≠ .done) ∧ parsePlan bs = some plan ∧ (∀ (y : Span),
          y ∈ plan.spans → s.part.ready y.volume = true ∧ y.first + y.count ≤ (s.part.vol y.volume).length) ∧
            s.part.committing) :=
  ⟨⟨0, planEntry, (fetchedPlan id), (planBytes 0 20), 0, by decide +kernel⟩,
    ⟨0, planEntry, (fetchedPlan fun p => {p with patrol := {p.patrol with marker := true}}), (planBytes 0 20), 0,
        by decide +kernel⟩,
    ⟨0, planEntry, (fetchedPlan id), (planBytes 8 20), 0, by decide +kernel⟩,
    ⟨0, planEntry, (fetchedPlan id), (planBytes 1 20), 0, by decide +kernel, ⟨[⟨1, 10, 20⟩], true, 5, 7⟩, by decide +kernel⟩,
    ⟨0, planEntry, (fetchedPlan id), (planBytes 0 91), 0, by decide +kernel, ⟨[⟨0, 10, 91⟩], true, 5, 7⟩, by decide +kernel⟩,
    ⟨0, planEntry, (fetchedPlan id), (planBytes 0 90), 0, by decide +kernel, ⟨[⟨0, 10, 90⟩], true, 5, 7⟩, by decide +kernel⟩⟩

theorem test_meets_HoldoffAndRestBeginPatrol :
    let meets (also : State → Prop) : Prop := ∃ (s : State), s.part.atRest ∧ also s
    let begins (c : Instr) (also : State → Span → Patrol → Prop) : Prop :=
      meets fun s => ∃ (sp : Span), s.part.engine.state = .running ∧ s.part.patrol.paused = false ∧
        s.part.patrol.marker = false ∧ s.part.patrol.chunk = none ∧
        ((c = .holdoffExpiry ∧ s.part.patrol.state = .holdoff) ∨ (c = .restExpiry ∧ s.part.patrol.state = .resting)) ∧
        (s.part.patrol.plan.bind fun pl => pl.spans[(startedPatrol c s.part.patrol).span]?) = some sp ∧
        s.part.ready sp.volume = true ∧ s.part.isLost sp.volume = false ∧
        sp.first + sp.count ≤ (s.part.vol sp.volume).length ∧ also s sp (startedPatrol c s.part.patrol)
    let waitsForLock (s : State) (sp : Span) (q : Patrol) : Prop :=
      min 8 (sp.count - q.offset) * ((s.part.onlineMembers sp.volume).length - 1) ≤ s.part.repair.room ∧
        ((chunkLock sp q).clearOf s.part.locks.granted && (chunkLock sp q).clearOf s.part.locks.waiting) = false
    meets (fun s => s.part.patrol.state ≠ .holdoff ∧ s.part.patrol.state ≠ .resting)
      ∧ begins .holdoffExpiry waitsForLock
      ∧ begins .holdoffExpiry (fun s sp q => waitsForLock s sp q ∧ sp.count - q.offset < 8)
      ∧ begins .restExpiry waitsForLock
      ∧ begins .restExpiry (fun s sp q =>
        s.part.repair.room < min 8 (sp.count - q.offset) * ((s.part.onlineMembers sp.volume).length - 1)) :=
  ⟨⟨patrolling id, by decide +kernel⟩,
    ⟨patrolling (fun q => {q with state := .holdoff, holdoff := 2}) lockedAll, by decide +kernel, ⟨0, 4, 50⟩,
        by decide +kernel⟩,
    ⟨patrolling (fun q => {q with state := .holdoff, holdoff := 2, offset := 44}) lockedAll, by decide +kernel, ⟨0, 4, 50⟩,
        by decide +kernel⟩,
    ⟨patrolling (fun q => {q with state := .resting, rest := 2, span := 1, offset := 3, checked := 9}) lockedAll,
        by decide +kernel, ⟨0, 4, 50⟩, by decide +kernel⟩,
    ⟨patrolling (fun q => {q with state := .resting, rest := 2, span := 1, offset := 3, checked := 9}) listOf30,
        by decide +kernel, ⟨0, 4, 50⟩, by decide +kernel⟩⟩

/-- Patrol with a chunk of two blocks of volume 0 read from lanes 0 and 1. -/
def chunkOf2 : PatrolChunk := ⟨0, 10, 2, .reads, [0, 1], [], 2, 0⟩
def reading2 (f : PatrolChunk → PatrolChunk) (u : Patrol → Patrol := id) (g : Part → Part := id) : Part :=
  g {part with
    pool := part.pool.give .patrol 4, locks := ⟨[⟨.patrol, 0, 10, 2, false⟩], []⟩,
    patrol := u {Patrol.reset with state := .running, plan := some planB, offset := 6, chunk := some (f chunkOf2)}}

theorem test_meets_HoldoffAndRestBeginPatrol_where_its_buffers_are_granted :
    let waits (gone : LaneMask) (f : Part → Part) (read : List (LaneId × Nat)) (lost : Bool) : Prop :=
      let p := (changed fun p => f {p with patrol := {p.patrol with chunk := some ⟨0, 0, 8, .buffers, [0, 1], [], 0, gone⟩}}).part
      p.patrol.chunk = some ⟨0, 0, 8, .buffers, [0, 1], [], 0, gone⟩
        ∧ (([0, 1] : List LaneId).zipIdx.filter fun y => !gone.has y.1 && p.online y.1) = read ∧ p.isLost 0 = lost
    waits 0 id [(0, 0), (1, 1)] false ∧ waits 1 id [(1, 1)] false ∧ waits 3 id [] false
      ∧ waits 0 (fun p => lostVol0 (noneOnline p)) [] true := by
  and_intros <;> decide +kernel

theorem test_meets_HoldoffAndRestBeginPatrol_where_a_chunks_read_ends :
    let last (c : PatrolChunk) : PatrolChunk := {c with outstanding := 1}
    let judged (c : PatrolChunk) : PatrolChunk := {c with outstanding := 1, got := [(0, [.good, .corrected])]}
    let lost (p : Part) : Part := p.modVol 0 fun v => {v with state := .lost}
    let has (p : Part) (also : PatrolChunk → Bool) : Prop := (p.patrol.chunk.any also) = true
    has (reading2 id) (fun c => 2 ≤ c.outstanding)
      ∧ (has (reading2 judged id lost) (fun c => c.outstanding ≤ 1) ∧ (reading2 judged id lost).isLost 0 = true)
      ∧ (has (reading2 last) (fun c => c.outstanding ≤ 1 && decide (c.got = [])) ∧ (reading2 last).isLost 0 = false)
      ∧ (has (reading2 judged) (fun c => c.outstanding ≤ 1 && decide (c.got ≠ [])) ∧ (reading2 judged).isLost 0 = false) := by
  and_intros <;> decide +kernel

theorem test_meets_HoldoffAndRestBeginPatrol_where_a_chunk_settles :
    let settling (u : Patrol → Patrol) (g : Part → Part) (sp : Span) (also : Patrol → Nat → Prop) : Prop :=
      let p := reading2 (fun c => {c with phase := .settle}) u g
      p.currentSpan = some sp ∧ also p.patrol (p.patrol.offset + 2)
    let recovers (vs : List VolId) (q : Patrol) : Patrol := {q with marker := true, recovery := vs, offset := 98}
    let planOf (n : Nat) (q : Patrol) : Patrol := {q with plan := some ⟨[⟨0, 4, n⟩, ⟨1, 0, 5⟩], true, 3, 2⟩}
    let lastSpan (again : Bool) (q : Patrol) : Patrol :=
      {q with plan := some ⟨[⟨1, 0, 5⟩, ⟨0, 4, 8⟩], again, 3, 2⟩, span := 1}
    let waits (p : Part) : Part := {p with repair := {p.repair with waiter := [⟨1, 0, 6, .weak, .patrol, 0⟩]}}
    (settling id waits ⟨0, 4, 50⟩ (fun _ _ => True) ∧ (waits part).repair.waiter ≠ [])
      ∧ settling (fun q => {q with sinceCheckpoint := 4095}) id ⟨0, 4, 50⟩ (fun q n => n < 50 ∧ q.sinceCheckpoint < 4096)
      ∧ settling (fun q => {q with marker := true, recovery := [0], sinceCheckpoint := 5000}) id ⟨0, 0, 100⟩
        (fun q n => n < 100 ∧ q.marker = true)
      ∧ settling (fun q => {q with sinceCheckpoint := 4096}) id ⟨0, 4, 50⟩
        (fun q n => n < 50 ∧ q.marker = false ∧ 4096 ≤ q.sinceCheckpoint)
      ∧ settling (planOf 8) id ⟨0, 4, 8⟩ (fun q n => 8 ≤ n ∧ q.marker = false ∧ q.span + 1 < 2)
      ∧ settling (lastSpan true) id ⟨0, 4, 8⟩ (fun q n => 8 ≤ n ∧ q.marker = false ∧ 2 ≤ q.span + 1)
      ∧ settling (lastSpan false) id ⟨0, 4, 8⟩ (fun q n => 8 ≤ n ∧ q.marker = false ∧ 2 ≤ q.span + 1)
      ∧ settling (recovers [0, 3]) id ⟨0, 0, 100⟩ (fun q n => 100 ≤ n ∧ q.marker = true ∧ q.recovery = [0, 3])
      ∧ settling (recovers [0]) id ⟨0, 0, 100⟩ (fun q n => 100 ≤ n ∧ q.marker = true ∧ q.recovery = [0]) := by
  and_intros <;> decide +kernel

theorem test_meets_HoldoffAndRestBeginPatrol_where_patrol_goes_on :
    let going (u : Patrol → Patrol) : Part := {reading2 id u with table := part.table.set 5 (some (takingEntry (controlReq 2)))}
    let goes (p : Part) : Prop := p.engine.state ≠ .halting ∧ p.patrol.stops = [] ∧ p.patrol.state ≠ .holdoff
      ∧ p.patrol.state ≠ .resting ∧ p.committing
    goes (going id) ∧ goes (going fun q => {q with state := .waiting})
      ∧ ((going fun q => {q with stops := [5]}).patrol.stops = [5]
        ∧ (going fun q => {q with stops := [5]}).entry 5 = some (takingEntry (controlReq 2))
        ∧ (going fun q => {q with stops := [5]}).committing) := by
  and_intros <;> decide +kernel

theorem test_meets_HoldoffAndRestBeginPatrol_where_a_span_is_skipped :
    let skipping (u : Patrol → Patrol) : Part :=
      {part with patrol := u {part.patrol with state := .running, plan := some ⟨[⟨3, 0, 5⟩, ⟨0, 0, 500⟩], true, 3, 2⟩}}
    let recovers (vs : List VolId) : Part := skipping fun q => {q with marker := true, recovery := vs}
    let skips (p : Part) (sp : Span) : Prop := p.engine.state = .running ∧ p.patrol.paused = false ∧ p.patrol.chunk = none
      ∧ (p.patrol.marker = true ∨ p.patrol.state = .running ∨ p.patrol.state = .waiting) ∧ p.currentSpan = some sp
      ∧ ((p.vol sp.volume).inUse = false ∨ (p.vol sp.volume).state = .filling ∨ (p.vol sp.volume).state = .lost
        ∨ (p.vol sp.volume).length < sp.first + sp.count)
    (skips (skipping id) ⟨3, 0, 5⟩ ∧ (skipping id).patrol.span + 1 < 2)
      ∧ (skips (skipping fun q => {q with span := 1}) ⟨0, 0, 500⟩ ∧ (skipping fun q => {q with span := 1}).patrol.span + 1 = 2)
      ∧ (skips (recovers [3, 0]) ⟨3, 0, 0⟩ ∧ (recovers [3, 0]).patrol.recovery = [3, 0])
      ∧ (skips (recovers [3]) ⟨3, 0, 0⟩ ∧ (recovers [3]).patrol.recovery = [3]) := by
  and_intros <;> decide +kernel

theorem test_meets_SweepsReadAndTakeSlots :
    let meets (also : Part → Sweep → List Byte → Prop) : Prop :=
      ∃ (s : State) (w : Sweep) (bs : List Byte),
        (s.part.agenda = [] ∧ s.part.engine.state = .running ∧ s.part.docket.sweep = some w ∧ w.stop = false ∧
        s.part.docket.completions = []) ∧ also s.part w bs
    let reads (also : Part → Sweep → Prop → Prop) : Prop :=
      meets fun p w bs => (p.docket.xfer = some (.slotRead w.slot true) ∧ w.consumed = true) ∧ also p w (posted p bs w.slot)
    meets (fun p _ _ => p.docket.xfer = some (.consumedRead true))
      ∧ reads (fun p w posted => ¬ posted ∧ w.examined + 1 < p.docket.slots)
      ∧ reads (fun p w posted => ¬ posted ∧ w.examined + 1 < p.docket.slots ∧ p.entry 9 ≠ none)
      ∧ reads (fun p w posted => ¬ posted ∧ p.docket.slots = w.examined + 1 ∧ p.docket.rerun = false ∧ w.lastTaken ≠ none)
      ∧ reads (fun p w posted => ¬ posted ∧ p.docket.slots = w.examined + 1 ∧ p.docket.rerun = false ∧ w.lastTaken = none)
      ∧ reads (fun p _ posted => posted ∧ (∀ e, p.entry e ≠ none) ∧ p.docket.rerun = false)
      ∧ reads (fun p _ posted => posted ∧ p.entry 1 = none ∧ ∀ e', e' < 1 → p.entry e' ≠ none) :=
  ⟨⟨sweeping fun d => {d with sweep := some {sweep0 with consumed := false}, xfer := some (.consumedRead true)},
      {sweep0 with consumed := false}, [], by decide +kernel⟩,
    ⟨sweeping fun d => {d with sweep := some sweep0, xfer := some (.slotRead 3 true)}, sweep0, [2], by decide +kernel⟩,
    ⟨sweeping (fun d => {d with sweep := some sweep0, xfer := some (.slotRead 3 true)}) held, sweep0, slotBytes,
      by decide +kernel⟩,
    ⟨sweeping fun d => {d with sweep := some {sweep0 with examined := 15}, xfer := some (.slotRead 3 true)},
      {sweep0 with examined := 15}, [2], by decide +kernel⟩,
    ⟨sweeping fun d => {d with
        position := 4, sweep := some {sweep0 with examined := 15, lastTaken := none}, xfer := some (.slotRead 3 true)},
      {sweep0 with examined := 15, lastTaken := none}, [2], by decide +kernel⟩,
    ⟨sweeping (fun d => {d with sweep := some sweep0, xfer := some (.slotRead 3 true)}) allHeld, sweep0, slotBytes,
      by decide +kernel⟩,
    ⟨sweeping (fun d => {d with sweep := some sweep0, xfer := some (.slotRead 3 true)}) oneHeld, sweep0, slotBytes,
      by decide +kernel⟩⟩

theorem test_meets_SweepsReadAndTakeSlots_in_the_slot_format :
    parseRequest ([1, 2, 3, 4] ++ leBytes 4 0x11223344 ++ leBytes 4 9 ++ leBytes 2 500 ++ [6, 7] ++ leBytes 8 0x123456789A
        ++ leBytes 4 77 ++ leBytes 4 88 ++ [5] ++ List.replicate 15 0) =
      ⟨2, 3, 4, 0x11223344, 9, 500, 6, 7, 0x123456789A, 77, 88, 5, true⟩ := by decide +kernel

theorem test_meets_CompletionsAreWrittenInThreeSteps :
    let meets (also : State → EntryId → Entry → Prop) : Prop :=
      ∃ (s : State) (e : EntryId) (x : Entry),
        s.part.agenda = [] ∧ s.part.entry e = some x ∧ also s e x
    meets (fun s e _ => s.part.docket.xfer = some (DocketXfer.outcomeWrite e))
      ∧ meets (fun s e _ => s.part.docket.xfer = some (DocketXfer.doneWrite e))
      ∧ meets (fun s e _ => s.part.docket.xfer = some (DocketXfer.tallyWrite e))
      ∧ meets (fun s e _ => s.part.docket.xfer = some (DocketXfer.tallyWrite e))
      ∧ meets (fun s e _ => s.part.docket.xfer = some (DocketXfer.tallyWrite e) ∧ (s.part.engine.state ≠ .halting ∨ ∃ f,
        f ≠ e ∧ s.part.entry f ≠ none) ∧ (s.part.docket.deferred = false ∨ s.part.engine.state ≠ .running))
      ∧ meets (fun s e _ => s.part.docket.xfer = some (DocketXfer.tallyWrite e) ∧ s.part.engine.state = .running ∧
        s.part.docket.deferred = true ∧ s.part.docket.sweep = none ∧ s.part.docket.completions = [])
      ∧ meets (fun s e _ => s.part.docket.xfer = some (DocketXfer.tallyWrite e) ∧ s.part.engine.state = .halting ∧
        (∀ (f : EntryId), f ≠ e → s.part.entry f = none) ∧ s.part.patrol.chunk = none ∧ s.part.repair.work = none ∧
          s.part.rebuild.chunk = none ∧ s.part.committer.inFlight = none ∧ s.part.committer.requested = false) :=
  ⟨⟨(completing (.outcomeWrite 4)), 4, finishedEntry, by decide +kernel⟩,
    ⟨(completing (.doneWrite 4)), 4, finishedEntry, by decide +kernel⟩,
    ⟨(completing (.tallyWrite 4)), 4, finishedEntry, by decide +kernel⟩,
    ⟨(completing (.tallyWrite 4)), 4, finishedEntry, by decide +kernel⟩,
    ⟨(completing (.tallyWrite 4)), 4, finishedEntry, by decide +kernel⟩,
    ⟨(completing (.tallyWrite 4) fun p => {p with docket := {p.docket with deferred := true, position := 6}}), 4,
        finishedEntry, by decide +kernel⟩,
    ⟨(completing (.tallyWrite 4) fun p =>
        {p with engine := {p.engine with state := .halting}, committer := {p.committer with inFlight := none}}), 4,
          finishedEntry, by decide +kernel⟩⟩

theorem test_meets_JournalTakesAndWritesEvents :
    (∃ (j : Journal) (_ : Event), j.backlog = [] ∧ j.xfer ≠ some JournalXfer.reread ∧
        ¬j.entries ≤ BitVec.toNat (j.written - j.lastRead))
      ∧ (∃ (j : Journal) (_ : Event),
        (j.backlog ≠ [] ∨ j.xfer = some JournalXfer.reread ∨ j.entries ≤ BitVec.toNat (j.written - j.lastRead)) ∧
          j.backlog.length < 16)
      ∧ (∃ (j : Journal) (_ : Event),
        (j.backlog ≠ [] ∨ j.xfer = some JournalXfer.reread ∨ j.entries ≤ BitVec.toNat (j.written - j.lastRead)) ∧
          16 ≤ j.backlog.length)
      ∧ (∃ (s : State), s.part.atRest ∧ s.part.journal.xfer = some JournalXfer.entryWrite)
      ∧ (∃ (s : State) (x : Placed) (rest : List Placed), s.part.atRest ∧
        s.part.journal.xfer = some JournalXfer.writtenWrite ∧ s.part.journal.writeList = x :: rest)
      ∧ (∃ (s : State) (n : Word), s.part.atRest ∧ s.part.journal.xfer = some (JournalXfer.lostWrite n))
      ∧ (∃ (s : State) (_ : Word), s.part.atRest ∧ s.part.journal.xfer = some JournalXfer.reread ∧
        s.part.journal.backlog = [])
      ∧ (∃ (s : State) (v : Word) (e : Event), s.part.atRest ∧ s.part.journal.xfer = some JournalXfer.reread ∧
        s.part.journal.backlog = [e] ∧ BitVec.toNat (s.part.journal.written - v) < s.part.journal.entries) :=
  ⟨⟨{journal0 with lastRead := 0xFFFFFFF6}, event0, by decide +kernel⟩,
    ⟨{journal0 with lastRead := 0xFFFFFFF5, backlog := List.replicate 15 event0}, event0, by decide +kernel⟩,
    ⟨{journal0 with backlog := List.replicate 16 event0}, event0, by decide +kernel⟩,
    ⟨(journalState .entryWrite id), by decide +kernel⟩,
    ⟨(journalState .writtenWrite fun j => {j with writeList := [⟨4, event0⟩], lostDue := true, lost := 3}), ⟨4, event0⟩,
        [], by decide +kernel⟩,
    ⟨(journalState (.lostWrite 4) fun j => {j with writeList := [⟨4, event0⟩]}), 4, by decide +kernel⟩,
    ⟨(journalState .reread id), 4, by decide +kernel⟩,
    ⟨(journalState .reread fun j => {j with backlog := [event0], lastRead := 0xFFFFFFF5}), 0xFFFFFFF6, event0,
        by decide +kernel⟩⟩

theorem test_meets_JournalTakesAndWritesEvents_in_the_order_of_transfers :
    let j := journal0
    let listed : Journal := {j with writeList := [⟨4, spanSkippedEvent 0 0 0 0⟩]}
    (journalState .reread id).part.journal.xfer ≠ none
      ∧ ({j with xfer := none, rereadDue := true} : Journal).next.xfer = some .reread
      ∧ ({j with xfer := none, rereadDue := false, lostDue := true, lost := 7} : Journal).next.xfer = some (.lostWrite 7)
      ∧ ({listed with xfer := none, rereadDue := false, lostDue := false} : Journal).next.xfer = some .entryWrite
      ∧ ({j with xfer := none, rereadDue := false, lostDue := false} : Journal).writeList = [] := by
  and_intros <;> decide +kernel

theorem test_meets_JournalTakesAndWritesEvents_in_the_bytes_of_an_entry :
    let x : Placed := ⟨21, ⟨.rebuild, some 1, none, 0x12, 3, 4, 0x0102, 5, 6, 7⟩⟩
    let writing (f : JournalXfer) (ws : List Placed) : Part :=
      {part with journal := {journal0 with xfer := some f, writeList := ws}}
    x.bytes = leBytes 4 21 ++ [8, 1, 0xFF, 0x12, 3, 4, 0, 0, 2, 1, 0, 0] ++ leBytes 4 5 ++ leBytes 4 6 ++ leBytes 4 7
        ++ leBytes 4 0
      ∧ (writing .entryWrite [x]).journalAddress = some (0x10000 + 4096 + 32 * 5)
      ∧ (writing .entryWrite [x]).journalBytes = x.bytes
      ∧ (writing .writtenWrite [x]).journalBytes = [22, 0, 0, 0] ∧ (writing .writtenWrite []).journalBytes = [0, 0, 0, 0]
      ∧ (writing (.lostWrite 9) [x]).journalBytes = [9, 0, 0, 0] ∧ (writing .reread [x]).journalBytes = [] := by
  and_intros <;> decide +kernel

theorem test_meets_JournalTakesAndWritesEvents_with_any_backlog :
    let meets (n : Nat) (entries : Nat) : Prop :=
      let s := journalState .reread fun j => {j with backlog := .replicate n event0, entries := entries}
      s.part.atRest ∧ s.part.journal.xfer = some .reread ∧ s.part.journal.entries ≤ 256
    meets 0 16 ∧ meets 7 16 ∧ meets 16 256 := by
  and_intros <;> decide +kernel

def readable (rs : List Read) : List Read := rs.filter (·.status.readable)
def sameAs (rs : List Read) (x : Read) : List Read := (readable rs).filter fun y => sameBlock y.content x.content

/-- The copy `x` gives the agreement: its group is more than half, or the acting reference's, or the lowest lane's. -/
abbrev judged (acting : Option LaneId) (rs : List Read) (x : Read) : Prop :=
  (rs.map (·.lane)).Pairwise (· < ·) ∧ x ∈ readable rs ∧
    ((readable rs).length < 2 * (sameAs rs x).length
      ∨ ((∀ y ∈ readable rs, 2 * (sameAs rs y).length ≤ (readable rs).length) ∧ acting = some x.lane)
      ∨ ((∀ y ∈ readable rs, 2 * (sameAs rs y).length ≤ (readable rs).length)
        ∧ (∀ y ∈ readable rs, acting ≠ some y.lane) ∧ (readable rs).head? = some x))

abbrev onlineIn (p : Part) (v : VolId) (l : LaneId) : Prop := (p.vol v).members.has l = true ∧ (p.lane l).runtime = .online
def noneLeft : Part := part.setVol 0 {vol0 with members := 0b1100, reference := 2}
def oneLeft : Part := part.setVol 0 {vol0 with members := 0b0110, reference := 2}

theorem test_meets_AgreementRuleAndDerivedStates :
    readable [copyOf 0 .unreadable [], copyOf 1 .unreadable []] = []
      ∧ judged (some 1) [copyOf 0 .good [1], copyOf 1 .good [2], copyOf 2 .good [1, 0]] (copyOf 0 .good [1])
      ∧ judged (some 1) [copyOf 0 .good [1], copyOf 1 .good [2], copyOf 2 .corrected [2], copyOf 3 .good [1]]
        (copyOf 1 .good [2])
      ∧ judged (some 1) [copyOf 0 .good [1], copyOf 1 .unreadable [2], copyOf 2 .corrected [3], copyOf 3 .good [1]]
        (copyOf 3 .good [1])
      ∧ judged (some 1) [copyOf 0 .corrected [1], copyOf 1 .unreadable [2], copyOf 2 .corrected [3]]
        (copyOf 0 .corrected [1])
      ∧ judged none [copyOf 2 .corrected [3]] (copyOf 2 .corrected [3]) := by
  and_intros <;> decide +kernel

theorem test_meets_AgreementRuleAndDerivedStates_by_members :
    (∀ l, ¬ onlineIn noneLeft 0 l)
      ∧ ((∃ l, onlineIn part 0 l) ∧ (∀ l, (part.vol 0).members.has l = true → onlineIn part 0 l) ∧
        onlineIn part 0 (part.vol 0).reference)
      ∧ ((∃ l, onlineIn oneLeft 0 l) ∧ ∃ l, (oneLeft.vol 0).members.has l = true ∧ ¬ onlineIn oneLeft 0 l)
      ∧ ((oneLeft.lane (oneLeft.vol 0).reference).runtime ≠ .online ∧ onlineIn oneLeft 0 1 ∧
        ∀ k, k < 1 → ¬ onlineIn oneLeft 0 k) := by decide +kernel

/-- A VERIFY of two blocks on lanes 0 and 1, block 4 read differently. -/
def verifyWork (got : List (LaneId × List Status)) (n : Nat) : VerifyWork := ⟨[0, 1], got, n, 0⟩
def verifyEntry (w : VerifyWork) : Entry :=
  {takingEntry {verifyReq with count := 2, flags := 1} with state := .atLanes, work := .verify w}
def verifying (w : VerifyWork) (f : Part → Part := id) : Part :=
  let p := (atEntry (verifyEntry w) fun p => {p with pool := p.pool.give (.request 0) 4}).part
  f {p with pool := {p.pool with data := ((p.pool.data.set 0 [1]).set 1 [2]).set 2 [1]}}

theorem test_meets_AgreementRuleAndDerivedStates_where_a_verify_ends :
    let got : List (LaneId × List Status) := [(0, [.good, .good])]
    let judgement (i : Nat) : Verdict :=
      agree ((verifying (verifyWork got 1)).actingReference 0)
        (copiesOf ((verifying (verifyWork got 1)).readsOf (.request 0) 2 i (got ++ [(1, [.good, .good])]) 0 [0, 1]))
    (verifying (verifyWork [] 2)).entry 0 = some (verifyEntry (verifyWork [] 2))
      ∧ (verifying (verifyWork [] 1)).entry 0 = some (verifyEntry (verifyWork [] 1))
      ∧ (verifying (verifyWork got 1)).entry 0 = some (verifyEntry (verifyWork got 1)) ∧ got ≠ []
      ∧ (judgement 0).outvoted = 0 ∧ (judgement 1).outvoted ≠ 0 := by
  and_intros <;> decide +kernel

theorem test_meets_AgreementRuleAndDerivedStates_in_the_discoveries :
    let found (rs : List Read) : List Discovery :=
      judgedDiscoveries 0 7 .verify 9 [(3, copiesOf rs, agree (some 1) (copiesOf rs))]
    let rs : List Read := [⟨0, .corrected, [1]⟩, ⟨1, .good, [2]⟩, ⟨2, .corrected, [2, 0]⟩, ⟨3, .unreadable, []⟩]
    (rs.map (·.lane)).Pairwise (· < ·) ∧ (agree (some 1) (copiesOf rs)).unrecoverable = false
      ∧ found rs = [⟨0, 0, 10, .mismatch, .verify, 9⟩, ⟨2, 0, 10, .weak, .verify, 9⟩, ⟨3, 0, 10, .unreadable, .verify, 9⟩]
      ∧ (agree (some 1) (copiesOf [⟨0, .unreadable, []⟩])).unrecoverable = true ∧ found [⟨0, .unreadable, []⟩] = [] := by
  and_intros <;> decide +kernel

theorem test_meets_CommitRequestsCoalesce :
    let meets (also : Part → Prop) : Prop :=
      ∃ (p : Part), also p
    meets (fun p => p.engine.state = .detached)
      ∧ meets (fun p => p.engine.state = .attaching)
      ∧ meets (fun p => p.engine.state = .faulted)
      ∧ meets (fun p => (p.engine.state = .attaching ∧
        p.engine.attach = .firstCommits ∨ p.engine.state ∈ [EngineState.running, EngineState.halting, EngineState.halted,
          EngineState.detaching]) ∧ p.committer.inFlight = none)
      ∧ meets (fun p => (p.engine.state = .attaching ∧
        p.engine.attach = .firstCommits ∨ p.engine.state ∈ [EngineState.running, EngineState.halting, EngineState.halted,
          EngineState.detaching]) ∧ p.committer.inFlight ≠ none)
      ∧ meets (fun p => p.serviceableMask ≠ 0)
      ∧ meets (fun p => ∃ (k : Commit), p.committer.inFlight = some k ∧ (∃ l, k.targets.has l = true ∧
        (k.ends[↑l] = WriteEnd.pending ∨ k.ends[↑l] = WriteEnd.faultAsked)))
      ∧ meets (fun p => ∃ (k : Commit), p.committer.inFlight = some k ∧ (∀ (l : LaneId),
        k.targets.has l = true → k.ends[↑l] ≠ WriteEnd.pending ∧ k.ends[↑l] ≠ WriteEnd.faultAsked) ∧
          p.committer.requested = true)
      ∧ meets (fun p => ∃ (k : Commit), p.committer.inFlight = some k ∧ (∀ (l : LaneId),
        k.targets.has l = true → k.ends[↑l] ≠ WriteEnd.pending ∧ k.ends[↑l] ≠ WriteEnd.faultAsked)) :=
  ⟨⟨{part with engine := Engine.reset}, by decide +kernel⟩,
    ⟨{part with engine := {Engine.reset with state := .attaching, attach := .identifying}}, by decide +kernel⟩,
    ⟨{part with engine := {Engine.reset with state := .faulted}}, by decide +kernel⟩,
    ⟨{part with
        engine := {Engine.reset with state := .attaching, attach := .firstCommits},
        committer := {part.committer with inFlight := none}}, by decide +kernel⟩,
    ⟨part, by decide +kernel⟩,
    ⟨(marksWait part), by decide +kernel⟩,
    ⟨(marksBound .faultAsked true), (commitWith .faultAsked), by decide +kernel⟩,
    ⟨(marksBound .lost true), (commitWith .lost), by decide +kernel⟩,
    ⟨(marksBound .faulted false), (commitWith .faulted), by decide +kernel⟩⟩

theorem test_meets_CommitRequestsCoalesce_in_the_records_built :
    part.serviceable 1 = true ∧ (part.buildRecord 6 1).fieldBytes.length ≤ 4094
      ∧ (record1 true).fieldBytes.length ≤ 4094 := by decide +kernel

theorem test_meets_DiscoveriesAreAdmittedInOrder :
    let meets (also : Discovery → Part → Prop) : Prop :=
      ∃ (d : Discovery) (p : Part), also d p
    meets (fun d p => p.online d.lane = false ∨ (p.vol d.volume).inUse = false ∨ (p.vol d.volume).state = .filling)
      ∧ meets (fun d p => p.online d.lane = false ∨ (p.vol d.volume).inUse = false ∨ (p.vol d.volume).state = .filling)
      ∧ meets (fun d p => ¬(p.online d.lane = false ∨ (p.vol d.volume).inUse = false ∨ (p.vol d.volume).state = .filling) ∧
        (∃ x, x ∈ p.repair.list ∧ x.lane = d.lane ∧ x.volume = d.volume ∧ x.block = d.block))
      ∧ meets (fun d p => ¬(p.online d.lane = false ∨ (p.vol d.volume).inUse = false ∨ (p.vol d.volume).state = .filling) ∧
        (∀ (x : DiscEntry), x ∈ p.repair.list → ¬(x.lane = d.lane ∧ x.volume = d.volume ∧ x.block = d.block)) ∧
          p.repair.list.length < 32)
      ∧ meets (fun d p => ¬(p.online d.lane = false ∨ (p.vol d.volume).inUse = false ∨ (p.vol d.volume).state = .filling) ∧
        (∀ (x : DiscEntry), x ∈ p.repair.list → ¬(x.lane = d.lane ∧ x.volume = d.volume ∧ x.block = d.block)) ∧
          32 ≤ p.repair.list.length ∧ (d.origin = .patrol ∨ d.origin = .recovery) ∧ p.engine.state ≠ .halting)
      ∧ meets (fun d p => ¬(p.online d.lane = false ∨ (p.vol d.volume).inUse = false ∨ (p.vol d.volume).state = .filling) ∧
        (∀ (x : DiscEntry), x ∈ p.repair.list → ¬(x.lane = d.lane ∧ x.volume = d.volume ∧ x.block = d.block)) ∧
          32 ≤ p.repair.list.length ∧ ¬(d.origin = .patrol ∨ d.origin = .recovery) ∧ p.repair.episode = true)
      ∧ meets (fun d p => ¬(p.online d.lane = false ∨ (p.vol d.volume).inUse = false ∨ (p.vol d.volume).state = .filling) ∧
        (∀ (x : DiscEntry), x ∈ p.repair.list → ¬(x.lane = d.lane ∧ x.volume = d.volume ∧ x.block = d.block)) ∧
          32 ≤ p.repair.list.length ∧ ¬(d.origin = .patrol ∨ d.origin = .recovery) ∧ p.repair.episode = false) :=
  ⟨⟨(discovery 2 0 1 .read), {part with repair := Repair.reset}, by decide +kernel⟩,
    ⟨(discovery 1 1 1 .read), {part with repair := Repair.reset}, by decide +kernel⟩,
    ⟨(discovery 1 0 5 .read), {part with repair := {Repair.reset with list := [⟨1, 0, 5, .weak, .read, 1, true⟩]}},
        by decide +kernel⟩,
    ⟨(discovery 1 0 5 .patrol), {part with repair := listOf31 Repair.reset}, by decide +kernel⟩,
    ⟨(discovery 1 0 5 .patrol), {part with repair := ((fullList false) Repair.reset)}, by decide +kernel⟩,
    ⟨(discovery 1 0 5 .rebuild), {part with repair := ((fullList true) Repair.reset)}, by decide +kernel⟩,
    ⟨(discovery 1 0 5 .rebuild), {part with repair := ((fullList false) Repair.reset)}, by decide +kernel⟩⟩

/-- A repair of block 5 of volume 0 on lane 1, its buffers' contents 1 and 2. -/
def voteOf (l : LaneId) (s : VoteStatus) (g : Option LaneId) : Vote := ⟨l, s, false, g⟩
def repairWork (phase : RepairPhase) (f : RepairWork → RepairWork := id) : RepairWork :=
  f ⟨1, 0, 5, .patrol, 9, phase, false, false, [voteOf 0 .readable (some 0), voteOf 1 .readable (some 1)], [], none, some 0,
    none, false⟩
def repairing (w : RepairWork) (f : Part → Part := id) : Part :=
  f {part with
    pool := {part.pool.give .repair 2 with data := (part.pool.data.set 0 [1]).set 1 [2]},
    locks := ⟨[⟨.repair, 0, 5, 1, true⟩], []⟩,
    repair := {Repair.reset with work := some w, list := [⟨1, 0, 5, .mismatch, .patrol, 9, true⟩]}}

theorem test_meets_DiscoveriesAreAdmittedInOrder_where_a_repair_operation_ends :
    let works (w : RepairWork) (f : Part → Part) (also : Part → Prop) : Prop :=
      (repairing w f).repair.work = some w ∧ w.gone = false ∧ also (repairing w f)
    let same (p : Part) : Part := {p with pool := {p.pool with data := p.pool.data.set 1 [1, 0]}}
    ((repairing (repairWork .revote fun w => {w with gone := true})).repair.work.any (·.gone)) = true
      ∧ works (repairWork .revote) id (fun _ => True) ∧ works (repairWork .content) id (fun _ => True)
      ∧ works (repairWork .rewrite) (failedLane 1) (fun p => p.online 1 = false)
      ∧ works (repairWork .rewrite) id (fun p => p.online 1 = true)
      ∧ works (repairWork .readback) same (fun p => sameBlock (p.buffer p.bufA) (p.buffer p.bufB) = true)
      ∧ works (repairWork .readback) id (fun p => sameBlock (p.buffer p.bufA) (p.buffer p.bufB) = false)
      ∧ works (repairWork .remap) id (fun _ => True)
      ∧ Status.good.readable = true ∧ Status.corrected.readable = true ∧ Status.unreadable.readable = false := by
  and_intros <;> decide +kernel

theorem test_meets_DiscoveriesAreAdmittedInOrder_where_a_repair_goes_on :
    let works (w : RepairWork) (f : Part → Part) (also : Part → Verdict → Prop) : Prop :=
      (repairing w f).repair.work = some w ∧ w.gone = false ∧ w.outstanding = false
        ∧ also (repairing w f) (agree ((repairing w f).actingReference 0) w.copies)
    let votes (vs : List Vote) : RepairWork := repairWork .revote fun w => {w with votes := vs}
    let asks : RepairWork := repairWork .revote fun w =>
      {w with votes := [voteOf 0 .unread none, voteOf 1 .unread none], todo := [0, 1], rep := none}
    let heldNow (p : Part) : Part := p.modVol 0 fun v => {v with hold := .bound}
    let bad (v : Verdict) : Prop := v.outvoted.has 1 = true ∨ v.weak.has 1 = true
    let unplaced (w : RepairWork) : List LaneId :=
      (w.votes.filter fun x => x.status = .readable && x.group.isNone).map (·.lane)
    works asks (failedLane 0) (fun p _ => p.online 0 = false) ∧ works asks id (fun p _ => p.online 0 = true)
      ∧ (works (votes [voteOf 0 .readable (some 0)]) id (fun _ _ => True)
        ∧ ∀ x ∈ [voteOf 0 .readable (some 0)], x.lane ≠ 1)
      ∧ works (votes [voteOf 0 .readable (some 0), voteOf 1 .readable none, voteOf 2 .readable none]) id
        (fun p _ => p.repair.work.any (fun w => decide (w.phase = .revote ∧ w.todo = [] ∧ unplaced w = [1, 2])) = true)
      ∧ works (votes [voteOf 0 .readable (some 0), voteOf 1 .readable none]) id
        (fun p _ => p.repair.work.any (fun w => decide (w.phase = .revote ∧ w.todo = [] ∧ unplaced w = [1])) = true)
      ∧ works (votes [voteOf 0 .failed none, voteOf 1 .failed none]) id (fun _ v => v.group = none)
      ∧ works (votes [voteOf 0 .readable (some 0), voteOf 1 .readable (some 0)]) id
        (fun _ v => v.group = some 0 ∧ ¬ bad v)
      ∧ works (repairWork .revote fun w => {w with aGroup := some 0}) id (fun _ v => v.group = some 0 ∧ bad v)
      ∧ works (repairWork .content) id (fun p v => v.group = some 0 ∧ bad v ∧ v.authority.lanes = [0] ∧ p.online 0 = true)
      ∧ works (repairWork .hold) heldNow (fun p _ => (p.vol 0).hold ≠ .none)
      ∧ works (repairWork .remap) heldNow (fun p _ => (p.vol 0).hold ≠ .none)
      ∧ works (repairWork .hold) (failedLane 1) (fun p _ => (p.vol 0).hold = .none ∧ p.online 1 = false)
      ∧ works (repairWork .hold) id (fun p _ => (p.vol 0).hold = .none ∧ p.online 1 = true)
      ∧ works (repairWork .remap) id (fun p _ => (p.vol 0).hold = .none ∧ p.online 1 = true) := by
  and_intros <;> decide +kernel

theorem test_meets_DiscoveriesAreAdmittedInOrder_where_a_vote_is_read :
    let first : RepairWork := repairWork .revote fun w => {w with rep := none}
    let later : RepairWork := repairWork .revote fun w => {w with rep := some 0}
    Status.unreadable.readable = false ∧ (Status.corrected.readable = true ∧ first.rep = none)
      ∧ Status.good.readable = true ∧ later.rep = some 0 := by decide

end Sys2Proof.Tests
end

section
/-!
What holding, taking and finishing a table entry does to the part, and how a step with one or two pieces of handed work ends:
the rules that the statements about requests share.
-/
namespace Sys2Proof.Machine

/-! ## Table entries -/

theorem Part.entry_withTable (p : Part) (t : Vector (Option Entry) 32) (e d : EntryId) (x : Option Entry) :
    ({ p with table := t.set e.val x } : Part).entry d = if e = d then x else ({ p with table := t } : Part).entry d := by
  simp only [Part.entry, Vector.getElem_set, Fin.ext_iff]

@[simp] theorem Part.entry_withTable_same (p : Part) (t : Vector (Option Entry) 32) (e : EntryId) (x : Option Entry) :
    ({ p with table := t.set e.val x } : Part).entry e = x := by
  rw [Part.entry_withTable, if_pos rfl]

/-- Changing an entry that is in use. -/
theorem Part.modEntry_eq {p : Part} {e : EntryId} {x : Entry} (h : p.entry e = some x) (f : Entry → Entry) :
    p.modEntry e f = { p with table := p.table.set e.val (some (f x)) } := by
  simp only [Part.modEntry, Part.setEntry, h, Option.map_some]

theorem complete_eq {p : Part} {e : EntryId} {x : Entry} (h : p.entry e = some x) (o : ReqOutcome) (mask : LaneMask)
    (a b : Word) : complete e o mask a b p = p.finished e x o mask a b := by
  unfold complete
  rw [Part.modEntry_eq h]
  rfl

/-- The entries in use are those of the table. -/
theorem Part.mem_entries {p : Part} {e : EntryId} {x : Entry} : (e, x) ∈ p.entries ↔ p.entry e = some x := by
  simp [Part.entries, allEntries]

/-! ## Finishing -/

/-- A request that holds nothing finishes. -/
theorem finish_idle {p : Part} {e : EntryId} {x : Entry} (hk : p.Kept) (hn : p.holdsNothing (.request e))
    (h : p.entry e = some x) (o : ReqOutcome) (mask : LaneMask) (a b : Word) :
    finish e o mask a b p = p.finished e x o mask a b := by
  unfold finish
  rw [releaseAll_idle hk hn, complete_eq h]

theorem refuse_idle {p : Part} {e : EntryId} {x : Entry} (hk : p.Kept) (hn : p.holdsNothing (.request e))
    (h : p.entry e = some x) (o : ReqOutcome) : refuse e o p = p.finished e x o 0 0 0 :=
  finish_idle hk hn h o 0 0 0

@[simp] theorem Part.finished_agenda (p : Part) (e : EntryId) (x : Entry) (o : ReqOutcome) (mask : LaneMask) (a b : Word) :
    (p.finished e x o mask a b).agenda = p.agenda := rfl

@[simp] theorem Part.finished_entry (p : Part) (e : EntryId) (x : Entry) (o : ReqOutcome) (mask : LaneMask) (a b : Word) :
    (p.finished e x o mask a b).entry e = some (x.finished o mask a b) := by
  simp [Part.finished, Part.entry]

theorem Part.atRest_of_entry {p : Part} {e : EntryId} {x : Entry} (ha : p.agenda = []) (h : p.entry e = some x) : p.atRest :=
  ⟨ha, Part.haltTested_of_entry h⟩

theorem Part.atRest_finished {p : Part} (ha : p.agenda = []) (e : EntryId) (x : Entry) (o : ReqOutcome) (mask : LaneMask)
    (a b : Word) : (p.finished e x o mask a b).atRest :=
  Part.atRest_of_entry (e := e) ha (Part.finished_entry ..)

/-! ## Taken slots -/

@[simp] theorem Part.taken_agenda (p : Part) (e : EntryId) (x : Entry) : (p.taken e x).agenda = p.agenda := rfl

@[simp] theorem Part.taken_entry (p : Part) (e : EntryId) (x : Entry) : (p.taken e x).entry e = some x := by
  simp [Part.taken, Part.entry]

theorem Part.taken_entry_other (p : Part) {e d : EntryId} (x : Entry) (h : d ≠ e) : (p.taken e x).entry d = p.entry d := by
  have : e.val ≠ d.val := fun g => h (Fin.ext g.symm)
  simp [Part.taken, Part.entry, this]

@[simp] theorem Part.taken_vol (p : Part) (e : EntryId) (x : Entry) (v : VolId) : (p.taken e x).vol v = p.vol v := rfl

theorem Part.Kept.taken {p : Part} (h : p.Kept) (e : EntryId) (x : Entry) : (p.taken e x).Kept := keep_same h

/-- The outcome fields are set over whatever the entry held of them before. -/
theorem Part.taken_finished (p : Part) (e : EntryId) (x : Entry) (s : EntryState) (o : ReqOutcome) (mask : LaneMask)
    (a b : Word) : (p.taken e { x with state := s }).finished e { x with state := s } o mask a b
      = (p.taken e x).finished e x o mask a b := by
  simp [Part.taken, Part.finished, Entry.finished]

/-- The TAKEN write ends: the docket goes on and the request stands in RECEIVED. -/
theorem takingDone_received {p : Part} {e : EntryId} {x : Entry} (h : p.entry e = some x) :
    setEntryState e .received (takingDone p) = p.taken e { x with state := .received } := by
  have h' : (takingDone p).entry e = some x := h
  unfold setEntryState
  rw [Part.modEntry_eq h']
  rfl

/-- A request that passes the generic checks is given to the checks of its kind. -/
theorem requestTaken_done {p : Part} {e : EntryId} {x : Entry} (ht : p.takes e x) (hg : genericRefusal x.req = none)
    {mine : Request → Bool} (hm : mine x.req = true) (go : EntryId → Request → Part → Part) :
    requestTaken mine go .done p = go e x.req (p.taken e { x with state := .received }) := by
  obtain ⟨hx, he, -⟩ := ht
  have hp : p.taking = some (e, x.req) := by simp [Part.taking, hx, he]
  unfold requestTaken
  simp only [hp, hm, Bool.not_true, Bool.false_eq_true, if_false, requestReceived, hg]
  rw [takingDone_received he]

/-- A request whose checks of its kind refuse it at once. -/
theorem refuse_taken {p : Part} {e : EntryId} (x : Entry) (hk : p.Kept) (hn : p.holdsNothing (.request e)) (o : ReqOutcome) :
    refuse e o (p.taken e { x with state := .received }) = (p.taken e x).finished e x o 0 0 0 := by
  rw [refuse_idle (hk.taken e _) hn (Part.taken_entry ..), Part.taken_finished]

/-- Waiting for a commit with one in flight (R58, R63). -/
theorem awaitCommit_committing {p : Part} {e : EntryId} {x : Entry} (h : p.entry e = some x) (hc : p.committing)
    (mask : LaneMask) :
    awaitCommit e mask p = { p with
      table := p.table.set e.val (some (x.await .ok mask 0 0)), committer := { p.committer with requested := true } } := by
  unfold awaitCommit
  rw [Part.modEntry_eq h]
  exact requestCommit_committing hc

/-! ## Steps that hand on one or two tasks -/

/-- The answer to a command whose effect hands one task on. -/
theorem State.act_of_push {f : Part → Part} {s : State} {q r : Part} {t : Task} (hf : f s.part = q.push [t])
    (ha : q.agenda = []) (hq : runTask t q = r) (hr : r.atRest) : s.act f = .next (s.withPart r) := by
  rw [State.act_eq, Machine.act_of_push hf ha hq hr]

/-- The answer to a command whose effect hands one task on, which hands on one more. -/
theorem State.act_of_push_push {f : Part → Part} {s : State} {q r z : Part} {t u : Task} (hf : f s.part = q.push [t])
    (ha : q.agenda = []) (hq : runTask t q = r.push [u]) (hb : r.agenda = []) (hr : runTask u r = z) (hz : z.atRest) :
    s.act f = .next (s.withPart z) := by
  have hs : settle Config.stepFuel (f s.part) = z := by
    show settle (65534 + 1 + 1) (f s.part) = z
    rw [hf, settle_push _ _ _ ha, Part.push_nil, hq, settle_push _ _ _ hb, Part.push_nil, hr, settle_nil _ hz.1]
  rw [State.act_eq]
  simp only [Part.act, hs, haltTest_of_tested hz.2]

end Sys2Proof.Machine
end

section
/-!
DEFINE VOLUME received, FREEZE (R11, R18) and DELETE VOLUME (R17).
-/
namespace Sys2Proof.Machine

/-! ## The fields of a DEFINE (R11, check 2) -/

theorem volOf_isNone (b : Byte) : (volOf b).isNone = decide (8 ≤ b.toNat) := by
  unfold volOf
  split <;> simp <;> omega

theorem volOf_of_lt {b : Byte} (h : b.toNat < 8) : volOf b = some ⟨b.toNat, h⟩ := dif_pos h

theorem laneOf_eq_some {b : Byte} {l : LaneId} : laneOf b = some l ↔ b.toNat = l.val := by
  unfold laneOf
  split
  · simp [Fin.ext_iff]
  · have := l.isLt
    simp
    omega

theorem LaneMask.has_setWidth (b : Byte) (l : LaneId) : LaneMask.has (b.setWidth 4) l = b.getLsbD l.val := by
  simp [LaneMask.has, l.isLt]

theorem Policy.ofCode_isNone (b : Byte) : (Policy.ofCode b).isNone = !decide (b = 0 ∨ b = 1) := by
  unfold Policy.ofCode
  split <;> simp_all

/-- A byte is at most 1 when it is one of the two. -/
theorem byte_le_one (b : Byte) : b.toNat ≤ 1 ↔ b = 0 ∨ b = 1 := by
  bv_omega

theorem reference_any_members (r : Request) :
    r.reference.any r.members.has = true ↔
      ∃ l : LaneId, (r.parameter &&& 0x0F).toNat = l.val ∧ r.defMembers.getLsbD l.val = true := by
  simp only [Option.any_eq_true, Request.reference, laneOf_eq_some, Request.members, LaneMask.has_setWidth]

/-- The request fields of a well-formed DEFINE VOLUME (R11, check 2). -/
def DefineWellFormed (r : Request) : Prop :=
  r.target.toNat < 8 ∧ r.defMembers.toNat ≤ 15 ∧ 2 ≤ (allLanes.filter fun l => r.defMembers.getLsbD l.val).length
    ∧ (∃ l : LaneId, (r.parameter &&& 0x0F).toNat = l.val ∧ r.defMembers.getLsbD l.val = true)
    ∧ ((r.parameter >>> 4) = 0 ∨ (r.parameter >>> 4) = 1) ∧ (r.selector = 0 ∨ r.selector = 1) ∧ r.defLength ≠ 0
    ∧ r.address.toNat % 64 = 0

theorem defineMalformed_eq_false (r : Request) : defineMalformed r = false ↔ DefineWellFormed r := by
  have hm : r.members.lanes = allLanes.filter fun l => r.defMembers.getLsbD l.val :=
    List.filter_congr fun l _ => LaneMask.has_setWidth r.defMembers l
  unfold defineMalformed DefineWellFormed
  simp only [Bool.or_eq_false_iff, volOf_isNone, hm, decide_eq_false_iff_not, Bool.not_eq_false', reference_any_members,
    Request.policy, Policy.ofCode_isNone, decide_eq_true_eq, not_lt, not_le, byte_le_one, aligned64, and_assoc]
  tauto

/-! ## DEFINE and FREEZE -/

/-- A DEFINE that holds nothing is refused while the configuration is frozen, or where it is malformed. -/
theorem defineReceived_refused {p : Part} {e : EntryId} {x : Entry} (hk : p.Kept) (hn : p.holdsNothing (.request e)) :
    (p.frozen = true → defineReceived e x.req (p.taken e { x with state := .received }) =
      (p.taken e x).finished e x .refusedFrozen 0 0 0)
    ∧ (p.frozen = false → ¬ DefineWellFormed x.req → defineReceived e x.req (p.taken e { x with state := .received }) =
      (p.taken e x).finished e x .refusedFormat 0 0 0) := by
  refine ⟨fun hf => ?_, fun hf hw => ?_⟩
  · rw [← refuse_taken x hk hn]
    exact if_pos hf
  · have hb : defineMalformed x.req = true := by
      rw [← defineMalformed_eq_false] at hw
      simpa using hw
    rw [← refuse_taken x hk hn]
    exact (if_neg (Bool.not_eq_true _ ▸ hf)).trans (if_pos hb)

/-- A well-formed DEFINE stays in RECEIVED. -/
theorem defineReceived_stays {p : Part} {e : EntryId} {r : Request} (hf : p.frozen = false) (hw : DefineWellFormed r) :
    defineReceived e r p = p := by
  unfold defineReceived
  rw [if_neg (by simp [hf]), if_neg (by simp [(defineMalformed_eq_false r).2 hw])]

/-- FREEZE of a request that holds nothing. -/
theorem freezeReceived_taken {p : Part} {e : EntryId} (x : Entry) (hk : p.Kept) (hn : p.holdsNothing (.request e)) :
    freezeReceived e (p.taken e { x with state := .received }) =
      { (p.taken e x).finished e x .ok 0 0 0 with frozen := true } := by
  have hk' : ({ p.taken e { x with state := .received } with frozen := true } : Part).Kept := keep_same hk
  unfold freezeReceived
  rw [finish_idle hk' hn (Part.taken_entry p e { x with state := .received }), ← Part.taken_finished p e x .received]
  rfl

/-- The answer to a row of a request that is finished as soon as it is received. -/
theorem act_taken_finished {s : State} {e : EntryId} {x : Entry} (ha : s.part.agenda = []) {f : Part → Part} {o : ReqOutcome}
    (hf : f s.part = (s.part.taken e x).finished e x o 0 0 0) :
    s.act f = .next (s.withPart ((s.part.taken e x).finished e x o 0 0 0)) := by
  have hr : ((s.part.taken e x).finished e x o 0 0 0).atRest :=
    Part.atRest_finished (p := s.part.taken e x) ha e x o 0 0 0
  rw [State.act_of_rest (hf ▸ hr), hf]

/-- Settles O43. -/
theorem defineIsReceivedAndFreezeFinishes : Obligations.DefineIsReceivedAndFreezeFinishes := by
  intro e x s ha ht hk hn hg p r refused wellFormed
  refine ⟨fun hkind => ?_, fun hkind => ?_⟩
  · have hgo : requestTaken (·.kind = kindDefine) defineReceived .done s.part =
        defineReceived e x.req (s.part.taken e { x with state := .received }) :=
      requestTaken_done ht hg (by simpa using hkind) _
    have hrefused := defineReceived_refused (x := x) hk hn
    refine ⟨fun hf => ?_, fun hf hw => ?_, fun hf hw => ?_⟩
    · exact act_taken_finished ha (hgo.trans (hrefused.1 hf))
    · exact act_taken_finished ha (hgo.trans (hrefused.2 hf hw))
    · have hstays := hgo.trans (defineReceived_stays hf hw)
      have hr : (s.part.taken e { x with state := .received }).atRest := Part.atRest_of_entry ha (Part.taken_entry ..)
      exact (State.act_of_rest (hstays ▸ hr)).trans (by rw [hstays])
  · have hgo : requestTaken (·.kind = kindFreeze) (fun e _ => freezeReceived e) .done s.part =
        { (s.part.taken e x).finished e x .ok 0 0 0 with frozen := true } :=
      (requestTaken_done ht hg (by simpa using hkind) _).trans (freezeReceived_taken x hk hn)
    have hr : ({ (s.part.taken e x).finished e x .ok 0 0 0 with frozen := true } : Part).atRest :=
      Part.atRest_of_entry ha (Part.finished_entry (s.part.taken e x) e x .ok 0 0 0)
    exact (State.act_of_rest (hgo ▸ hr)).trans (by rw [hgo])

/-! ## DELETE VOLUME -/

/-- The cases in which R17 finds a volume busy for the request of entry `e`. -/
def BusyVolume (p : Part) (e : EntryId) (v : VolId) : Prop :=
  (∃ z ∈ p.entries, z.1 ≠ e ∧ z.2.req.kind ∈ [kindRead, kindWrite, kindVerify, kindDefine, kindDelete]
      ∧ z.2.req.target.toNat = v.val)
    ∨ (p.vol v).state = .filling
    ∨ (p.patrol.state ≠ .idle ∧ p.patrol.state ≠ .done ∧ ∃ sp ∈ (p.patrol.plan.map (·.spans)).getD [], sp.volume = v)
    ∨ p.patrol.marker = true
    ∨ (p.rebuild.state ≠ .idle ∧ p.rebuild.target.any (p.vol v).members.has = true)
    ∨ p.repair.work.any (fun w => w.volume = v) = true

theorem volumeBusy_iff (p : Part) (e : EntryId) (v : VolId) : p.volumeBusy e v = true ↔ BusyVolume p e v := by
  unfold Part.volumeBusy BusyVolume
  simp [Request.namesVolume, Patrol.active, or_assoc, and_assoc]

/-- The other entries are those from before the slot was taken. -/
theorem busyVolume_taken (p : Part) (e : EntryId) (x : Entry) (v : VolId) : BusyVolume (p.taken e x) e v ↔ BusyVolume p e v := by
  have hz : ∀ z : EntryId × Entry, z.1 ≠ e → (z ∈ (p.taken e x).entries ↔ z ∈ p.entries) := fun z hz => by
    rw [← Prod.mk.eta (p := z), Part.mem_entries, Part.mem_entries, Part.taken_entry_other p x hz]
  refine or_congr ⟨?_, ?_⟩ Iff.rfl
  · rintro ⟨z, h, hne, hr⟩
    exact ⟨z, (hz z hne).1 h, hne, hr⟩
  · rintro ⟨z, h, hne, hr⟩
    exact ⟨z, (hz z hne).2 h, hne, hr⟩

theorem prunePlan_eq (v : VolId) (plan : Option Plan) :
    prunePlan v plan = plan.bind fun pl =>
      if pl.spans.filter (fun sp => sp.volume ≠ v) = [] then none
      else some { pl with spans := pl.spans.filter fun sp => sp.volume ≠ v } := by
  unfold prunePlan
  congr 1
  funext pl
  cases pl.spans.filter (fun sp => decide (sp.volume ≠ v)) with
  | nil => rfl
  | cons sp ss => rfl

/-- Nothing follows where no entry is removed. -/
theorem removeEntries_none {gone : DiscEntry → Bool} {p : Part} (h : ∀ y ∈ p.repair.list, gone y = false) :
    removeEntries gone p = p := by
  unfold removeEntries
  rw [if_neg]
  simpa using h

/-- Entries are removed with no room waiter: the list has room, the episode is over, and patrol tests again (R127). -/
theorem removeEntries_some {gone : DiscEntry → Bool} {p : Part} (h : ∃ y ∈ p.repair.list, gone y = true)
    (hw : p.repair.waiter = []) (hl : p.repair.list.length ≤ 32) :
    removeEntries gone p = ({ p with repair := { p.repair with
      list := p.repair.list.filter fun y => !gone y
      episode := false } } : Part).push [.patrolTry] := by
  have hlt : (p.repair.list.filter fun y => !gone y).length < Config.listSize := by
    obtain ⟨y, hy, hg⟩ := h
    refine lt_of_lt_of_le (List.length_filter_lt_length_iff_exists.2 ⟨y, hy, by simp [hg]⟩) hl
  unfold removeEntries
  rw [if_pos (by simpa using h)]
  unfold afterRemoval
  simp only [hw, serveWaiter, hlt, if_true, List.isEmpty_nil, Bool.not_true, Bool.false_eq_true, if_false]

/-- Patrol begins nothing with a chunk in flight, or when it is neither RUNNING nor WAITING and no recovery pass stands. -/
theorem patrolTry_rest {p : Part} (h : p.patrol.chunk ≠ none
    ∨ (p.patrol.marker = false ∧ p.patrol.state ≠ .running ∧ p.patrol.state ≠ .waiting)) : patrolTry p = p := by
  unfold patrolTry
  rcases h with h | ⟨h1, h2, h3⟩
  · simp [Option.isSome_iff_ne_none.2 h]
  · simp [h1, h2, h3]

/-- The part with a volume deleted: its spans are out of the plan, its entry is clear, and the request waits for a commit. -/
def Part.deleted (p : Part) (e : EntryId) (x : Entry) (v : VolId) : Part :=
  { p.taken e (x.await .ok 0 0 0) with
    volumes := p.volumes.set v.val .clear
    patrol := { p.patrol with plan := prunePlan v p.patrol.plan }
    committer := { p.committer with requested := true } }

/-- DELETE VOLUME's checks, each refusal with an empty mask and zero details. -/
theorem deleteReceived_refused {p : Part} {e : EntryId} {x : Entry} (hk : p.Kept) (hn : p.holdsNothing (.request e)) :
    let received := p.taken e { x with state := .received }
    let refused (o : ReqOutcome) : Part := (p.taken e x).finished e x o 0 0 0
    (p.frozen = true → deleteReceived e x.req received = refused .refusedFrozen)
    ∧ (p.frozen = false → 8 ≤ x.req.target.toNat ∨ (p.vol x.req.volume).inUse = false →
      deleteReceived e x.req received = refused .refusedVolume)
    ∧ (p.frozen = false → x.req.target.toNat < 8 → (p.vol x.req.volume).inUse = true → BusyVolume p e x.req.volume →
      deleteReceived e x.req received = refused .refusedBusy) := by
  intro received refused
  have hrefuse : ∀ o, refuse e o received = refused o := refuse_taken x hk hn
  refine ⟨fun hf => ?_, fun hf hv => ?_, fun hf ht hu hb => ?_⟩
  · rw [← hrefuse]
    exact if_pos hf
  · rw [← hrefuse]
    refine (if_neg (Bool.not_eq_true _ ▸ hf)).trans ?_
    by_cases h : x.req.target.toNat < 8
    · have hv' := hv.resolve_left (by omega)
      simp only [Request.volume, volOf_of_lt h, Option.getD_some] at hv' ⊢
      exact if_pos (by simpa [received] using hv')
    · rw [show volOf x.req.target = none from dif_neg h]
  · rw [← hrefuse]
    refine (if_neg (Bool.not_eq_true _ ▸ hf)).trans ?_
    rw [← busyVolume_taken p e { x with state := .received }, ← volumeBusy_iff] at hb
    simp only [Request.volume, volOf_of_lt ht, Option.getD_some] at hu hb ⊢
    exact (if_neg (by simpa [received] using hu)).trans (if_pos hb)

/-- DELETE VOLUME's checks pass, and its effect is taken. -/
theorem deleteReceived_passes {p : Part} {e : EntryId} {x : Entry} (hf : p.frozen = false) (ht : x.req.target.toNat < 8)
    (hu : (p.vol x.req.volume).inUse = true) (hb : ¬ BusyVolume p e x.req.volume) (y : Entry) :
    deleteReceived e x.req (p.taken e y) =
      awaitCommit e 0 (((removeEntries (fun z => z.volume = x.req.volume) (p.taken e y)).modPatrol
        fun q => { q with plan := prunePlan x.req.volume q.plan }).setVol x.req.volume .clear) := by
  rw [← busyVolume_taken p e y, ← volumeBusy_iff] at hb
  refine (if_neg (Bool.not_eq_true _ ▸ hf)).trans ?_
  simp only [Request.volume, volOf_of_lt ht, Option.getD_some] at hu hb ⊢
  exact (if_neg (by simpa using hu)).trans (if_neg hb)

/-- The effect with no entry of the volume in the discrepancy list. -/
theorem delete_effect_noEntries {p : Part} {e : EntryId} {x : Entry} {v : VolId} (hc : p.committing)
    (h : ∀ y ∈ p.repair.list, y.volume ≠ v) :
    awaitCommit e 0 (((removeEntries (fun z => z.volume = v) (p.taken e { x with state := .received })).modPatrol
      fun q => { q with plan := prunePlan v q.plan }).setVol v .clear) = p.deleted e x v := by
  rw [removeEntries_none (by simpa [Part.taken] using h), awaitCommit_committing (x := { x with state := .received })]
  · simp [Part.deleted, Part.taken, Part.setVol, Part.modPatrol, Entry.await]
  · simp
  · exact hc

/-- The effect with entries of the volume removed, and patrol's test handed on. -/
theorem delete_effect_entries {p : Part} {e : EntryId} {x : Entry} {v : VolId} (hc : p.committing)
    (h : ∃ y ∈ p.repair.list, y.volume = v) (hw : p.repair.waiter = []) (hl : p.repair.list.length ≤ 32) :
    awaitCommit e 0 (((removeEntries (fun z => z.volume = v) (p.taken e { x with state := .received })).modPatrol
      fun q => { q with plan := prunePlan v q.plan }).setVol v .clear) =
      ({ p.deleted e x v with repair := { p.repair with
        list := p.repair.list.filter fun y => y.volume ≠ v
        episode := false } } : Part).push [.patrolTry] := by
  rw [removeEntries_some (p := p.taken e { x with state := .received }) (by simpa [Part.taken] using h) hw hl,
    awaitCommit_committing (x := { x with state := .received })]
  · simp [Part.deleted, Part.taken, Part.setVol, Part.modPatrol, Part.push, Entry.await]
  · exact Part.taken_entry ..
  · exact hc

/-- Settles O44. -/
theorem deleteClearsTheVolume : Obligations.DeleteClearsTheVolume := by
  intro e x s ha ht hk hn hg hkind p v busy kept refused
  have hgo : requestTaken (·.kind = kindDelete) deleteReceived .done s.part =
      deleteReceived e x.req (s.part.taken e { x with state := .received }) :=
    requestTaken_done ht hg (by simpa using hkind) _
  obtain ⟨hfrozen, hvolume, hbusy⟩ := deleteReceived_refused (x := x) hk hn
  refine ⟨fun hf => ?_, fun hf hv => ?_, fun hf htar hu hb => ?_, fun hf htar hu hb hc => ?_⟩
  · exact act_taken_finished ha (hgo.trans (hfrozen hf))
  · exact act_taken_finished ha (hgo.trans (hvolume hf hv))
  · exact act_taken_finished ha (hgo.trans (hbusy hf htar hu hb))
  · intro deleted
    have hpass := hgo.trans (deleteReceived_passes hf htar hu hb _)
    have hdeleted : deleted = s.part.deleted e x v := by
      simp only [Part.deleted, prunePlan_eq]
      rfl
    have hentry : (s.part.deleted e x v).entry e = some (x.await .ok 0 0 0) := Part.taken_entry ..
    rw [hdeleted]
    refine ⟨fun hl => ?_, fun hl hw hlen hpat => ?_⟩
    · have hq := hpass.trans (delete_effect_noEntries (x := x) hc hl)
      exact (State.act_of_rest (hq ▸ Part.atRest_of_entry ha hentry)).trans (by rw [hq])
    · have hidle : BusyVolume s.part e v → False := hb
      have hmarker : s.part.patrol.marker = false := by
        simpa using fun hm => hidle (.inr (.inr (.inr (.inl hm))))
      refine State.act_of_push (hpass.trans (delete_effect_entries (x := x) hc hl hw hlen)) ha (patrolTry_rest ?_)
        (Part.atRest_of_entry ha hentry)
      exact hpat.imp_right fun h => ⟨hmarker, h⟩

end Sys2Proof.Machine
end

section
/-!
The agreement rule, derived states and the acting reference (R4, R6 to R8), and the judgement of a VERIFY (R107 to R109).
-/
namespace Sys2Proof.Machine

/-! ## Lane masks and the lanes in ascending order -/

theorem LaneMask.has_add (m : LaneMask) (k l : LaneId) : (m.add k).has l = (m.has l || decide (l = k)) := by
  unfold LaneMask.has LaneMask.add
  rw [BitVec.getLsbD_or, BitVec.getLsbD_ofNat, Nat.testBit_two_pow]
  simp [Fin.ext_iff, eq_comm]

theorem LaneMask.has_foldl_add (ls : List LaneId) (m : LaneMask) (l : LaneId) :
    (ls.foldl LaneMask.add m).has l = (m.has l || decide (l ∈ ls)) := by
  induction ls generalizing m with
  | nil => simp
  | cons k ks ih =>
    rw [List.foldl_cons, ih, LaneMask.has_add]
    simp [Bool.or_assoc]

theorem LaneMask.has_ofList (ls : List LaneId) (l : LaneId) : (LaneMask.ofList ls).has l = decide (l ∈ ls) := by
  rw [LaneMask.ofList, LaneMask.has_foldl_add]
  simp [LaneMask.has]

theorem mem_allLanes (l : LaneId) : l ∈ allLanes := by
  revert l
  decide

@[simp] theorem LaneMask.mem_lanes {m : LaneMask} {l : LaneId} : l ∈ m.lanes ↔ m.has l = true := by
  simp [LaneMask.lanes, mem_allLanes]

/-- The first lane with a property is the lowest-numbered one. -/
theorem find?_allLanes {f : LaneId → Bool} {l : LaneId} (h : f l = true) (hl : ∀ k, k < l → f k = false) :
    allLanes.find? f = some l := by
  match l with
  | 0 => simp [allLanes, h]
  | 1 => simp [allLanes, h, hl 0 (by decide)]
  | 2 => simp [allLanes, h, hl 0 (by decide), hl 1 (by decide)]
  | 3 => simp [allLanes, h, hl 0 (by decide), hl 1 (by decide), hl 2 (by decide)]

theorem findSome?_allLanes {α : Type} {f : LaneId → Option α} {l : LaneId} {x : α} (h : f l = some x)
    (hl : ∀ k, k < l → f k = none) : allLanes.findSome? f = some x := by
  match l with
  | 0 => simp [allLanes, h]
  | 1 => simp [allLanes, h, hl 0 (by decide)]
  | 2 => simp [allLanes, h, hl 0 (by decide), hl 1 (by decide)]
  | 3 => simp [allLanes, h, hl 0 (by decide), hl 1 (by decide), hl 2 (by decide)]

/-! ## Derived states and the acting reference (R4, R6) -/

theorem Part.mem_onlineMembers {p : Part} {v : VolId} {l : LaneId} :
    l ∈ p.onlineMembers v ↔ (p.vol v).members.has l = true ∧ (p.lane l).runtime = .online := by
  simp [Part.onlineMembers, Part.online]

theorem Part.onlineMembers_eq_nil {p : Part} {v : VolId} :
    p.onlineMembers v = [] ↔ ∀ l, ¬ ((p.vol v).members.has l = true ∧ (p.lane l).runtime = .online) := by
  simp only [List.eq_nil_iff_forall_not_mem, Part.mem_onlineMembers]

theorem Part.onlineMembers_length {p : Part} {v : VolId} :
    (p.onlineMembers v).length = (p.vol v).members.lanes.length ↔
      ∀ l, (p.vol v).members.has l = true → (p.lane l).runtime = .online := by
  simp [Part.onlineMembers, List.length_filter_eq_length_iff, Part.online]

theorem Part.derivedState_lost {p : Part} {v : VolId} (h : p.onlineMembers v = []) : p.derivedState v = .lost := by
  simp [Part.derivedState, h]

theorem Part.derivedState_active {p : Part} {v : VolId} (h : p.onlineMembers v ≠ [])
    (ha : ∀ l, (p.vol v).members.has l = true → (p.lane l).runtime = .online) : p.derivedState v = .active := by
  simp [Part.derivedState, h, Part.onlineMembers_length.2 ha]

theorem Part.derivedState_degraded {p : Part} {v : VolId} (h : p.onlineMembers v ≠ [])
    (ha : ¬ ∀ l, (p.vol v).members.has l = true → (p.lane l).runtime = .online) : p.derivedState v = .degraded := by
  simp [Part.derivedState, h, Part.onlineMembers_length.not.2 ha]

theorem Part.actingReference_of_online {p : Part} {v : VolId} (h : (p.lane (p.vol v).reference).runtime = .online) :
    p.actingReference v = some (p.vol v).reference := by
  simp [Part.actingReference, Part.online, h]

theorem Part.actingReference_lowest {p : Part} {v : VolId} (h : (p.lane (p.vol v).reference).runtime ≠ .online) :
    p.actingReference v = (p.onlineMembers v).head? := by
  simp [Part.actingReference, Part.online, h]

theorem Part.onlineMembers_head {p : Part} {v : VolId} {l : LaneId}
    (h : (p.vol v).members.has l = true ∧ (p.lane l).runtime = .online)
    (hl : ∀ k, k < l → ¬ ((p.vol v).members.has k = true ∧ (p.lane k).runtime = .online)) :
    (p.onlineMembers v).head? = some l := by
  unfold Part.onlineMembers LaneMask.lanes
  rw [List.filter_filter, List.head?_filter]
  refine find?_allLanes (by simp [Part.online, h]) fun k hk => ?_
  have := hl k hk
  rw [Bool.and_eq_false_iff]
  by_cases hm : (p.vol v).members.has k = true
  · left
    simpa [Part.online] using fun hr => this ⟨hm, hr⟩
  · right
    simpa using hm

/-- The derived state of a volume and its acting reference, by its ONLINE members. -/
theorem derivedState_actingReference (p : Part) (v : VolId) :
    let members := (p.vol v).members
    let online (l : LaneId) : Prop := members.has l = true ∧ (p.lane l).runtime = .online
    ((∀ l, ¬ online l) → p.derivedState v = .lost ∧ ((p.vol v).reference ∈ members.lanes → p.actingReference v = none))
    ∧ ((∃ l, online l) → (∀ l, members.has l = true → online l) → p.derivedState v = .active)
    ∧ ((∃ l, online l) → (∃ l, members.has l = true ∧ ¬ online l) → p.derivedState v = .degraded)
    ∧ (online (p.vol v).reference → p.actingReference v = some (p.vol v).reference)
    ∧ ∀ l, (p.lane (p.vol v).reference).runtime ≠ .online → online l → (∀ k, k < l → ¬ online k) →
      p.actingReference v = some l := by
  intro members online
  have hne : (∃ l, online l) → p.onlineMembers v ≠ [] := fun ⟨l, h⟩ hn => Part.onlineMembers_eq_nil.1 hn l h
  refine ⟨fun h => ?_, fun h ha => ?_, fun h hd => ?_, fun h => ?_, fun l hr h hl => ?_⟩
  · have hn := Part.onlineMembers_eq_nil.2 h
    refine ⟨Part.derivedState_lost hn, fun hm => ?_⟩
    rw [Part.actingReference_lowest fun ho => h _ ⟨LaneMask.mem_lanes.1 hm, ho⟩, hn]
    rfl
  · exact Part.derivedState_active (hne h) fun l hl => (ha l hl).2
  · obtain ⟨l, hl, hno⟩ := hd
    exact Part.derivedState_degraded (hne h) fun ha => hno ⟨hl, ha l hl⟩
  · exact Part.actingReference_of_online h.2
  · rw [Part.actingReference_lowest hr, Part.onlineMembers_head h hl]

/-! ## Groups of equal copies (R7, steps 2 and 3) -/

theorem sameBlock_iff {a b : Block} : sameBlock a b = true ↔ trimBlock (a.take 4096) = trimBlock (b.take 4096) := by
  simp [sameBlock]

/-- The lane that names the group of a copy among the reads of a block. -/
def groupOf (rs : List Read) (r : Read) : LaneId :=
  ((rs.find? fun x => x.status.readable && sameBlock x.content r.content).map (·.lane)).getD r.lane

/-- The copy a read makes. -/
def copyIn (rs : List Read) (r : Read) : Copy := ⟨r.lane, r.status.readable, r.status = .corrected, groupOf rs r⟩

theorem copiesOf_eq (rs : List Read) : copiesOf rs = rs.map (copyIn rs) := rfl

/-- The readable reads, and those of them with the content of `x`. -/
def readableReads (rs : List Read) : List Read := rs.filter (·.status.readable)

def sameReads (rs : List Read) (x : Read) : List Read := (readableReads rs).filter fun y => sameBlock y.content x.content

theorem mem_readableReads {rs : List Read} {x : Read} : x ∈ readableReads rs ↔ x ∈ rs ∧ x.status.readable = true := by
  simp [readableReads]

theorem readable_copiesOf (rs : List Read) : readable (copiesOf rs) = (readableReads rs).map (copyIn rs) := by
  rw [copiesOf_eq, readable, List.filter_map]
  rfl

section
variable {rs : List Read} (hd : (rs.map (·.lane)).Pairwise (· < ·))
include hd

/-- Each lane has one read. -/
theorem read_eq_of_lane {x y : Read} (hx : x ∈ rs) (hy : y ∈ rs) (h : x.lane = y.lane) : x = y :=
  List.inj_on_of_nodup_map (hd.imp ne_of_lt) hx hy h

/-- Two readable copies are in one group where their contents are equal. -/
theorem groupOf_eq_iff {x y : Read} (hx : x ∈ readableReads rs) (hy : y ∈ readableReads rs) :
    groupOf rs y = groupOf rs x ↔ sameBlock y.content x.content = true := by
  rw [mem_readableReads] at hx hy
  constructor
  · intro h
    obtain ⟨a, ha⟩ := Option.isSome_iff_exists.1 (List.find?_isSome.2
      ⟨x, hx.1, by simp [hx.2, sameBlock]⟩ : (rs.find? fun z => z.status.readable && sameBlock z.content x.content).isSome)
    obtain ⟨b, hb⟩ := Option.isSome_iff_exists.1 (List.find?_isSome.2
      ⟨y, hy.1, by simp [hy.2, sameBlock]⟩ : (rs.find? fun z => z.status.readable && sameBlock z.content y.content).isSome)
    have hab : b.lane = a.lane := by simpa [groupOf, ha, hb] using h
    have := read_eq_of_lane hd (List.mem_of_find?_eq_some hb) (List.mem_of_find?_eq_some ha) hab
    subst this
    have h1 := List.find?_some ha
    have h2 := List.find?_some hb
    simp only [Bool.and_eq_true, sameBlock_iff] at h1 h2 ⊢
    exact h2.2.symm.trans h1.2
  · intro h
    have hp : (fun z : Read => z.status.readable && sameBlock z.content y.content)
        = fun z => z.status.readable && sameBlock z.content x.content := by
      funext z
      simp only [sameBlock, sameBlock_iff.1 h]
    obtain ⟨a, ha⟩ := Option.isSome_iff_exists.1 (List.find?_isSome.2
      ⟨x, hx.1, by simp [hx.2, sameBlock]⟩ : (rs.find? fun z => z.status.readable && sameBlock z.content x.content).isSome)
    simp [groupOf, hp, ha]

theorem groupSize_copiesOf {x : Read} (hx : x ∈ readableReads rs) :
    groupSize (copiesOf rs) (groupOf rs x) = (sameReads rs x).length := by
  rw [groupSize, readable_copiesOf, List.filter_map, List.length_map, sameReads]
  congr 1
  refine List.filter_congr fun y hy => ?_
  rw [Bool.eq_iff_iff, ← groupOf_eq_iff hd hx hy]
  exact decide_eq_true_iff

/-! ## The authoritative group (R7, steps 4 to 7) -/

omit hd in
/-- Two parts of a list without a common member are no longer than the list. -/
theorem filter_length_add_le {α : Type} {f g : α → Bool} {xs : List α} (h : ∀ x ∈ xs, f x = true → g x = false) :
    (xs.filter f).length + (xs.filter g).length ≤ xs.length := by
  rw [List.length_eq_countP_add_countP f (l := xs), List.countP_eq_length_filter, ← List.countP_eq_length_filter (p := g)]
  refine Nat.add_le_add_left (List.countP_mono_left fun x hx hg => ?_) _
  by_cases hf : f x = true
  · rw [h x hx hf] at hg
    exact absurd hg (by decide)
  · simpa using hf

theorem majority_some {x : Read} (hx : x ∈ readableReads rs) (h : (readableReads rs).length < 2 * (sameReads rs x).length) :
    majority (copiesOf rs) = some (groupOf rs x) := by
  have hf : ((readable (copiesOf rs)).find? fun c => (readable (copiesOf rs)).length < 2 * groupSize (copiesOf rs) c.group).isSome := by
    rw [List.find?_isSome, readable_copiesOf]
    refine ⟨copyIn rs x, List.mem_map_of_mem hx, ?_⟩
    simpa [copyIn, groupSize_copiesOf hd hx] using h
  obtain ⟨c, hc⟩ := Option.isSome_iff_exists.1 hf
  have hm := List.mem_of_find?_eq_some hc
  have hp := List.find?_some hc
  rw [readable_copiesOf, List.mem_map] at hm
  obtain ⟨y, hy, rfl⟩ := hm
  rw [majority, hc]
  have hlen : (readableReads rs).length < 2 * (sameReads rs y).length := by
    simpa [copyIn, groupSize_copiesOf hd hy, readable_copiesOf] using hp
  have hyx : sameBlock y.content x.content = true := by
    by_contra hne
    have := filter_length_add_le (f := fun z : Read => sameBlock z.content x.content)
      (g := fun z => sameBlock z.content y.content) (xs := readableReads rs) fun z _ hz => by
        rw [Bool.eq_false_iff]
        exact fun hz' => hne (sameBlock_iff.2 ((sameBlock_iff.1 hz').symm.trans (sameBlock_iff.1 hz)))
    unfold sameReads at h hlen
    omega
  simp [copyIn, (groupOf_eq_iff hd hx hy).2 hyx]

theorem majority_none (h : ∀ y ∈ readableReads rs, 2 * (sameReads rs y).length ≤ (readableReads rs).length) :
    majority (copiesOf rs) = none := by
  rw [majority, List.find?_eq_none.2, Option.map_none]
  intro c hc
  rw [readable_copiesOf, List.mem_map] at hc
  obtain ⟨y, hy, rfl⟩ := hc
  have := h y hy
  simp only [copyIn, groupSize_copiesOf hd hy, readable_copiesOf, List.length_map, decide_eq_true_eq]
  omega

/-- The copy of a lane, found by its lane. -/
theorem find?_lane {x : Read} (hx : x ∈ readableReads rs) {f : Copy → Bool} (hf : f (copyIn rs x) = true)
    (hl : ∀ c, f c = true → c.lane = x.lane) : (readable (copiesOf rs)).find? f = some (copyIn rs x) := by
  obtain ⟨c, hc⟩ := Option.isSome_iff_exists.1 (List.find?_isSome.2
    ⟨copyIn rs x, by rw [readable_copiesOf]; exact List.mem_map_of_mem hx, hf⟩ : ((readable (copiesOf rs)).find? f).isSome)
  have hm := List.mem_of_find?_eq_some hc
  rw [readable_copiesOf, List.mem_map] at hm
  obtain ⟨y, hy, rfl⟩ := hm
  have hxy : y.lane = x.lane := hl _ (List.find?_some (p := f) hc)
  rw [hc, read_eq_of_lane hd (mem_readableReads.1 hy).1 (mem_readableReads.1 hx).1 hxy]

theorem referenceGroup_some {x : Read} (hx : x ∈ readableReads rs) :
    referenceGroup (some x.lane) (copiesOf rs) = some (groupOf rs x) := by
  rw [referenceGroup, find?_lane hd hx]
  · rfl
  · simp [copyIn]
  · simp

omit hd in
theorem referenceGroup_none {acting : Option LaneId} (h : ∀ y ∈ readableReads rs, acting ≠ some y.lane) :
    referenceGroup acting (copiesOf rs) = none := by
  rw [referenceGroup, List.find?_eq_none.2, Option.map_none]
  intro c hc
  rw [readable_copiesOf, List.mem_map] at hc
  obtain ⟨y, hy, rfl⟩ := hc
  exact decide_eq_true_iff.not.2 fun hyl => h y hy hyl.symm

theorem lowestGroup_head {x : Read} (hx : (readableReads rs).head? = some x) :
    lowestGroup (copiesOf rs) = some (groupOf rs x) := by
  have hmem : x ∈ readableReads rs := List.mem_of_head? hx
  rw [lowestGroup, findSome?_allLanes (l := x.lane) (x := copyIn rs x)]
  · rfl
  · exact find?_lane hd hmem (by simp [copyIn]) (by simp)
  · intro k hk
    rw [List.find?_eq_none]
    intro c hc
    rw [readable_copiesOf, List.mem_map] at hc
    obtain ⟨y, hy, rfl⟩ := hc
    have hsorted : (readableReads rs).Pairwise fun a b => a.lane < b.lane := (List.pairwise_map.1 hd).filter _
    obtain ⟨tail, htail⟩ := List.head?_eq_some_iff.1 hx
    rw [htail, List.mem_cons] at hy
    rw [htail, List.pairwise_cons] at hsorted
    have hle : x.lane ≤ y.lane := by
      rcases hy with rfl | hy
      · exact le_rfl
      · exact (hsorted.1 y hy).le
    exact decide_eq_true_iff.not.2 (lt_of_lt_of_le hk hle).ne'

/-- The authoritative group is the majority's, else the acting reference's, else the lowest-numbered lane's. -/
theorem authoritative_some {acting : Option LaneId} {x : Read} (hx : x ∈ readableReads rs)
    (h : (readableReads rs).length < 2 * (sameReads rs x).length
      ∨ ((∀ y ∈ readableReads rs, 2 * (sameReads rs y).length ≤ (readableReads rs).length) ∧ acting = some x.lane)
      ∨ ((∀ y ∈ readableReads rs, 2 * (sameReads rs y).length ≤ (readableReads rs).length)
        ∧ (∀ y ∈ readableReads rs, acting ≠ some y.lane) ∧ (readableReads rs).head? = some x)) :
    authoritative acting (copiesOf rs) = some (groupOf rs x) := by
  unfold authoritative
  rcases h with h | ⟨h, rfl⟩ | ⟨h, ha, hh⟩
  · rw [majority_some hd hx h, Option.some_or]
  · rw [majority_none hd h, Option.none_or, referenceGroup_some hd hx, Option.some_or]
  · rw [majority_none hd h, Option.none_or, referenceGroup_none ha, Option.none_or, lowestGroup_head hd hh]

omit hd in
theorem authoritative_none {acting : Option LaneId} (h : readableReads rs = []) :
    authoritative acting (copiesOf rs) = none := by
  have hr : readable (copiesOf rs) = [] := by rw [readable_copiesOf, h, List.map_nil]
  have hl : lowestGroup (copiesOf rs) = none := by
    rw [lowestGroup, hr]
    rfl
  simp [authoritative, majority, referenceGroup, hr, hl]

/-! ## The results (R8) -/

/-- The read is of the authoritative group `g`. -/
def inAuthority (rs : List Read) (g : Option LaneId) (y : Read) : Bool := y.status.readable && decide (some (groupOf rs y) = g)

omit hd in
theorem agree_authority (acting : Option LaneId) : (agree acting (copiesOf rs)).authority =
    LaneMask.ofList ((rs.filter (inAuthority rs (authoritative acting (copiesOf rs)))).map (·.lane)) := by
  simp only [agree, copiesOf_eq, List.filter_map, List.map_map]
  rfl

omit hd in
theorem agree_outvoted (acting : Option LaneId) : (agree acting (copiesOf rs)).outvoted =
    LaneMask.ofList ((rs.filter fun y => !inAuthority rs (authoritative acting (copiesOf rs)) y).map (·.lane)) := by
  simp only [agree, copiesOf_eq, List.filter_map, List.map_map]
  rfl

/-- A mask made of the reads with a property names exactly their lanes. -/
theorem has_lanes_filter (f : Read → Bool) {y : Read} (hy : y ∈ rs) :
    (LaneMask.ofList ((rs.filter f).map (·.lane))).has y.lane = f y := by
  rw [LaneMask.has_ofList, Bool.eq_iff_iff, decide_eq_true_eq, List.mem_map]
  constructor
  · rintro ⟨z, hz, hzy⟩
    rw [List.mem_filter] at hz
    rw [← read_eq_of_lane hd hz.1 hy hzy]
    exact hz.2
  · exact fun h => ⟨y, List.mem_filter.2 ⟨hy, h⟩, rfl⟩

theorem agree_authority_has (acting : Option LaneId) {y : Read} (hy : y ∈ rs) :
    (agree acting (copiesOf rs)).authority.has y.lane = inAuthority rs (authoritative acting (copiesOf rs)) y := by
  rw [agree_authority, has_lanes_filter hd _ hy]

theorem agree_weak_has (acting : Option LaneId) {y : Read} (hy : y ∈ rs) :
    (agree acting (copiesOf rs)).weak.has y.lane = decide (y.status = .corrected) := by
  have hw : (agree acting (copiesOf rs)).weak =
      LaneMask.ofList ((rs.filter fun y => y.status.readable && decide (y.status = .corrected)).map (·.lane)) := by
    simp only [agree, copiesOf_eq, List.filter_map, List.map_map]
    rfl
  rw [hw, has_lanes_filter hd _ hy]
  cases y.status <;> rfl

omit hd in
/-- With no readable copy the block is unrecoverable, and every lane is outvoted. -/
theorem agree_unrecoverable (acting : Option LaneId) (h : readableReads rs = []) :
    (agree acting (copiesOf rs)).unrecoverable = true ∧ (agree acting (copiesOf rs)).authority = 0
      ∧ (agree acting (copiesOf rs)).outvoted = LaneMask.ofList (rs.map (·.lane)) := by
  have hno : ∀ y ∈ rs, inAuthority rs none y = false := by simp [inAuthority]
  refine ⟨by simp [agree, authoritative_none h], ?_, ?_⟩
  · rw [agree_authority, authoritative_none h, List.filter_eq_nil_iff.2 fun y hy => by simp [hno y hy]]
    rfl
  · rw [agree_outvoted, authoritative_none h, List.filter_eq_self.2 fun y hy => by simp [hno y hy]]

/-- The reads of the authoritative group are those with the content of one of them. -/
theorem filter_inAuthority {x : Read} (hx : x ∈ readableReads rs) :
    rs.filter (inAuthority rs (some (groupOf rs x))) = sameReads rs x := by
  unfold sameReads readableReads
  rw [List.filter_filter]
  refine List.filter_congr fun y hy => ?_
  unfold inAuthority
  rw [Bool.and_comm]
  by_cases hr : y.status.readable = true
  · rw [hr, Bool.and_true, Bool.and_true, Bool.eq_iff_iff, decide_eq_true_eq, Option.some_inj]
    exact groupOf_eq_iff hd hx (mem_readableReads.2 ⟨hy, hr⟩)
  · simp [hr]

/-- The results of the rule where `x` is of the authoritative group. -/
theorem agree_of_authoritative {acting : Option LaneId} {x : Read} (hx : x ∈ readableReads rs)
    (h : authoritative acting (copiesOf rs) = some (groupOf rs x)) :
    let v := agree acting (copiesOf rs)
    v.unrecoverable = false ∧ v.authority = LaneMask.ofList ((sameReads rs x).map (·.lane))
      ∧ (∀ y ∈ rs, v.outvoted.has y.lane = !(sameReads rs x).contains y)
      ∧ ∀ y ∈ rs, v.weak.has y.lane = decide (y.status = .corrected) := by
  intro v
  refine ⟨by simp [v, agree, h], ?_, fun y hy => ?_, fun y hy => agree_weak_has hd acting hy⟩
  · rw [agree_authority, h, filter_inAuthority hd hx]
  · rw [agree_outvoted, h, has_lanes_filter hd _ hy, ← filter_inAuthority hd hx]
    congr 1
    rw [Bool.eq_iff_iff, List.contains_iff_mem, List.mem_filter]
    simp [hy]

/-! ## The discoveries of judged blocks (R108) -/

theorem discoveryKind_agree (acting : Option LaneId) {x : Read} (hx : x ∈ rs) :
    let verdict := agree acting (copiesOf rs)
    discoveryKind verdict (copyIn rs x) =
      if x.status.readable = false then some .unreadable
      else if verdict.authority.has x.lane = false then some .mismatch
      else if x.status = .corrected then some .weak
      else none := by
  intro verdict
  rw [agree_authority_has hd acting hx]
  by_cases hr : x.status.readable = true
  · simp [discoveryKind, copyIn, inAuthority, hr, verdict, agree]
  · simp [discoveryKind, copyIn, hr]

end

/-- The discoveries of one judged block, lane by lane. -/
theorem judgedDiscoveries_single (v : VolId) (first : Nat) (o : Origin) (tag : Word) (i : Nat) (acting : Option LaneId)
    {rs : List Read} (hd : (rs.map (·.lane)).Pairwise (· < ·)) :
    let verdict := agree acting (copiesOf rs)
    (verdict.unrecoverable = true → judgedDiscoveries v first o tag [(i, copiesOf rs, verdict)] = [])
    ∧ (verdict.unrecoverable = false → judgedDiscoveries v first o tag [(i, copiesOf rs, verdict)] =
      rs.filterMap fun x =>
        let found (k : DiscKind) : Option Discovery := some ⟨x.lane, v, first + i, k, o, tag⟩
        if x.status.readable = false then found .unreadable
        else if verdict.authority.has x.lane = false then found .mismatch
        else if x.status = .corrected then found .weak
        else none) := by
  intro verdict
  refine ⟨fun h => by simp [judgedDiscoveries, h], fun h => ?_⟩
  have hk : ∀ x ∈ rs, discoveryKind verdict (copyIn rs x) = _ := fun x hx => discoveryKind_agree hd acting hx
  simp only [judgedDiscoveries, List.flatMap_cons, List.flatMap_nil, List.append_nil, h, Bool.false_eq_true, if_false]
  rw [copiesOf_eq, List.filterMap_map]
  refine List.filterMap_congr fun x hx => ?_
  simp only [Function.comp, hk x hx]
  split_ifs <;> rfl

/-! ## The judgement of a VERIFY (R107 to R109) -/

/-- Setting the work of an entry that is in use. -/
theorem setWork_eq {p : Part} {e : EntryId} {x : Entry} (h : p.entry e = some x) (w : Work) :
    setWork e w p = { p with table := p.table.set e.val (some { x with work := w }) } := Part.modEntry_eq h _

/-- The end of an operation goes to the work of the request that issued it. -/
theorem operationEnded_request {p : Part} {e : EntryId} {op : LaneOp} (ho : op.producer = .request e) (l : LaneId)
    (res : OpEnd) : operationEnded l op res p = requestOpEnded e l op res p := by
  simp [operationEnded, ho]

/-- A read of a VERIFY has ended: it is noted, and with the last one the blocks are judged. -/
theorem operationEnded_verify {p : Part} {e : EntryId} {x : Entry} {w : VerifyWork} {op : LaneOp}
    (ho : op.producer = .request e) (he : p.entry e = some x) (hw : x.work = .verify w) (l : LaneId) (res : OpEnd) :
    let got := match res with
      | .completed ss _ => w.got ++ [(l, ss)]
      | .laneLost => w.got
    let w' : VerifyWork := { w with outstanding := w.outstanding - 1, got := got }
    let q : Part := { p with table := p.table.set e.val (some { x with work := .verify w' }) }
    operationEnded l op res p = if w.outstanding - 1 = 0 then verifyJudge e x.req w' q else q := by
  intro got w' q
  rw [operationEnded_request ho]
  simp only [requestOpEnded, he, hw, verifyOpEnded, setWork_eq he]
  rfl

/-- The judgement with no read completed. -/
theorem verifyJudge_none {e : EntryId} {r : Request} {w : VerifyWork} {p : Part} (h : w.got = []) :
    verifyJudge e r w p = finish e (if p.isLost r.volume then .lost else .refusedLane) 0 0 0 p := by
  simp [verifyJudge, h, refuse]

/-- What the lanes read is in the buffers alone. -/
theorem Part.readsOf_congr {p q : Part} (h : q.pool = p.pool) (ho : Holder) (n i : Nat) (got : List (LaneId × List Status))
    (j : Nat) (ls : List LaneId) : q.readsOf ho n i got j ls = p.readsOf ho n i got j ls := by
  have hs : q.sharedContent = p.sharedContent := by
    unfold Part.sharedContent Part.buffer
    rw [h]
  induction ls generalizing j with
  | nil => rfl
  | cons l ls ih => simp only [Part.readsOf, ih, hs]

/-- The judgements do not see the request table. -/
theorem Part.judgements_withTable (p : Part) (t : Vector (Option Entry) 32) (ho : Holder) (v : VolId) (n : Nat)
    (lanes : List LaneId) (got : List (LaneId × List Status)) :
    ({ p with table := t } : Part).judgements ho v n lanes got = p.judgements ho v n lanes got := by
  unfold Part.judgements
  simp only [Part.readsOf_congr (p := p) (q := { p with table := t }) rfl]
  rfl

/-- The judgement with a read completed: the events, the discoveries of a REPAIR, then the release and the outcome. -/
theorem verifyJudge_some {e : EntryId} {r : Request} {w : VerifyWork} {p : Part} {js : List (Nat × List Copy × Verdict)}
    (h : w.got ≠ []) (hjs : p.judgements (.request e) r.volume r.count.toNat w.lanes w.got = js) :
    let lost := judgedLost js
    let told := passEvents (lost.map fun i => unrecoverableEvent none r.volume (r.first.toNat + i) .verify r.tag) p
    let handed := if r.flags &&& 1 = 0 then told
      else handDiscoveries (judgedDiscoveries r.volume r.first.toNat .verify r.tag js) told
    let bad := js.filter fun j => j.2.2.outvoted ≠ 0
    (bad = [] → verifyJudge e r w p = finish e .ok (LaneMask.ofList (w.got.map (·.1))) 0 0 handed)
    ∧ ∀ j rest, bad = j :: rest → verifyJudge e r w p =
      finish e .different (bad.foldl (fun m j => m ||| j.2.2.outvoted) 0)
        (BitVec.ofNat 32 (bad.length + 2 ^ 16 * lost.length)) (BitVec.ofNat 32 (r.first.toNat + j.1)) handed := by
  subst hjs
  set js := p.judgements (.request e) r.volume r.count.toNat w.lanes w.got
  intro lost told handed bad
  have hflag : (if r.flags &&& flagRepair ≠ 0 then
      handDiscoveries (judgedDiscoveries r.volume r.first.toNat .verify r.tag js) told else told) = handed := ite_not ..
  have hj : verifyJudge e r w p = match bad with
      | [] => finish e .ok (LaneMask.ofList (w.got.map (·.1))) 0 0 handed
      | x :: _ => finish e .different (bad.foldl (fun m y => m ||| y.2.2.outvoted) 0)
        (BitVec.ofNat 32 (bad.length + 2 ^ 16 * lost.length)) (BitVec.ofNat 32 (r.first.toNat + x.1)) handed := by
    rw [← hflag]
    exact if_neg (by simpa using h)
  refine ⟨fun hb => ?_, fun j rest hb => ?_⟩
  · rw [hj, hb]
  · rw [hj, hb]

/-- Settles O58. -/
theorem agreementRuleAndDerivedStates : Obligations.AgreementRuleAndDerivedStates := by
  refine ⟨fun acting rs hd => ?_, derivedState_actingReference, ?_, fun v first o tag => ⟨rfl, fun j js => ?_, ?_⟩⟩
  · exact ⟨agree_unrecoverable acting, fun x hx h => agree_of_authoritative hd hx (authoritative_some hd hx h)⟩
  · intro e x w l op res p ho he hw r v n first got q js lost told handed bad
    have hq := operationEnded_verify ho he hw l res
    refine ⟨fun h2 => ?_, fun h1 hgot => ?_, fun h1 hgot => ?_⟩
    · exact hq.trans (if_neg (by omega))
    · exact (hq.trans (if_pos (by omega))).trans (verifyJudge_none hgot)
    · rw [hq.trans (if_pos (by omega))]
      exact verifyJudge_some (e := e) (r := r) (p := q) (w := { w with outstanding := w.outstanding - 1, got := got }) hgot
        (Part.judgements_withTable ..)
  · simp [judgedDiscoveries]
  · exact fun i acting rs hd => judgedDiscoveries_single v first o tag i acting hd

end Sys2Proof.Machine
end

section
/-!
What a READ and a SNAPSHOT deliver, how they finish, and the discoveries of a READ (R95 to R101, R179).
-/
namespace Sys2Proof.Machine

/-! ## The ends of the transfers into host buffers -/

/-- The part with a holder's locks and buffers let go and nobody granted anything. -/
def Part.released (p : Part) (h : Holder) : Part :=
  { p with locks := ⟨p.locks.granted.filter (fun k => k.holder ≠ h), []⟩, pool := p.pool.without h }

theorem finish_noWaiters {p : Part} {e : EntryId} {x : Entry} (hw : p.noWaiters) (h : p.entry e = some x) (o : ReqOutcome)
    (mask : LaneMask) (a b : Word) :
    finish e o mask a b p = (p.released (.request e)).finished e x o mask a b := by
  unfold finish
  rw [releaseAll_noWaiters hw, complete_eq (x := x)]
  · rfl
  · exact h

/-- The answer to the end of a transfer with which a request finishes. -/
theorem act_finish {s : State} {e : EntryId} {x : Entry} (ha : s.part.agenda = []) (hw : s.part.noWaiters)
    (h : s.part.entry e = some x) {f : Part → Part} {o : ReqOutcome} {mask : LaneMask} {a b : Word}
    (hf : f s.part = finish e o mask a b s.part) :
    s.act f = .next (s.withPart ((s.part.released (.request e)).finished e x o mask a b)) := by
  have hq := hf.trans (finish_noWaiters hw h o mask a b)
  have hr : ((s.part.released (.request e)).finished e x o mask a b).atRest :=
    Part.atRest_finished (p := s.part.released (.request e)) ha e x o mask a b
  rw [State.act_of_rest (hq ▸ hr), hq]

theorem ReadWork.others_eq (w : ReadWork) :
    w.others = (w.blocks.filter fun b => b.source ≠ none ∧ b.source ≠ some w.firstLane).length := by
  unfold ReadWork.others
  congr 2
  funext b
  rw [Bool.decide_and]
  cases b.source <;> rfl

theorem readDelivered_eq {p : Part} {e : EntryId} {x : Entry} {w : ReadWork} (h : p.entry e = some x)
    (hs : x.state = .delivering) (hw : x.work = .read w) (d : DmaEnd) :
    readDelivered e d p = match d with
      | .fault => readFinish e .busFault w p
      | .done => readFinish e (if w.others = 0 then .ok else .recovered) w p := by
  simp only [readDelivered, h, hs, hw] <;> cases d <;> rfl

theorem snapshotDelivered_eq {p : Part} {e : EntryId} {x : Entry} (h : p.entry e = some x) (hs : x.state = .delivering)
    (hk : x.req.kind = kindSnapshot) (d : DmaEnd) :
    snapshotDelivered e d p = match d with
      | .done => finish e .ok x.laneMask 0 0 p
      | .fault => finish e .busFault 0 0 0 p := by
  simp only [snapshotDelivered, h, hs, hk, ne_eq, not_true, decide_false, Bool.or_self, Bool.false_eq_true, if_false]
  cases d <;> rfl

/-! ## The bytes delivered (R100) -/

theorem fullBlock_length (b : Block) : (fullBlock b).length = 4096 := by
  simp only [fullBlock, List.length_append, List.length_take, List.length_replicate]
  omega

/-- Pieces of one length laid end to end. -/
theorem flatten_length_of_all {α : Type} {n : Nat} {xs : List (List α)} (h : ∀ x ∈ xs, x.length = n) :
    xs.flatten.length = n * xs.length := by
  induction xs with
  | nil => rfl
  | cons x xs ih =>
    rw [List.flatten_cons, List.length_append, ih fun y hy => h y (List.mem_cons_of_mem _ hy), h x List.mem_cons_self,
      List.length_cons, Nat.mul_succ, Nat.add_comm]

theorem flatten_drop_take {α : Type} {n : Nat} {xs : List (List α)} (h : ∀ x ∈ xs, x.length = n) {i : Nat} {y : List α}
    (hy : xs[i]? = some y) : (xs.flatten.drop (n * i)).take n = y := by
  induction xs generalizing i with
  | nil => simp at hy
  | cons x xs ih =>
    have hx : x.length = n := h x List.mem_cons_self
    cases i with
    | zero =>
      obtain rfl : x = y := by simpa using hy
      simp [← hx]
    | succ i =>
      rw [List.flatten_cons, List.drop_append, List.drop_of_length_le (by rw [hx]; exact Nat.le_mul_of_pos_right n i.succ_pos),
        List.nil_append, hx, Nat.mul_succ, Nat.add_sub_cancel]
      exact ih (fun z hz => h z (List.mem_cons_of_mem _ hz)) hy

theorem delivered_blocks (p : Part) (e : EntryId) :
    (p.deliveredBytes e).length = 4096 * (p.pool.bufsOf (.request e)).length
    ∧ ∀ i b, (p.pool.bufsOf (.request e))[i]? = some b →
      ((p.deliveredBytes e).drop (4096 * i)).take 4096 = fullBlock (p.buffer b) := by
  have hlen : ∀ x ∈ (p.pool.bufsOf (.request e)).map fun b => fullBlock (p.buffer b), x.length = 4096 := by
    intro x hx
    obtain ⟨b, -, rfl⟩ := List.mem_map.1 hx
    exact fullBlock_length _
  refine ⟨?_, fun i b hb => flatten_drop_take hlen ?_⟩
  · rw [Part.deliveredBytes, flatten_length_of_all hlen, List.length_map]
  · rw [List.getElem?_map, hb, Option.map_some]

theorem hostTransfer_read {p : Part} {e : EntryId} {x : Entry} (h : p.entry e = some x) (hs : x.state = .delivering)
    (hk : x.req.kind = kindRead) : p.hostTransfer e = some (x.req.address.toNat, 4096 * x.req.count.toNat) := by
  simp [Part.hostTransfer, h, hs, hk]

/-! ## Blocks resolved and unresolved (R97, R99) -/

theorem unresolvedAt_eq (first : Nat) (bs : List BlockTry) :
    unresolvedAt first bs = (bs.zipIdx.filter fun y => y.1.source = none).map (fun y => first + y.2) := by
  suffices h : ∀ (bs : List BlockTry) (k : Nat),
      unresolvedAt (first + k) bs = ((bs.zipIdx k).filter fun y => y.1.source = none).map (fun y => first + y.2) from
    h bs 0
  intro bs
  induction bs with
  | nil => intro k; rfl
  | cons b bs ih =>
    intro k
    rw [unresolvedAt, List.zipIdx_cons, List.filter_cons, Nat.add_assoc, ih]
    cases hb : b.source <;> simp [BlockTry.unresolved, hb]

theorem tryDiscoveries_eq (v : VolId) (o : Origin) (tag : Word) (first : Nat) (bs : List BlockTry) :
    tryDiscoveries v o tag first bs = bs.zipIdx.flatMap fun y =>
      match y.1.source with
      | none => []
      | some l => y.1.failed.map (fun f => ⟨f, v, first + y.2, .unreadable, o, tag⟩)
          ++ if y.1.weak = true then [⟨l, v, first + y.2, .weak, o, tag⟩] else [] := by
  suffices h : ∀ (bs : List BlockTry) (k : Nat),
      tryDiscoveries v o tag (first + k) bs = (bs.zipIdx k).flatMap fun y =>
        match y.1.source with
        | none => []
        | some l => y.1.failed.map (fun f => ⟨f, v, first + y.2, .unreadable, o, tag⟩)
            ++ if y.1.weak = true then [⟨l, v, first + y.2, .weak, o, tag⟩] else [] from
    h bs 0
  intro bs
  induction bs with
  | nil => intro k; rfl
  | cons b bs ih =>
    intro k
    rw [tryDiscoveries, List.zipIdx_cons, List.flatMap_cons, Nat.add_assoc, ih] <;> cases b.source <;> rfl

theorem any_unresolved {bs : List BlockTry} : bs.any BlockTry.unresolved = true ↔ ∃ b ∈ bs, b.source = none := by
  simp [BlockTry.unresolved]

theorem any_unresolved_eq_false {bs : List BlockTry} : bs.any BlockTry.unresolved = false ↔ ∀ b ∈ bs, b.source ≠ none := by
  simp [BlockTry.unresolved]

theorem unresolvedAt_isEmpty (first : Nat) (bs : List BlockTry) :
    (unresolvedAt first bs).isEmpty = !bs.any BlockTry.unresolved := by
  induction bs generalizing first with
  | nil => rfl
  | cons b bs ih =>
    rw [unresolvedAt]
    cases hb : b.unresolved <;> simp [hb, ih]

/-- With every ONLINE member tried there is no next lane. -/
theorem Part.nextTry_none {p : Part} {v : VolId} {tried : List LaneId} (h : ∀ m ∈ p.onlineMembers v, m ∈ tried) :
    p.nextTry v tried = none := by
  unfold Part.nextTry
  split
  · rfl
  · rw [nextLane, List.find?_eq_none]
    intro m _ hm
    simp only [Part.onlineMember, Part.online, Bool.and_eq_true, decide_eq_true_eq, Bool.not_eq_true'] at hm
    have := h m (Part.mem_onlineMembers.2 hm.1)
    simp [this] at hm

/-! ## The end of a READ's operation -/

/-- A READ's work with the end of an operation noted (R97). -/
def ReadWork.ended (w : ReadWork) (l : LaneId) (at_ : Nat) : OpEnd → ReadWork
  | .completed ss _ =>
    { w with outstanding := w.outstanding - 1, blocks := mergeTries l at_ ss w.blocks, completed := w.completed.add l }
  | .laneLost => { w with outstanding := w.outstanding - 1 }

theorem operationEnded_read {p : Part} {e : EntryId} {x : Entry} {w : ReadWork} {op : LaneOp}
    (ho : op.producer = .request e) (he : p.entry e = some x) (hw : x.work = .read w) (l : LaneId) (res : OpEnd) :
    let w' := w.ended l (op.start - ((p.vol x.req.volume).first + x.req.first.toNat)) res
    let q : Part := { p with table := p.table.set e.val (some { x with work := .read w' }) }
    operationEnded l op res p =
      if w.outstanding - 1 ≠ 0 then q else if w.named then readNamed e x.req w' q else readRound e x.req w' q := by
  intro w' q
  rw [operationEnded_request ho]
  cases res <;> simp only [requestOpEnded, he, hw, readOpEnded, setWork_eq he] <;> rfl

theorem readRound_delivers {e : EntryId} {r : Request} {w : ReadWork} {p : Part} (h : ∀ b ∈ w.blocks, b.source ≠ none) :
    readRound e r w p =
      (handDiscoveries (readDiscoveries r w) p).modEntry e fun y => { y with state := .delivering } :=
  if_pos (by rw [any_unresolved_eq_false.2 h]; rfl)

theorem readRound_ends {e : EntryId} {r : Request} {w : ReadWork} {p : Part} (h : ∃ b ∈ w.blocks, b.source = none)
    (ht : ∀ m ∈ p.onlineMembers r.volume, m ∈ w.tried) :
    readRound e r w p = if p.isLost r.volume then finish e .lost 0 0 0 p
      else readFailed e r w (unresolvedAt r.first.toNat w.blocks) (readDiscoveries r w) p := by
  unfold readRound
  rw [if_neg (by rw [any_unresolved.2 h]; decide), Part.nextTry_none ht]
  rfl

theorem readNamed_refused {e : EntryId} {r : Request} {w : ReadWork} {p : Part} (h : w.completed = 0) :
    readNamed e r w p = finish e .refusedLane 0 0 0 p := if_pos h

theorem readNamed_delivers {e : EntryId} {r : Request} {w : ReadWork} {p : Part} (hc : w.completed ≠ 0)
    (h : ∀ b ∈ w.blocks, b.source ≠ none) :
    readNamed e r w p =
      (handDiscoveries (readDiscoveries r w) p).modEntry e fun y => { y with state := .delivering } :=
  (if_neg hc).trans (if_pos (by rw [unresolvedAt_isEmpty, any_unresolved_eq_false.2 h]; rfl))

theorem readNamed_fails {e : EntryId} {r : Request} {w : ReadWork} {p : Part} (hc : w.completed ≠ 0)
    (h : ∃ b ∈ w.blocks, b.source = none) :
    let lost := unresolvedAt r.first.toNat w.blocks
    readNamed e r w p = if (p.onlineMembers r.volume).any (· ≠ w.firstLane) then
        readFailed e r w [] (lost.map fun i => ⟨w.firstLane, r.volume, i, .unreadable, .read, r.tag⟩) p
      else readFailed e r w lost [] p :=
  (if_neg hc).trans (if_neg (by rw [unresolvedAt_isEmpty, any_unresolved.2 h]; decide))

/-- The end of a READ's operation, `blocks` and `completed` being what it leaves of the blocks and of the lanes noted. -/
theorem operationEnded_read_cases {p : Part} {e : EntryId} {x : Entry} {w : ReadWork} {op : LaneOp} {l : LaneId} {res : OpEnd}
    (ho : op.producer = .request e) (he : p.entry e = some x) (hw : x.work = .read w) {blocks : List BlockTry}
    {completed : LaneMask}
    (hended : w.ended l (op.start - ((p.vol x.req.volume).first + x.req.first.toNat)) res =
      { w with outstanding := w.outstanding - 1, blocks := blocks, completed := completed }) :
    let v := x.req.volume
    let first := x.req.first.toNat
    let tag := x.req.tag
    let q : Part := { p with table := p.table.set e.val (some { x with work := .read { w with
      outstanding := w.outstanding - 1, blocks := blocks, completed := completed } }) }
    let lost := unresolvedAt first blocks
    let found := tryDiscoveries v .read tag first blocks
    let delivers : Part := (handDiscoveries found q).modEntry e fun y => { y with state := .delivering }
    let fails (events : List Nat) (ds : List Discovery) : Part :=
      complete e .failedMedia completed (BitVec.ofNat 32 (lost.headD 0)) (BitVec.ofNat 32 lost.length)
        (handDiscoveries ds (passEvents (events.map fun i => unrecoverableEvent none v i .read tag)
          (releaseAll (.request e) q)))
    (2 ≤ w.outstanding → operationEnded l op res p = q)
    ∧ (w.outstanding ≤ 1 → w.named = false →
      ((∀ b ∈ blocks, b.source ≠ none) → operationEnded l op res p = delivers)
      ∧ ((∃ b ∈ blocks, b.source = none) → (∀ m ∈ p.onlineMembers v, m ∈ w.tried) →
        (p.isLost v = true → operationEnded l op res p = finish e .lost 0 0 0 q)
        ∧ (p.isLost v = false → operationEnded l op res p = fails lost found)))
    ∧ (w.outstanding ≤ 1 → w.named = true →
      (completed = 0 → operationEnded l op res p = finish e .refusedLane 0 0 0 q)
      ∧ (completed ≠ 0 →
        ((∀ b ∈ blocks, b.source ≠ none) → operationEnded l op res p = delivers)
        ∧ ((∃ b ∈ blocks, b.source = none) →
          ((∃ m ∈ p.onlineMembers v, m ≠ w.firstLane) → operationEnded l op res p =
            fails [] (lost.map fun i => ⟨w.firstLane, v, i, .unreadable, .read, tag⟩))
          ∧ ((∀ m ∈ p.onlineMembers v, m = w.firstLane) → operationEnded l op res p = fails lost [])))) := by
  intro v first tag q lost found delivers fails
  have hq := operationEnded_read ho he hw l res
  simp only [hended] at hq
  refine ⟨fun h2 => hq.trans (if_pos (by omega)), fun h1 hn => ?_, fun h1 hn => ?_⟩
  · replace hq := (hq.trans (if_neg (by omega))).trans (if_neg (by simp [hn]))
    refine ⟨fun hb => hq.trans (readRound_delivers hb), fun hb ht => ⟨fun hl => ?_, fun hl => ?_⟩⟩
    · exact (hq.trans (readRound_ends hb ht)).trans (if_pos hl)
    · exact (hq.trans (readRound_ends hb ht)).trans (if_neg (Bool.not_eq_true _ ▸ hl))
  · replace hq := (hq.trans (if_neg (by omega))).trans (if_pos hn)
    refine ⟨fun hc => hq.trans (readNamed_refused hc), fun hc => ⟨fun hb => hq.trans (readNamed_delivers hc hb), fun hb => ?_⟩⟩
    replace hq := hq.trans (readNamed_fails hc hb)
    refine ⟨fun hm => hq.trans (if_pos ?_), fun hm => hq.trans (if_neg ?_)⟩
    · obtain ⟨m, hm, hne⟩ := hm
      exact List.any_eq_true.2 ⟨m, hm, decide_eq_true hne⟩
    · intro hany
      obtain ⟨m, hmem, hne⟩ := List.any_eq_true.1 hany
      exact of_decide_eq_true hne (hm m hmem)

/-- Settles O52. -/
theorem deliveriesFinishTheirRequests : Obligations.DeliveriesFinishTheirRequests := by
  refine ⟨?_, fun e x p he hs hk => ⟨hostTransfer_read he hs hk, delivered_blocks p e⟩, ?_,
    fun v o tag first bs => ⟨unresolvedAt_eq first bs, tryDiscoveries_eq v o tag first bs⟩⟩
  · intro e x s ha he hs hw p released ends
    refine ⟨?_, fun hk =>
      ⟨act_finish ha hw he (snapshotDelivered_eq he hs hk .done), act_finish ha hw he (snapshotDelivered_eq he hs hk .fault)⟩⟩
    intro w hwork mask others first
    have hend := readDelivered_eq he hs hwork
    have hothers : w.others = others := w.others_eq
    refine ⟨?_, fun h0 => ?_, fun h0 => ?_⟩
    · exact (act_finish ha hw he (hend .fault)).trans (by rw [hothers]; rfl)
    · have hok : (if w.others = 0 then ReqOutcome.ok else .recovered) = .ok := if_pos (hothers.trans h0)
      refine (act_finish ha hw he ((hend .done).trans (by rw [hok]; rfl))).trans ?_
      rw [hothers, h0]
      rfl
    · have hrec : (if w.others = 0 then ReqOutcome.ok else .recovered) = .recovered := if_neg (hothers ▸ h0)
      refine (act_finish ha hw he ((hend .done).trans (by rw [hrec]; rfl))).trans ?_
      rw [hothers]
      rfl
  · intro e x w l op r p ho he hw v first tag blocks completed
    exact operationEnded_read_cases ho he hw (by cases r <;> rfl)

end Sys2Proof.Machine
end

section
/-!
READ and VERIFY from their locks and buffers to their operations, and a READ's next round (R9, R10, R83, R94, R96, R97, R101,
R106).
-/
namespace Sys2Proof.Machine

/-! ## Merging, runs and the circular order -/

/-- What a status makes of a block being read from one copy after another. -/
def BlockTry.note (b : BlockTry) (l : LaneId) (st : Status) : BlockTry :=
  if st = .good then { b with source := some l, weak := false }
  else if st = .corrected then { b with source := some l, weak := true }
  else { b with failed := b.failed ++ [l] }

theorem mergeTries_zero_cons (l : LaneId) (st : Status) (ss : List Status) (b : BlockTry) (bs : List BlockTry) :
    mergeTries l 0 (st :: ss) (b :: bs) = b.note l st :: mergeTries l 0 ss bs := by
  cases st <;> rfl

theorem mergeTries_nil (l : LaneId) (n : Nat) (bs : List BlockTry) : mergeTries l n [] bs = bs := by
  induction bs generalizing n with
  | nil => cases n <;> rfl
  | cons b bs ih =>
    cases n with
    | zero => rfl
    | succ n => rw [mergeTries, ih]

/-- Each block of the range gets the status at its place, the others keep theirs. -/
theorem mergeTries_getElem? (l : LaneId) (n : Nat) (ss : List Status) (bs : List BlockTry) (i : Nat) :
    (mergeTries l n ss bs)[i]? =
      bs[i]?.map fun b => if i < n then b else (ss[i - n]?.map (b.note l)).getD b := by
  induction bs generalizing n ss i with
  | nil => cases n <;> cases ss <;> simp [mergeTries]
  | cons b bs ih =>
    cases n with
    | zero =>
      cases ss with
      | nil => simp [mergeTries_nil]
      | cons st ss =>
        rw [mergeTries_zero_cons]
        cases i with
        | zero => simp
        | succ i => simp [ih]
    | succ n =>
      rw [mergeTries]
      cases i with
      | zero => simp
      | succ i => simp [ih]

theorem mergeTries_at (l : LaneId) (at_ i : Nat) (ss : List Status) (bs : List BlockTry) (b : BlockTry) (hb : bs[i]? = some b) :
    (i < at_ ∨ at_ + ss.length ≤ i → (mergeTries l at_ ss bs)[i]? = some b)
    ∧ ∀ st, at_ ≤ i → ss[i - at_]? = some st → (mergeTries l at_ ss bs)[i]? = some (b.note l st) := by
  rw [mergeTries_getElem?, hb, Option.map_some]
  refine ⟨fun h => ?_, fun st h hst => ?_⟩
  · by_cases hi : i < at_
    · rw [if_pos hi]
    · have hout : ss[i - at_]? = none := List.getElem?_eq_none (by omega)
      rw [if_neg hi, hout]
      rfl
  · rw [if_neg (by omega), hst]
    rfl

/-- The positions of a list's wanted blocks, its head standing at `i`. -/
def wantedAt (want : BlockTry → Bool) (i : Nat) (bs : List BlockTry) : List Nat :=
  (List.range' i bs.length).filter fun k => (bs[k - i]?).any want

theorem wantedAt_cons (want : BlockTry → Bool) (i : Nat) (b : BlockTry) (bs : List BlockTry) :
    wantedAt want i (b :: bs) = (if want b then [i] else []) ++ wantedAt want (i + 1) bs := by
  have htail : (List.range' (i + 1) bs.length).filter (fun k => ((b :: bs)[k - i]?).any want) = wantedAt want (i + 1) bs := by
    refine List.filter_congr fun k hk => ?_
    have hk' := List.mem_range'_1.1 hk
    rw [show k - i = (k - (i + 1)) + 1 by omega, List.getElem?_cons_succ]
  rw [wantedAt, List.length_cons, List.range'_succ, List.filter_cons, htail]
  simp only [Nat.sub_self, List.getElem?_cons_zero, Option.any_some]
  split <;> rfl

/-- A run put before others: joined to the first where it ends at its begin. -/
theorem runs_cons_wanted {want : BlockTry → Bool} {i : Nat} {b : BlockTry} {bs : List BlockTry} (h : want b = true) :
    (∃ n rest, runs want (i + 1) bs = (i + 1, n) :: rest ∧ runs want i (b :: bs) = (i, n + 1) :: rest)
    ∨ ((∀ y ∈ (runs want (i + 1) bs).head?, y.1 ≠ i + 1) ∧ runs want i (b :: bs) = (i, 1) :: runs want (i + 1) bs) := by
  cases hr : runs want (i + 1) bs with
  | nil => exact .inr ⟨by simp, by rw [runs, if_pos h, hr]⟩
  | cons y rest =>
    obtain ⟨j, n⟩ := y
    by_cases hj : j = i + 1
    · subst hj
      exact .inl ⟨n, rest, rfl, by rw [runs, if_pos h, hr]; exact if_pos rfl⟩
    · exact .inr ⟨by simpa using hj, by rw [runs, if_pos h, hr]; exact if_neg hj⟩

/-- The runs cover the wanted positions in order, none is empty, and between two of them at least one position is not wanted. -/
theorem runs_spec (want : BlockTry → Bool) (i : Nat) (bs : List BlockTry) :
    (runs want i bs).flatMap (fun y => List.range' y.1 y.2) = wantedAt want i bs
      ∧ (∀ y ∈ runs want i bs, i ≤ y.1 ∧ 1 ≤ y.2) ∧ (runs want i bs).Pairwise fun y z => y.1 + y.2 < z.1 := by
  induction bs generalizing i with
  | nil => exact ⟨rfl, by simp [runs], by simp [runs]⟩
  | cons b bs ih =>
    obtain ⟨hcover, hpos, hapart⟩ := ih (i + 1)
    rw [wantedAt_cons, ← hcover]
    by_cases hb : want b = true
    · rw [if_pos hb]
      rcases runs_cons_wanted (i := i) (bs := bs) hb with ⟨n, rest, hr, hrun⟩ | ⟨hhead, hrun⟩
      · rw [hr] at hpos hapart ⊢
        rw [List.pairwise_cons] at hapart
        rw [hrun]
        refine ⟨?_, ?_, ?_⟩
        · simp [List.range'_succ]
        · intro y hy
          rcases List.mem_cons.1 hy with rfl | hy
          · exact ⟨le_rfl, by simp⟩
          · have := hpos y (List.mem_cons_of_mem _ hy)
            exact ⟨by omega, this.2⟩
        · refine List.pairwise_cons.2 ⟨fun z hz => ?_, hapart.2⟩
          have := hapart.1 z hz
          omega
      · rw [hrun]
        refine ⟨by simp, ?_, List.pairwise_cons.2 ⟨fun z hz => ?_, hapart⟩⟩
        · intro y hy
          rcases List.mem_cons.1 hy with rfl | hy
          · exact ⟨le_rfl, le_rfl⟩
          · have := hpos y hy
            exact ⟨by omega, this.2⟩
        · cases hr : runs want (i + 1) bs with
          | nil => simp [hr] at hz
          | cons y rest =>
            rw [hr] at hz hhead hpos hapart
            have hne : y.1 ≠ i + 1 := hhead y rfl
            have hy := hpos y List.mem_cons_self
            rcases List.mem_cons.1 hz with rfl | hz
            · show i + 1 < z.1
              omega
            · have := (List.pairwise_cons.1 hapart).1 z hz
              show i + 1 < z.1
              omega
    · rw [if_neg hb, runs, if_neg hb]
      exact ⟨rfl, fun y hy => ⟨by have := (hpos y hy).1; omega, (hpos y hy).2⟩, hapart⟩

/-- Blocks that are all wanted make one run. -/
theorem runs_replicate {want : BlockTry → Bool} {b : BlockTry} (h : want b = true) (i n : Nat) :
    runs want i (List.replicate (n + 1) b) = [(i, n + 1)] := by
  induction n generalizing i with
  | zero => simp [runs, h]
  | succ n ih =>
    rw [List.replicate_succ, runs, if_pos h, ih]
    exact if_pos rfl

/-! ## The lanes of a READ (R9, R10) -/

theorem lane_ne_add (l : LaneId) : l + 1 ≠ l ∧ l + 2 ≠ l ∧ l + 3 ≠ l := by
  revert l
  decide

/-- The circular order ends with the lane itself, which a test that it fails leaves out. -/
theorem nextLane_of_not {l : LaneId} {ok : LaneId → Bool} (h : ok l = false) :
    nextLane l ok = [l + 1, l + 2, l + 3].find? ok := by
  show ([l + 1, l + 2, l + 3] ++ [l]).find? ok = _
  rw [List.find?_append]
  simp [h]

theorem Part.nextTry_append (p : Part) (v : VolId) (before : List LaneId) (last : LaneId) :
    p.nextTry v (before ++ [last]) =
      [last + 1, last + 2, last + 3].find? fun m => p.onlineMember v m && !before.contains m := by
  have hg : p.nextTry v (before ++ [last]) =
      nextLane last fun m => p.onlineMember v m && !(before ++ [last]).contains m := by
    simp only [Part.nextTry, List.getLast?_append, List.getLast?_singleton, Option.some_or]
  obtain ⟨h1, h2, h3⟩ := lane_ne_add last
  rw [hg, nextLane_of_not (by simp)]
  simp only [List.find?_cons, List.find?_nil, List.contains_eq_mem, List.mem_append, List.mem_singleton, h1, h2, h3, or_false]

theorem spreadFirst_eq (p : Part) (v : VolId) :
    (p.onlineMember v (p.vol v).rotation = true → p.spreadFirst v = some (p.vol v).rotation)
    ∧ (p.onlineMember v (p.vol v).rotation = false → p.spreadFirst v =
      [(p.vol v).rotation + 1, (p.vol v).rotation + 2, (p.vol v).rotation + 3].find? (p.onlineMember v)) := by
  refine ⟨fun h => if_pos h, fun h => ?_⟩
  rw [Part.spreadFirst, if_neg (by simp [h]), nextLane_of_not h]

theorem Part.setVol_vol_self (p : Part) (v : VolId) : p.setVol v (p.vol v) = p := by
  unfold Part.setVol Part.vol
  simp

/-- The first lane of a READ by policy, whichever the policy, with the pointer after it. -/
theorem chooseFirst_eq {p : Part} {v : VolId} {l pointer : LaneId}
    (hf : (p.vol v).policy = .fixed → p.actingReference v = some l ∧ pointer = (p.vol v).rotation)
    (hs : (p.vol v).policy = .spread → p.spreadFirst v = some l ∧ pointer = (nextLane l (p.onlineMember v)).getD l) :
    chooseFirst v p = (some l, p.setVol v { p.vol v with rotation := pointer }) := by
  unfold chooseFirst
  cases hp : (p.vol v).policy with
  | fixed =>
    obtain ⟨ha, rfl⟩ := hf hp
    have hself : p.setVol v { p.vol v with rotation := (p.vol v).rotation } = p := Part.setVol_vol_self p v
    rw [hself, ← ha]
  | spread =>
    obtain ⟨ha, rfl⟩ := hs hp
    simp only [ha]
    rfl

/-! ## Issuing operations -/

/-- A lane that serves another operation and has a place queues the operation. -/
theorem enqueue_busy {p : Part} {l : LaneId} (op : LaneOp) (hs : (p.lane l).service ≠ none) (hp : (p.lane l).places < 16) :
    enqueue l op p = p.setLane l { p.lane l with queue := (p.lane l).queue ++ [op] } := by
  unfold enqueue
  refine (if_pos hp).trans ?_
  unfold laneChoose
  refine if_pos ?_
  simp [Option.isSome_iff_ne_none.2 hs]

/-- The lane controller has no choice to make: an operation is in service, or nothing may be sent. -/
def Part.chooses (p : Part) (l : LaneId) : Bool :=
  !((p.lane l).service.isSome || (p.lane l).txn.isSome || (p.lane l).hold || !(p.lane l).runtime.serviceable)

theorem laneChoose_eq (l : LaneId) (p : Part) :
    laneChoose l p = match p.chooses l, choose p.engine.share (p.lane l).streak (p.lane l).queue with
      | true, some (op, rest, streak) =>
        (p.setLane l { p.lane l with queue := rest, streak := streak, service := some (p.serve l op) }).push [.laneStart l]
      | _, _ => p := by
  unfold laneChoose Part.chooses
  dsimp only
  cases ((p.lane l).service.isSome || (p.lane l).txn.isSome || (p.lane l).hold || !(p.lane l).runtime.serviceable)
  · cases choose p.engine.share (p.lane l).streak (p.lane l).queue <;> rfl
  · rfl

theorem laneChoose_withTable (p : Part) (t : Vector (Option Entry) 32) (l : LaneId) :
    laneChoose l { p with table := t } = { laneChoose l p with table := t } := by
  have hc : ({ p with table := t } : Part).chooses l = p.chooses l := rfl
  rw [laneChoose_eq, laneChoose_eq, hc]
  simp only [Part.lane_mk]
  cases p.chooses l
  · rfl
  · cases choose p.engine.share (p.lane l).streak (p.lane l).queue <;> rfl

/-- Issuing does not see or change the request table. -/
theorem enqueue_withTable (p : Part) (t : Vector (Option Entry) 32) (l : LaneId) (op : LaneOp) :
    enqueue l op { p with table := t } = { enqueue l op p with table := t } := by
  by_cases h : (p.lane l).places < Config.queuePlaces
  · have he : ∀ q : Part, (q.lane l).places < Config.queuePlaces →
        enqueue l op q = laneChoose l (q.setLane l { q.lane l with queue := (q.lane l).queue ++ [op] }) := fun q hq => if_pos hq
    rw [he p h, he { p with table := t } h]
    exact laneChoose_withTable (p.setLane l { p.lane l with queue := (p.lane l).queue ++ [op] }) t l
  · have he : ∀ q : Part, ¬ (q.lane l).places < Config.queuePlaces →
        enqueue l op q = q.setLane l { q.lane l with waiters := (q.lane l).waiters ++ [op] } := fun q hq => if_neg hq
    rw [he p h, he { p with table := t } h]
    rfl

theorem enqueue_table (p : Part) (l : LaneId) (op : LaneOp) : (enqueue l op p).table = p.table := by
  have h := congrArg Part.table (enqueue_withTable p p.table l op)
  exact h

theorem foldl_enqueue_withTable {α : Type} (lane : α → LaneId) (op : α → LaneOp) (ys : List α) (p : Part)
    (t : Vector (Option Entry) 32) :
    ys.foldl (fun q y => enqueue (lane y) (op y) q) { p with table := t } =
      { ys.foldl (fun q y => enqueue (lane y) (op y) q) p with table := t } := by
  induction ys generalizing p with
  | nil => rfl
  | cons y ys ih => rw [List.foldl_cons, enqueue_withTable, ih, List.foldl_cons]

theorem foldl_enqueue_table {α : Type} (lane : α → LaneId) (op : α → LaneOp) (ys : List α) (p : Part) :
    (ys.foldl (fun q y => enqueue (lane y) (op y) q) p).table = p.table := by
  have h := congrArg Part.table (foldl_enqueue_withTable lane op ys p p.table)
  exact h

/-- Setting an entry's work after operations have been issued is setting it before. -/
theorem setWork_foldl_enqueue {α : Type} {p : Part} {e : EntryId} {x : Entry} (h : p.entry e = some x) (w : Work)
    (lane : α → LaneId) (op : α → LaneOp) (ys : List α) :
    setWork e w (ys.foldl (fun q y => enqueue (lane y) (op y) q) p) =
      ys.foldl (fun q y => enqueue (lane y) (op y) q) { p with table := p.table.set e.val (some { x with work := w }) } := by
  have ht := foldl_enqueue_table lane op ys p
  have he : (ys.foldl (fun q y => enqueue (lane y) (op y) q) p).entry e = some x := by
    rw [← h]
    unfold Part.entry
    rw [ht]
  rw [setWork_eq he, foldl_enqueue_withTable lane op ys p (p.table.set e.val (some { x with work := w })), ht]

/-- Issuing to different busy lanes queues one operation on each and changes nothing else. -/
theorem foldl_enqueue_busy {α : Type} {lane : α → LaneId} (op : α → LaneOp) {ys : List α} (hd : (ys.map lane).Nodup) {p : Part}
    (hb : ∀ y ∈ ys, (p.lane (lane y)).service ≠ none ∧ (p.lane (lane y)).places < 16) :
    let q := ys.foldl (fun q y => enqueue (lane y) (op y) q) p
    q = { p with lanes := q.lanes }
    ∧ (∀ y ∈ ys, q.lane (lane y) = { p.lane (lane y) with queue := (p.lane (lane y)).queue ++ [op y] })
    ∧ ∀ l, l ∉ ys.map lane → q.lane l = p.lane l := by
  induction ys generalizing p with
  | nil => exact ⟨rfl, by simp, fun _ _ => rfl⟩
  | cons y ys ih =>
    obtain ⟨hy, hd⟩ := List.nodup_cons.1 hd
    have hne : ∀ z ∈ ys, lane y ≠ lane z := fun z hz h => hy (h ▸ List.mem_map_of_mem hz)
    have hstep := enqueue_busy (op y) (hb y List.mem_cons_self).1 (hb y List.mem_cons_self).2
    have hother : ∀ l, lane y ≠ l → (enqueue (lane y) (op y) p).lane l = p.lane l := fun l hl => by
      rw [hstep, Part.lane_setLane, if_neg hl]
    obtain ⟨hq, hin, hout⟩ := ih hd (p := enqueue (lane y) (op y) p) fun z hz => by
      rw [hother _ (hne z hz)]
      exact hb z (List.mem_cons_of_mem _ hz)
    rw [List.foldl_cons]
    refine ⟨?_, ?_, ?_⟩
    · rw [hq, hstep]
      rfl
    · intro z hz
      rcases List.mem_cons.1 hz with rfl | hz
      · rw [hout _ hy, hstep, Part.lane_setLane, if_pos rfl]
      · rw [hin z hz, hother _ (hne z hz)]
    · intro l hl
      rw [List.map_cons, List.mem_cons, not_or] at hl
      rw [hout l hl.2, hother l (Ne.symm hl.1)]

end Sys2Proof.Machine
end

section
/-!
From a READ's or a VERIFY's slot to its operations in one step: the lock, the buffers, the operations.
-/
namespace Sys2Proof.Machine

/-! ## The checks that a data request has passed (R92) -/

/-- A request that passed the checks names a volume that is not LOST and at least one block. -/
theorem dataRefusal_none {r : Request} {p : Part} (h : dataRefusal r p = none) :
    p.isLost r.volume = false ∧ 0 < r.count.toNat := by
  unfold dataRefusal at h
  cases hv : volOf r.target with
  | none => simp [hv] at h
  | some v =>
    have hvol : r.volume = v := by simp [Request.volume, hv]
    simp only [hv] at h
    split_ifs at h with h1 h2 h3 h4
    refine ⟨by simpa [hvol] using h4, ?_⟩
    have hcount : ¬ r.count = 0 := fun hc => h2 (by simp [dataMalformed, hc])
    exact Nat.pos_of_ne_zero fun hz => hcount (BitVec.eq_of_toNat_eq (by simpa using hz))

theorem laneOf_0F : laneOf 0x0F = none := by decide

/-! ## Grants -/

/-- The lock of a READ or a VERIFY (R96, R106). -/
abbrev Request.sharedLock (r : Request) (e : EntryId) : Lock := ⟨.request e, r.volume, r.first.toNat, r.count.toNat, false⟩

/-- The slot of entry `e` taken, with the lock `k` granted to its request. -/
def Part.locked (p : Part) (e : EntryId) (y : Entry) (k : Lock) : Part :=
  { p.taken e y with locks := ⟨p.locks.granted ++ [k], p.locks.waiting⟩ }

/-- And with `n` buffers. -/
def Part.held (p : Part) (e : EntryId) (y : Entry) (k : Lock) (n : Nat) : Part :=
  { p.locked e y k with pool := p.pool.give (.request e) n }

section
variable (p : Part) (e : EntryId) (y : Entry) (k : Lock) (n : Nat)

@[simp] theorem Part.locked_entry : (p.locked e y k).entry e = some y := Part.taken_entry p e y
@[simp] theorem Part.locked_agenda : (p.locked e y k).agenda = p.agenda := rfl
@[simp] theorem Part.held_entry : (p.held e y k n).entry e = some y := Part.taken_entry p e y
@[simp] theorem Part.held_agenda : (p.held e y k n).agenda = p.agenda := rfl
@[simp] theorem Part.held_isLost (v : VolId) : (p.held e y k n).isLost v = p.isLost v := rfl
@[simp] theorem Part.held_lane (l : LaneId) : (p.held e y k n).lane l = p.lane l := rfl

theorem Part.taken_modEntry (f : Entry → Entry) : (p.taken e y).modEntry e f = p.taken e (f y) := by
  rw [Part.modEntry_eq (Part.taken_entry p e y)]
  simp [Part.taken]

theorem Part.locked_modEntry (f : Entry → Entry) : (p.locked e y k).modEntry e f = p.locked e (f y) k := by
  rw [Part.modEntry_eq (Part.locked_entry p e y k)]
  simp [Part.locked, Part.taken]

theorem Part.held_modEntry (f : Entry → Entry) : (p.held e y k n).modEntry e f = p.held e (f y) k n := by
  rw [Part.modEntry_eq (Part.held_entry p e y k n)]
  simp [Part.held, Part.locked, Part.taken]

end

/-- A taken request's lock is granted at once. -/
theorem dataLock_granted {p : Part} {e : EntryId} (y : Entry) {r : Request}
    (hg : (r.sharedLock e).clearOf p.locks.granted = true) (hw : (r.sharedLock e).clearOf p.locks.waiting = true) :
    dataLock e r false (p.taken e y) =
      (p.locked e { y with state := .waitLock } (r.sharedLock e)).push [.lockGranted (.request e)] := by
  unfold dataLock setEntryState
  rw [Part.taken_modEntry, askLock_granted]
  · rfl
  · exact Bool.and_eq_true_iff.2 ⟨hg, hw⟩

theorem lockGranted_request {p : Part} {e : EntryId} (y : Entry) {k : Lock} (hk : k.holder = .request e) :
    lockGranted (.request e) (p.locked e y k) = requestLocked e (p.locked e y k) :=
  if_neg (by simp [Part.locked, hk])

/-- A taken request's buffers are granted at once. -/
theorem askBuffers_locked {p : Part} {e : EntryId} (y : Entry) (k : Lock) {n : Nat} (hw : p.pool.waiting = [])
    (hn : n ≤ p.pool.freeCount) :
    askBuffers (.request e) n (p.locked e y k) = (p.held e y k n).push [.buffersGranted (.request e)] := by
  have hp : ({ p.pool.give (.request e) n with waiting := [] } : Pool) = p.pool.give (.request e) n := by
    rw [← hw]
    rfl
  rw [askBuffers_granted (p := p.locked e y k) hw hn]
  exact congrArg (fun q : Pool => ({ p.locked e y k with pool := q } : Part).push [.buffersGranted (.request e)]) hp

theorem buffersGranted_request {p : Part} {e : EntryId} (y : Entry) (k : Lock) (n : Nat) (hw : p.pool.waiting = []) :
    buffersGranted (.request e) (p.held e y k n) = requestBuffered e (p.held e y k n) :=
  if_neg (by simp [Part.held, Pool.give, hw])

/-! ## READ -/

theorem readReceived_passes {p : Part} {e : EntryId} {r : Request} (hd : dataRefusal r p = none)
    (hn : namedRefusal r p = none) (y : Entry) : readReceived e r (p.taken e y) = dataLock e r false (p.taken e y) := by
  have hd' : dataRefusal r (p.taken e y) = none := hd
  have hn' : namedRefusal r (p.taken e y) = none := hn
  simp [readReceived, hd', hn']

theorem requestLocked_read {p : Part} {e : EntryId} {y : Entry} (h : p.entry e = some y) (hs : y.state = .waitLock)
    (hk : y.req.kind = kindRead) :
    requestLocked e p = askBuffers (.request e) y.req.count.toNat (setEntryState e .waitBuffers p) := by
  have hv : ¬ kindRead = kindVerify := by decide
  simp [requestLocked, h, hs, hk, hv]

theorem requestBuffered_read {p : Part} {e : EntryId} {y : Entry} (h : p.entry e = some y) (hs : y.state = .waitBuffers)
    (hk : y.req.kind = kindRead) : requestBuffered e p = readStart e y.req p := by
  simp [requestBuffered, h, hs, hk]

/-- The one operation of a READ's first round, to a lane that serves another operation and has a place. -/
theorem readIssue_fresh {p : Part} {e : EntryId} {r : Request} {l : LaneId} (named : Bool) {n : Nat} (hn : 0 < n)
    (hs : (p.lane l).service ≠ none) (hp : (p.lane l).places < 16) :
    readIssue e r l ⟨named, l, [], List.replicate n .fresh, 0, 0⟩ p =
      (p.modEntry e fun y => { y with work := .read ⟨named, l, [l], List.replicate n .fresh, 1, 0⟩ }).setLane l
        { p.lane l with queue := (p.lane l).queue ++ [⟨.foreground, .read, p.startBlock r, n,
          ((p.pool.bufsOf (.request e)).map BufRef.staging).take n, .request e, false⟩] } := by
  obtain ⟨m, rfl⟩ := Nat.exists_eq_add_one_of_ne_zero hn.ne'
  unfold readIssue
  simp only [runs_replicate (want := BlockTry.unresolved) (b := .fresh) rfl, List.foldl_cons, List.foldl_nil,
    List.length_singleton, List.nil_append, List.drop_zero]
  exact enqueue_busy _ hs hp

/-- A READ that is granted its lock and its buffers in the step in which it is received. -/
theorem act_read_granted {s : State} {e : EntryId} {x : Entry} {z : Part} (ha : s.part.agenda = []) (ht : s.part.takes e x)
    (hgen : genericRefusal x.req = none) (hk : x.req.kind = kindRead) (hd : dataRefusal x.req s.part = none)
    (hn : namedRefusal x.req s.part = none) (hg : (x.req.sharedLock e).clearOf s.part.locks.granted = true)
    (hw : (x.req.sharedLock e).clearOf s.part.locks.waiting = true) (hpw : s.part.pool.waiting = [])
    (hpn : x.req.count.toNat ≤ s.part.pool.freeCount)
    (hz : readStart e x.req (s.part.held e { x with state := .waitBuffers } (x.req.sharedLock e) x.req.count.toNat) = z)
    (hr : z.atRest) : exec (.read .done) s = .next (s.withPart z) := by
  refine State.act_of_push_push (t := .lockGranted (.request e)) (u := .buffersGranted (.request e))
    (q := s.part.locked e { x with state := .waitLock } (x.req.sharedLock e))
    (r := s.part.held e { x with state := .waitBuffers } (x.req.sharedLock e) x.req.count.toNat) ?_ ha ?_ ha ?_ hr
  · rw [requestTaken_done ht hgen (by simpa using hk), readReceived_passes hd hn, dataLock_granted _ hg hw]
  · refine (lockGranted_request { x with state := .waitLock } rfl).trans ?_
    rw [requestLocked_read (y := { x with state := .waitLock }) (Part.locked_entry ..) rfl hk, setEntryState,
      Part.locked_modEntry]
    exact askBuffers_locked _ _ hpw hpn
  · refine (buffersGranted_request _ _ _ hpw).trans ?_
    rw [requestBuffered_read (y := { x with state := .waitBuffers }) (Part.held_entry ..) rfl hk]
    exact hz

/-- The part once a READ's first operation stands in lane `l`'s queue. -/
def Part.firstRead (p : Part) (e : EntryId) (x : Entry) (named : Bool) (l : LaneId) : Part :=
  (p.held e { x with
      state := .atLanes
      work := .read ⟨named, l, [l], List.replicate x.req.count.toNat .fresh, 1, 0⟩ } (x.req.sharedLock e)
    x.req.count.toNat).setLane l { p.lane l with
      queue := (p.lane l).queue ++ [⟨.foreground, .read, p.startBlock x.req, x.req.count.toNat,
        (((p.pool.give (.request e) x.req.count.toNat).bufsOf (.request e)).map BufRef.staging).take x.req.count.toNat,
        .request e, false⟩] }

theorem Part.firstRead_atRest {p : Part} (ha : p.agenda = []) (e : EntryId) (x : Entry) (named : Bool) (l : LaneId) :
    (p.firstRead e x named l).atRest :=
  Part.atRest_of_entry ha (Part.held_entry p e _ (x.req.sharedLock e) x.req.count.toNat)

/-- The buffers of a READ by policy are granted: it is issued to its first lane, and the rotation pointer moves. -/
theorem readStart_policy {p : Part} {e : EntryId} {x : Entry} {l pointer : LaneId}
    (hl : p.isLost x.req.volume = false) (hn : 0 < x.req.count.toNat) (hsel : x.req.namedLane = none)
    (hf : (p.vol x.req.volume).policy = .fixed →
      p.actingReference x.req.volume = some l ∧ pointer = (p.vol x.req.volume).rotation)
    (hp : (p.vol x.req.volume).policy = .spread → p.spreadFirst x.req.volume = some l
      ∧ pointer = (nextLane l (p.onlineMember x.req.volume)).getD l)
    (hs : (p.lane l).service ≠ none) (hpl : (p.lane l).places < 16) :
    readStart e x.req (p.held e { x with state := .waitBuffers } (x.req.sharedLock e) x.req.count.toNat) =
      (p.firstRead e x false l).setVol x.req.volume { p.vol x.req.volume with rotation := pointer } := by
  unfold readStart setEntryState
  rw [Part.held_modEntry]
  refine (if_neg (by simp [hl])).trans ?_
  set q := p.held e { x with state := .atLanes } (x.req.sharedLock e) x.req.count.toNat with hq
  have hchoose : chooseFirst x.req.volume q = (some l, q.setVol x.req.volume { p.vol x.req.volume with rotation := pointer }) :=
    chooseFirst_eq hf hp
  simp only [hsel, hchoose]
  have hstart : (q.setVol x.req.volume { p.vol x.req.volume with rotation := pointer }).startBlock x.req =
      p.startBlock x.req := by
    simp [Part.startBlock]
  rw [readIssue_fresh (p := q.setVol x.req.volume { p.vol x.req.volume with rotation := pointer }) false hn hs hpl, hstart]
  change (((q.modEntry e _).setVol _ _).setLane _ _ : Part) = _
  rw [hq, Part.held_modEntry]
  rfl

/-- The buffers of a READ that names its lane are granted: it is issued to that lane. -/
theorem readStart_named {p : Part} {e : EntryId} {x : Entry} {l : LaneId} (hl : p.isLost x.req.volume = false)
    (hn : 0 < x.req.count.toNat) (hsel : x.req.namedLane = some l) (ho : p.online l = true)
    (hs : (p.lane l).service ≠ none) (hpl : (p.lane l).places < 16) :
    readStart e x.req (p.held e { x with state := .waitBuffers } (x.req.sharedLock e) x.req.count.toNat) =
      p.firstRead e x true l := by
  unfold readStart setEntryState
  rw [Part.held_modEntry]
  refine (if_neg (by simp [hl])).trans ?_
  set q := p.held e { x with state := .atLanes } (x.req.sharedLock e) x.req.count.toNat with hq
  simp only [hsel]
  refine (if_pos ho).trans ?_
  rw [readIssue_fresh (p := q) true hn hs hpl, hq, Part.held_modEntry]
  rfl

end Sys2Proof.Machine
end

section
/-!
VERIFY from its lock to its reads, and the READ's next round (R83, R94, R97, R106).
-/
namespace Sys2Proof.Machine

/-! ## An entry's state and work -/

theorem setEntryState_eq {p : Part} {e : EntryId} {x : Entry} (h : p.entry e = some x) (st : EntryState) :
    setEntryState e st p = { p with table := p.table.set e.val (some { x with state := st }) } := Part.modEntry_eq h _

/-- Setting the work after setting the entry. -/
theorem setWork_withTable (p : Part) (e : EntryId) (x : Entry) (w : Work) :
    setWork e w { p with table := p.table.set e.val (some x) } =
      { p with table := p.table.set e.val (some { x with work := w }) } := by
  rw [setWork_eq (x := x) (Part.entry_withTable_same ..)]
  simp

/-! ## The reads of a VERIFY -/

/-- The VERIFY's reads issued to the lanes of `read`, which gives each its share of the buffers. -/
def issueReads (e : EntryId) (start n : Nat) (bufs : List BufId) (read : List (LaneId × Nat)) (p : Part) : Part :=
  read.foldl (fun q y => enqueue y.1
    ⟨.foreground, .read, start, n, ((bufs.drop (y.2 * n)).take n).map .staging, .request e, false⟩ q) p

/-- The part whose entry `e` stands at the lanes with the VERIFY's work `u`. -/
def Part.atReads (p : Part) (e : EntryId) (x : Entry) (u : VerifyWork) : Part :=
  { p with table := p.table.set e.val (some { x with state := .atLanes, work := .verify u }) }

@[simp] theorem Part.atReads_entry (p : Part) (e : EntryId) (x : Entry) (u : VerifyWork) :
    (p.atReads e x u).entry e = some { x with state := .atLanes, work := .verify u } := Part.entry_withTable_same ..

/-- What a VERIFY does whose buffers are granted. -/
theorem verifyBuffered_eq {p : Part} {e : EntryId} {x : Entry} {w : VerifyWork} (h : p.entry e = some x)
    (hw : x.work = .verify w) (r : Request) :
    let read := sharesRead w.gone p 0 w.lanes
    (p.isLost r.volume = true → verifyBuffered e r w p = refuse e .lost (p.atReads e x w))
    ∧ (p.isLost r.volume = false → read = [] →
      verifyBuffered e r w p = verifyJudge e r { w with outstanding := 0 } (p.atReads e x { w with outstanding := 0 }))
    ∧ (p.isLost r.volume = false → read ≠ [] → verifyBuffered e r w p =
      issueReads e (p.startBlock r) r.count.toNat (p.pool.bufsOf (.request e)) read
        (p.atReads e x { w with outstanding := read.length })) := by
  intro read
  have hx : ({ x with state := .atLanes } : Entry) = { x with state := .atLanes, work := .verify w } := by rw [← hw]
  have hset : setEntryState e .atLanes p = p.atReads e x w := by
    rw [setEntryState_eq h, hx]
    rfl
  have hwork (u : VerifyWork) (q : List (LaneId × Nat)) (start n : Nat) (bufs : List BufId) :
      setWork e (.verify u) (issueReads e start n bufs q (p.atReads e x w)) =
        issueReads e start n bufs q (p.atReads e x u) := by
    unfold issueReads
    refine (setWork_foldl_enqueue (Part.atReads_entry p e x w) (.verify u) Prod.fst _ q).trans ?_
    simp [Part.atReads]
  have hgo : p.isLost r.volume = false → verifyBuffered e r w p =
      let w' := { w with outstanding := read.length }
      let q := issueReads e (p.startBlock r) r.count.toNat (p.pool.bufsOf (.request e)) read (p.atReads e x w')
      if read.length = 0 then verifyJudge e r w' q else q := fun hl => by
    unfold verifyBuffered
    rw [hset]
    have hl' : ¬ (p.atReads e x w).isLost r.volume = true := fun h => absurd (hl.symm.trans h) Bool.false_ne_true
    refine (if_neg hl').trans ?_
    simp only [issueShares_eq]
    rw [← hwork]
    rfl
  refine ⟨fun hl => ?_, fun hl hr => ?_, fun hl hr => ?_⟩
  · unfold verifyBuffered
    rw [hset]
    exact if_pos hl
  · rw [hgo hl, hr]
    rfl
  · exact (hgo hl).trans (if_neg (by simpa using hr))

theorem requestBuffered_verify {p : Part} {e : EntryId} {x : Entry} {w : VerifyWork} (h : p.entry e = some x)
    (hs : x.state = .waitBuffers) (hk : x.req.kind = kindVerify) (hw : x.work = .verify w) :
    requestBuffered e p = verifyBuffered e x.req w p := by
  have hv : ¬ kindVerify = kindRead := by decide
  simp [requestBuffered, h, hs, hk, hw, hv]

/-- A VERIFY that waits for its buffers notes a departure. -/
theorem requestsDepart_verify {p : Part} {e : EntryId} {x : Entry} {w : VerifyWork} (h : p.entry e = some x)
    (hs : x.state = .waitBuffers) (hw : x.work = .verify w) (l : LaneId) :
    (requestsDepart l p).entry e = some { x with work := .verify { w with gone := w.gone.add l } } := by
  have ht : (requestsDepart l p).entry e = (p.entry e).map (Entry.depart l) := by
    simp [requestsDepart, holdVolumes, Part.entry]
  rw [ht, h]
  simp [Entry.depart, Entry.loseTarget, Entry.departFill, Entry.departVerify, hs, hw]

/-- A VERIFY that waited for its buffers starts its reads, or has no lane left to read. -/
theorem requestBuffered_verify_cases {p : Part} {e : EntryId} {x : Entry} {w : VerifyWork} (h : p.entry e = some x)
    (hs : x.state = .waitBuffers) (hw : x.work = .verify w) (hk : x.req.kind = kindVerify) (hg : w.got = []) :
    let r := x.req
    let read := w.lanes.zipIdx.filter fun y => !w.gone.has y.1 && p.online y.1
    (p.isLost r.volume = true → requestBuffered e p = refuse e .lost (p.atReads e x w))
    ∧ (p.isLost r.volume = false → read = [] →
      requestBuffered e p = refuse e .refusedLane (p.atReads e x { w with outstanding := 0 }))
    ∧ (p.isLost r.volume = false → read ≠ [] → requestBuffered e p =
      issueReads e ((p.vol r.volume).first + r.first.toNat) r.count.toNat (p.pool.bufsOf (.request e)) read
        (p.atReads e x { w with outstanding := read.length })) := by
  intro r read
  have hread : sharesRead w.gone p 0 w.lanes = read := rfl
  obtain ⟨hlost, hnone, hsome⟩ := verifyBuffered_eq h hw r
  rw [requestBuffered_verify h hs hk hw]
  refine ⟨hlost, fun hl hr => ?_, hsome⟩
  have hl' : (p.atReads e x { w with outstanding := 0 }).isLost r.volume = false := hl
  rw [hnone hl hr, verifyJudge_none (w := { w with outstanding := 0 }) hg, hl']
  rfl

/-! ## A VERIFY in one step -/

theorem verifyReceived_passes {p : Part} {e : EntryId} {r : Request} (hd : dataRefusal r p = none) (y : Entry) :
    verifyReceived e r (p.taken e y) = dataLock e r false (p.taken e y) := by
  have hd' : dataRefusal r (p.taken e y) = none := hd
  simp [verifyReceived, hd']

theorem requestLocked_verify {p : Part} {e : EntryId} {y : Entry} (h : p.entry e = some y) (hs : y.state = .waitLock)
    (hk : y.req.kind = kindVerify) : requestLocked e p = verifyLocked e y.req p := by
  simp [requestLocked, h, hs, hk]

/-- The read lanes of a VERIFY (R106). -/
def Part.verifyLanes (p : Part) (r : Request) : List LaneId :=
  (compareSet r.selector (p.vol r.volume).members).lanes.filter (p.onlineMember r.volume)

theorem Part.verifyLanes_nodup (p : Part) (r : Request) : (p.verifyLanes r).Nodup :=
  ((List.nodup_finRange 4).filter _).filter _

/-- A VERIFY's read lanes are all ONLINE, so each gets its share. -/
theorem sharesRead_verifyLanes (p q : Part) (r : Request) (h : ∀ l, q.online l = p.online l) :
    sharesRead 0 q 0 (p.verifyLanes r) = (p.verifyLanes r).zipIdx := by
  refine List.filter_eq_self.2 fun y hy => ?_
  have hmem := (List.mem_filter.1 (List.fst_mem_of_mem_zipIdx hy)).2
  simp only [Part.onlineMember, Bool.and_eq_true] at hmem
  simp [h, hmem.2, LaneMask.has]

/-- A VERIFY that is granted its lock and its buffers in the step in which it is received. -/
theorem act_verify_granted {s : State} {e : EntryId} {x : Entry} {z : Part} {n : Nat} (ha : s.part.agenda = [])
    (ht : s.part.takes e x) (hgen : genericRefusal x.req = none) (hk : x.req.kind = kindVerify)
    (hd : dataRefusal x.req s.part = none) (hg : (x.req.sharedLock e).clearOf s.part.locks.granted = true)
    (hw : (x.req.sharedLock e).clearOf s.part.locks.waiting = true) (hpw : s.part.pool.waiting = [])
    (hlanes : s.part.verifyLanes x.req ≠ []) (hn : n = x.req.count.toNat * (s.part.verifyLanes x.req).length)
    (hpn : n ≤ s.part.pool.freeCount)
    (hz : verifyBuffered e x.req ⟨s.part.verifyLanes x.req, [], 0, 0⟩ (s.part.held e { x with
        state := .waitBuffers, work := .verify ⟨s.part.verifyLanes x.req, [], 0, 0⟩ } (x.req.sharedLock e) n) = z)
    (hr : z.atRest) : exec (.verify .done) s = .next (s.withPart z) := by
  have hl := (dataRefusal_none hd).1
  subst hn
  refine State.act_of_push_push (t := .lockGranted (.request e)) (u := .buffersGranted (.request e))
    (q := s.part.locked e { x with state := .waitLock } (x.req.sharedLock e))
    (r := s.part.held e { x with state := .waitBuffers, work := .verify ⟨s.part.verifyLanes x.req, [], 0, 0⟩ }
      (x.req.sharedLock e) (x.req.count.toNat * (s.part.verifyLanes x.req).length)) ?_ ha ?_ ha ?_ hr
  · rw [requestTaken_done ht hgen (by simpa using hk), verifyReceived_passes hd, dataLock_granted _ hg hw]
  · refine (lockGranted_request { x with state := .waitLock } rfl).trans ?_
    rw [requestLocked_verify (y := { x with state := .waitLock }) (Part.locked_entry ..) rfl hk]
    refine (if_neg ?_).trans ((if_neg ?_).trans ?_)
    · show ¬ s.part.isLost x.req.volume = true
      simp [hl]
    · show ¬ (s.part.verifyLanes x.req).isEmpty = true
      simpa using hlanes
    · rw [setEntryState, setWork, Part.locked_modEntry, Part.locked_modEntry]
      exact askBuffers_locked _ _ hpw hpn
  · have hbuf := requestBuffered_verify (Part.held_entry s.part e { x with
        state := .waitBuffers, work := .verify ⟨s.part.verifyLanes x.req, [], 0, 0⟩ } (x.req.sharedLock e)
      (x.req.count.toNat * (s.part.verifyLanes x.req).length)) rfl hk rfl
    exact (buffersGranted_request _ _ _ hpw).trans (hbuf.trans hz)

/-- The reads of a VERIFY that is granted everything at once: one on each lane's queue. -/
theorem verify_issued {p : Part} {e : EntryId} {x : Entry} {n : Nat} (hl : p.isLost x.req.volume = false)
    (hlanes : p.verifyLanes x.req ≠ [])
    (hb : ∀ l ∈ p.verifyLanes x.req, (p.lane l).service ≠ none ∧ (p.lane l).places < 16) :
    let w : VerifyWork := ⟨p.verifyLanes x.req, [], 0, 0⟩
    let pool := p.pool.give (.request e) n
    let z := verifyBuffered e x.req w (p.held e { x with state := .waitBuffers, work := .verify w } (x.req.sharedLock e) n)
    z = { p.held e { x with state := .atLanes, work := .verify { w with outstanding := w.lanes.length } } (x.req.sharedLock e) n
      with lanes := z.lanes }
    ∧ (∀ (j : Nat) (l : LaneId), w.lanes[j]? = some l → z.lane l = { p.lane l with
        queue := (p.lane l).queue ++ [⟨.foreground, .read, p.startBlock x.req, x.req.count.toNat,
          (((pool.bufsOf (.request e)).drop (j * x.req.count.toNat)).take x.req.count.toNat).map .staging,
          .request e, false⟩] })
    ∧ ∀ l, l ∉ w.lanes → z.lane l = p.lane l := by
  intro w pool z
  set q := p.held e { x with state := .waitBuffers, work := .verify w } (x.req.sharedLock e) n with hq
  have hread : sharesRead w.gone q 0 w.lanes = w.lanes.zipIdx := sharesRead_verifyLanes p q x.req fun _ => rfl
  have hfst : w.lanes.zipIdx.map Prod.fst = w.lanes := List.zipIdx_map_fst ..
  have hne : w.lanes.zipIdx ≠ [] := fun h => hlanes (by simpa [h] using hfst.symm)
  have hat : q.atReads e { x with state := .waitBuffers, work := .verify w } { w with outstanding := w.lanes.length } =
      p.held e { x with state := .atLanes, work := .verify { w with outstanding := w.lanes.length } } (x.req.sharedLock e) n := by
    simp [q, Part.atReads, Part.held, Part.locked, Part.taken]
  have hz := (verifyBuffered_eq (Part.held_entry p e { x with state := .waitBuffers, work := .verify w } (x.req.sharedLock e) n)
    rfl x.req).2.2 hl (by rw [← hq, hread]; exact hne)
  rw [← hq, hread, List.length_zipIdx, hat] at hz
  obtain ⟨hpart, hin, hout⟩ := foldl_enqueue_busy (lane := Prod.fst)
    (fun y : LaneId × Nat => (⟨.foreground, .read, p.startBlock x.req, x.req.count.toNat,
      (((pool.bufsOf (.request e)).drop (y.2 * x.req.count.toNat)).take x.req.count.toNat).map .staging,
      .request e, false⟩ : LaneOp))
    (ys := w.lanes.zipIdx) (by rw [hfst]; exact p.verifyLanes_nodup _)
    (p := p.held e { x with state := .atLanes, work := .verify { w with outstanding := w.lanes.length } } (x.req.sharedLock e) n)
    fun y hy => hb y.1 (List.fst_mem_of_mem_zipIdx hy)
  rw [hfst] at hout
  refine ⟨?_, fun j l hj => ?_, fun l h => ?_⟩
  · rw [show z = _ from hz]
    exact hpart
  · rw [show z = _ from hz]
    exact hin (l, j) (List.mem_zipIdx_iff_getElem?.2 hj)
  · rw [show z = _ from hz]
    exact hout l h

/-! ## A VERIFY with no lane to read -/

/-- What a holder with nothing is granted and gives back leaves the lock table as it was. -/
theorem Locks.leave_granted {t : Locks} {k : Lock} (hb : t.blocked) (hn : ∀ j ∈ t.granted ++ t.waiting, j.holder ≠ k.holder) :
    (⟨t.granted ++ [k], t.waiting⟩ : Locks).leave k.holder = (t, []) := by
  have hg : (t.granted ++ [k]).filter (·.holder ≠ k.holder) = t.granted.filter (·.holder ≠ k.holder) := by simp
  rw [← Locks.leave_idle hb hn]
  unfold Locks.leave
  rw [hg]

theorem refuse_locked {p : Part} {e : EntryId} {x : Entry} (hk : p.Kept) (hn : p.holdsNothing (.request e)) (st : EntryState)
    {k : Lock} (hkh : k.holder = .request e) (o : ReqOutcome) :
    refuse e o (p.locked e { x with state := st } k) = (p.taken e x).finished e x o 0 0 0 := by
  have hpool : releaseBuffers (.request e) (p.locked e { x with state := st } k) = p.locked e { x with state := st } k := by
    have hp : (p.locked e { x with state := st } k).pool.leave (.request e) = (p.pool, []) :=
      Pool.leave_idle hk.headWaits hn.2.1 hn.2.2
    unfold releaseBuffers
    rw [hp]
    exact Part.push_nil _
  have hlock : releaseLock (.request e) (p.locked e { x with state := st } k) = p.taken e { x with state := st } := by
    have hl : (p.locked e { x with state := st } k).locks.leave (.request e) = (p.locks, []) := by
      rw [← hkh]
      exact Locks.leave_granted hk.blocked (hkh ▸ hn.1)
    unfold releaseLock
    rw [hl]
    exact Part.push_nil _
  unfold refuse finish releaseAll
  rw [hpool, hlock, complete_eq (Part.taken_entry ..), ← Part.taken_finished p e x st]

theorem act_verify_noLane {s : State} {e : EntryId} {x : Entry} (ha : s.part.agenda = []) (ht : s.part.takes e x)
    (hk : s.part.Kept) (hn : s.part.holdsNothing (.request e)) (hgen : genericRefusal x.req = none)
    (hkind : x.req.kind = kindVerify) (hd : dataRefusal x.req s.part = none)
    (hg : (x.req.sharedLock e).clearOf s.part.locks.granted = true)
    (hw : (x.req.sharedLock e).clearOf s.part.locks.waiting = true) (hlanes : s.part.verifyLanes x.req = []) :
    exec (.verify .done) s = .next (s.withPart ((s.part.taken e x).finished e x .refusedLane 0 0 0)) := by
  refine State.act_of_push (t := .lockGranted (.request e))
    (q := s.part.locked e { x with state := .waitLock } (x.req.sharedLock e)) ?_ ha ?_
    (Part.atRest_finished (p := s.part.taken e x) ha ..)
  · rw [requestTaken_done ht hgen (by simpa using hkind), verifyReceived_passes hd, dataLock_granted _ hg hw]
  · refine (lockGranted_request { x with state := .waitLock } rfl).trans ?_
    rw [requestLocked_verify (y := { x with state := .waitLock }) (Part.locked_entry ..) rfl hkind]
    have hend := refuse_locked (x := x) hk hn .waitLock (k := x.req.sharedLock e) rfl .refusedLane
    refine (if_neg ?_).trans ((if_pos ?_).trans hend)
    · show ¬ s.part.isLost x.req.volume = true
      simp [(dataRefusal_none hd).1]
    · show (s.part.verifyLanes x.req).isEmpty = true
      simp [hlanes]

end Sys2Proof.Machine
end

section
/-!
O42, assembled: what READ and VERIFY issue, and the rules of rounds, runs and the circular order.
-/
namespace Sys2Proof.Machine

/-! ## The next round of a READ (R97) -/

theorem readRound_goesOn {e : EntryId} {r : Request} {w : ReadWork} {p : Part} {next : LaneId}
    (h : ∃ b ∈ w.blocks, b.source = none) (hn : p.nextTry r.volume w.tried = some next) :
    readRound e r w p = readIssue e r next w p := by
  unfold readRound
  rw [if_neg (by rw [any_unresolved.2 h]; decide), hn]

/-- The operations of a round, one for each run of unresolved blocks. -/
def issueRuns (e : EntryId) (start : Nat) (bufs : List BufRef) (l : LaneId) (runs : List (Nat × Nat)) (p : Part) : Part :=
  runs.foldl (fun q y => enqueue l ⟨.foreground, .read, start + y.1, y.2, (bufs.drop y.1).take y.2, .request e, false⟩ q) p

theorem readIssue_eq (e : EntryId) (r : Request) (l : LaneId) (w : ReadWork) (p : Part) (x : Entry) :
    let rs := runs BlockTry.unresolved 0 w.blocks
    readIssue e r l w { p with table := p.table.set e.val (some x) } =
      issueRuns e (p.startBlock r) (p.requestBufs e) l rs
        { p with table := p.table.set e.val (some { x with
          work := .read { w with tried := w.tried ++ [l], outstanding := rs.length } }) } := by
  intro rs
  have hset := setWork_withTable p e x (.read { w with tried := w.tried ++ [l], outstanding := rs.length })
  show issueRuns e (Part.startBlock (setWork e _ _) r) (p.requestBufs e) l rs (setWork e _ _) = _
  rw [hset]
  rfl

/-- The last operation of a round has ended with blocks unresolved and a lane left to try. -/
theorem operationEnded_read_nextRound {p : Part} {e : EntryId} {x : Entry} {w : ReadWork} {op : LaneOp} {l next : LaneId}
    {res : OpEnd} (ho : op.producer = .request e) (he : p.entry e = some x) (hw : x.work = .read w) (hnamed : w.named = false)
    (hone : w.outstanding ≤ 1) {blocks : List BlockTry} {completed : LaneMask}
    (hended : w.ended l (op.start - ((p.vol x.req.volume).first + x.req.first.toNat)) res =
      { w with outstanding := w.outstanding - 1, blocks := blocks, completed := completed })
    (hb : ∃ b ∈ blocks, b.source = none) (hn : p.nextTry x.req.volume w.tried = some next) :
    let rs := runs BlockTry.unresolved 0 blocks
    operationEnded l op res p = issueRuns e (p.startBlock x.req) (p.requestBufs e) next rs
      { p with table := p.table.set e.val (some { x with work := .read { w with
        blocks := blocks, completed := completed, tried := w.tried ++ [next], outstanding := rs.length } }) } := by
  intro rs
  let w' : ReadWork := { w with outstanding := w.outstanding - 1, blocks := blocks, completed := completed }
  let q : Part := { p with table := p.table.set e.val (some { x with work := .read w' }) }
  have hq := operationEnded_read ho he hw l res
  simp only [hended] at hq
  replace hq := (hq.trans (if_neg (by omega))).trans (if_neg (by simp [hnamed]))
  have hround : readRound e x.req w' q = readIssue e x.req next w' q := readRound_goesOn hb hn
  exact hq.trans (hround.trans (readIssue_eq e x.req next w' p { x with work := .read w' }))

theorem runs_all (want : BlockTry → Bool) (bs : List BlockTry) :
    let rs := runs want 0 bs
    rs.flatMap (fun y => List.range' y.1 y.2) = (List.range bs.length).filter (fun i => (bs[i]?).any want)
      ∧ (∀ y ∈ rs, 1 ≤ y.2) ∧ rs.Pairwise fun y z => y.1 + y.2 < z.1 := by
  intro rs
  obtain ⟨hcover, hpos, hapart⟩ := runs_spec want 0 bs
  refine ⟨?_, fun y hy => (hpos y hy).2, hapart⟩
  rw [show rs.flatMap _ = _ from hcover, List.range_eq_range']
  rfl

/-! ## O42 -/

/-- Settles O42. -/
theorem readsAndVerifiesIssueTheirOperations : Obligations.ReadsAndVerifiesIssueTheirOperations := by
  unfold Obligations.ReadsAndVerifiesIssueTheirOperations
  refine ⟨?_, ?_, ?_, ?_, ?_, ?_, ?_, ?_, ?_, ?_⟩
  · intro e x l pointer s ha ht hgen hk hsel hd p L r vol n k pool hf hs hg hw hpw hpn hsv hpl
    have hnone : r.namedLane = none := (congrArg laneOf hsel).trans laneOf_0F
    have hnamed : namedRefusal r p = none := by simp only [namedRefusal, hnone]
    obtain ⟨hl, hn⟩ := dataRefusal_none hd
    refine act_read_granted ha ht hgen hk hd hnamed hg hw hpw hpn (readStart_policy hl hn hnone hf hs hsv hpl) ?_
    exact Part.firstRead_atRest ha e x false l
  · intro e x s ha ht hgen hk hd p r vol n k lanes pool hg hw hpw hpn hne hb
    obtain ⟨hz, hin, hout⟩ := verify_issued (p := p) (e := e) (x := x) (n := n * lanes.length) (dataRefusal_none hd).1 hne hb
    set z := verifyBuffered e x.req _ _ with hzdef
    refine ⟨s.withPart z, act_verify_granted ha ht hgen hk hd hg hw hpw hne rfl hpn hzdef.symm ?_, ?_⟩
    · rw [hz]
      exact Part.atRest_of_entry ha (Part.held_entry p e _ k (n * lanes.length))
    · exact ⟨(congrArg Part.table hz :), fun j l hj => hin j.val l hj, hout, (congrArg Part.locks hz :),
        (congrArg Part.pool hz :), (congrArg Part.docket hz :), (congrArg Part.volumes hz :), (congrArg Part.engine hz :),
        (congrArg Part.committer hz :), (congrArg Part.journal hz :)⟩
  · intro e x l s ha ht hgen hk hsel hd p L r vol n k pool ho hg hw hpw hpn hsv hpl
    have hlane : r.namedLane = some l := laneOf_eq_some.2 hsel
    have hnamed : namedRefusal r p = none := by simp only [namedRefusal, hlane, ho, if_true]
    obtain ⟨hl, hn⟩ := dataRefusal_none hd
    have hon : p.online l = true := (Bool.and_eq_true_iff.1 ho).2
    refine act_read_granted ha ht hgen hk hd hnamed hg hw hpw hpn (readStart_named hl hn hlane hon hsv hpl) ?_
    exact Part.firstRead_atRest ha e x true l
  · intro e x s ha ht hk hn hgen hkind hd p r k hg hw hlanes
    exact act_verify_noLane ha ht hk hn hgen hkind hd hg hw hlanes
  · intro e x w p he hs hw
    exact ⟨requestsDepart_verify he hs hw, fun hk hgot => requestBuffered_verify_cases he hs hw hk hgot⟩
  · intro e x w l next op r p ho he hw hnamed hone v start blocks completed rounds bufs hb hn
    refine operationEnded_read_nextRound ho he hw hnamed hone ?_ hb hn
    cases r <;> rfl
  · exact fun l at_ i ss bs b hb => mergeTries_at l at_ i ss bs b hb
  · exact runs_all
  · exact fun _ _ => rfl
  · intro p v member pointer
    obtain ⟨hme, hnext⟩ := spreadFirst_eq p v
    exact ⟨hme, hnext, p.nextTry_append v⟩

end Sys2Proof.Machine
end

section
/-!
DEFINE VOLUME from its label on: the checks, the volume entry, the fill and its end (R11 to R15, R45, R47).
-/
namespace Sys2Proof.Machine

/-! ## The label fetch -/

theorem labelFetched_fault {p : Part} {e : EntryId} {x : Entry} (h : p.entry e = some x) (hk : x.req.kind = kindDefine)
    (hs : x.state = .received) : labelFetched e none p = refuse e .busFault p := by
  simp [labelFetched, h, hk, hs]

theorem labelFetched_refused {p : Part} {e : EntryId} {x : Entry} (h : p.entry e = some x) (hk : x.req.kind = kindDefine)
    (hs : x.state = .received) {o : ReqOutcome} (ho : defineRefusal x.req p = some o) (label : List Byte) :
    labelFetched e (some label) p = refuse e o p := by
  simp [labelFetched, h, hk, hs, ho]

theorem labelFetched_taken {p : Part} {e : EntryId} {x : Entry} (h : p.entry e = some x) (hk : x.req.kind = kindDefine)
    (hs : x.state = .received) (ho : defineRefusal x.req p = none) (label : List Byte) :
    labelFetched e (some label) p = defineTake e x.req label p := by
  simp [labelFetched, h, hk, hs, ho]

/-- Checks 4 to 8 of R11, the 256 spare blocks taken from the capacity instead of added to the range. -/
theorem defineRefusal_eq (r : Request) (p : Part) :
    let f := r.defFirst.toNat
    let n := r.defLength.toNat
    let clash (w : VolId) : Bool := (p.vol w).inUse && decide ((p.vol w).members &&& r.members ≠ 0)
      && f < (p.vol w).first + (p.vol w).length && (p.vol w).first < f + n
    defineRefusal r p =
      if (p.vol r.volume).inUse then some .refusedVolume
      else if p.rebuild.state ≠ .idle then some .refusedBusy
      else if r.members.lanes.any fun l => !p.online l then some .refusedLane
      else if f < 2 || (r.members.lanes.any fun l => (p.lane l).capacity.toNat - 256 < f + n) then some .refusedRange
      else if allVols.any clash then some .refusedRange
      else none := by
  intro f n clash
  have hlanes : (!r.members.lanes.all p.online) = r.members.lanes.any fun l => !p.online l := List.not_all_eq_any_not ..
  have hrange : (f < 2 || r.members.lanes.any fun l => (p.lane l).capacity.toNat < f + n + 256) =
      (f < 2 || r.members.lanes.any fun l => (p.lane l).capacity.toNat - 256 < f + n) := by
    by_cases hf : f < 2
    · simp [hf]
    · have hone (c : Nat) : decide (c < f + n + 256) = decide (c - 256 < f + n) := by
        simp only [decide_eq_decide]
        omega
      simp only [hone]
  have hclash : (fun w => (p.vol w).inUse && ((p.vol w).members &&& r.members ≠ 0)
      && overlap f n (p.vol w).first (p.vol w).length) = clash := by
    funext w
    simp only [overlap, clash, Bool.and_assoc]
  unfold defineRefusal
  rw [← hclash, ← hrange, ← hlanes]

theorem defineRefusal_online {r : Request} {p : Part} (h : defineRefusal r p = none) :
    ∀ l ∈ r.members.lanes, p.online l = true := by
  unfold defineRefusal at h
  dsimp only at h
  split_ifs at h with hused hbusy hlanes
  simpa using hlanes

/-! ## TRUST (R13) -/

/-- The volume entry a DEFINE takes, in state `st`. -/
def Part.definedVolume (p : Part) (r : Request) (label : List Byte) (st : VolumeState) : Volume :=
  ⟨true, st, r.members, r.reference.getD 0, r.policy.getD .fixed, r.defFirst.toNat, r.defLength.toNat, label,
    r.reference.getD 0, (p.vol r.volume).hold⟩

theorem newVolume_eq {p : Part} {r : Request} {label : List Byte} (hl : label.length = 16) :
    r.newVolume label (p.vol r.volume).hold = p.definedVolume r label .filling := by
  have ht : (label ++ List.replicate 16 0).take 16 = label := by
    rw [← hl]
    exact List.take_left ..
  unfold Request.newVolume Part.definedVolume
  rw [ht]

/-- Members that are all ONLINE make the volume ACTIVE. -/
theorem derivedState_defined {p : Part} {v : VolId} {y : Volume} (hne : y.members.lanes ≠ [])
    (ho : ∀ l ∈ y.members.lanes, p.online l = true) : (p.setVol v y).derivedState v = .active := by
  have hon : (p.setVol v y).onlineMembers v = y.members.lanes := by
    unfold Part.onlineMembers
    rw [Part.vol_setVol, if_pos rfl]
    exact List.filter_eq_self.2 ho
  unfold Part.derivedState
  rw [hon, Part.vol_setVol, if_pos rfl]
  simp [hne]

theorem defineTake_trust {p : Part} {e : EntryId} {x : Entry} {label : List Byte} (h : p.entry e = some x)
    (hsel : x.req.selector = 0) (hne : x.req.members.lanes ≠ []) (ho : ∀ l ∈ x.req.members.lanes, p.online l = true)
    (hc : p.committing) (hl : label.length = 16) :
    defineTake e x.req label p = { p with
      volumes := p.volumes.set x.req.volume.val (p.definedVolume x.req label .active)
      table := p.table.set e.val (some (x.await .ok x.req.members 0 0))
      committer := { p.committer with requested := true } } := by
  set y := p.definedVolume x.req label .filling with hy
  have hstate : (p.setVol x.req.volume y).derivedState x.req.volume = .active := derivedState_defined hne ho
  have hmod : (p.setVol x.req.volume y).modVol x.req.volume (fun z => { z with state := .active }) =
      p.setVol x.req.volume (p.definedVolume x.req label .active) := by
    simp [Part.modVol, Part.setVol, hy, Part.definedVolume, Part.vol]
  unfold defineTake
  simp only [newVolume_eq hl, ← hy, hstate, hmod]
  refine (if_pos hsel).trans ?_
  exact awaitCommit_committing (p := p.setVol x.req.volume (p.definedVolume x.req label .active)) h hc x.req.members

/-! ## The pieces of a fill (R14) -/

theorem accepts_fill_enqueue (l m : LaneId) (op : LaneOp) (p : Part) : (enqueue l op p).accepts m .fill = p.accepts m .fill :=
  congrArg RuntimeState.serviceable (runtime_enqueue l m op p)

theorem laneChoose_volumes (l : LaneId) (p : Part) : (laneChoose l p).volumes = p.volumes := by
  rw [laneChoose_eq]
  split <;> rfl

theorem enqueue_volumes (l : LaneId) (op : LaneOp) (p : Part) : (enqueue l op p).volumes = p.volumes := by
  unfold enqueue
  dsimp only
  split
  · exact laneChoose_volumes ..
  · rfl

theorem enqueue_vol (l : LaneId) (op : LaneOp) (p : Part) (v : VolId) : (enqueue l op p).vol v = p.vol v := by
  unfold Part.vol
  rw [enqueue_volumes]

/-- Piece number `i` of a fill. -/
def fillOp (e : EntryId) (r : Request) (i : Nat) : LaneOp :=
  ⟨.foreground, .fill, r.defFirst.toNat + 65536 * i, min 65536 (r.defLength.toNat - 65536 * i), [], .request e, false⟩

section
variable {e : EntryId} {r : Request} {pieces : Nat} {g : FillLane} {p : Part}

/-- A member with no piece to issue, or with one in hand. -/
theorem fillIssue_rest (h : pieces ≤ g.next ∨ g.lost = true ∨ g.outstanding = true) : fillIssue e r pieces g p = (g, p) := by
  refine if_pos ?_
  simpa [or_assoc] using h

/-- What a member's next piece comes to. -/
theorem fillIssue_next (hn : g.next < pieces) (hl : g.lost = false) (ho : g.outstanding = false) :
    (p.accepts g.lane .fill = false → fillIssue e r pieces g p = ({ g with waitsHold := false, lost := true }, p))
    ∧ (p.accepts g.lane .fill = true → (p.vol r.volume).hold ≠ .none →
      fillIssue e r pieces g p = ({ g with waitsHold := true }, p))
    ∧ (p.accepts g.lane .fill = true → (p.vol r.volume).hold = .none → fillIssue e r pieces g p =
      ({ g with waitsHold := false, outstanding := true }, enqueue g.lane (fillOp e r g.next) p)) := by
  have hgo : ¬ (pieces ≤ g.next || g.lost || g.outstanding) = true := by simp [hl, ho, hn]
  unfold fillIssue
  refine ⟨fun ha => (if_neg hgo).trans (if_pos (by rw [ha]; rfl)), fun ha hh => ?_, fun ha hh => ?_⟩
  · exact (if_neg hgo).trans ((if_neg (by rw [ha]; decide)).trans (if_pos hh))
  · exact (if_neg hgo).trans ((if_neg (by rw [ha]; decide)).trans (if_neg (not_not.2 hh)))

/-- A member at its first piece. -/
abbrev FillLane.first (issued waits : Bool) (l : LaneId) : FillLane := ⟨l, 0, issued, false, waits⟩

/-- With a departure hold on the volume every member waits. -/
theorem fillIssueEach_held (hp : 0 < pieces) (hh : (p.vol r.volume).hold ≠ .none) {ls : List LaneId}
    (ha : ∀ l ∈ ls, p.accepts l .fill = true) :
    fillIssueEach e r pieces (fun _ => true) (ls.map (FillLane.first false false)) p =
      (ls.map (FillLane.first false true), p) := by
  induction ls with
  | nil => rfl
  | cons l ls ih =>
    have hstep : fillIssue e r pieces (FillLane.first false false l) p = (FillLane.first false true l, p) :=
      (fillIssue_next hp rfl rfl).2.1 (ha l List.mem_cons_self) hh
    simp only [List.map_cons, fillIssueEach, if_true, hstep, ih fun m hm => ha m (List.mem_cons_of_mem _ hm)]

/-- With no hold each member's first piece is issued. -/
theorem fillIssueEach_issued (hp : 0 < pieces) {ls : List LaneId} (hh : (p.vol r.volume).hold = .none)
    (ha : ∀ l ∈ ls, p.accepts l .fill = true) :
    fillIssueEach e r pieces (fun _ => true) (ls.map (FillLane.first false false)) p =
      (ls.map (FillLane.first true false), ls.foldl (fun q l => enqueue l (fillOp e r 0) q) p) := by
  induction ls generalizing p with
  | nil => rfl
  | cons l ls ih =>
    have hstep : fillIssue e r pieces (FillLane.first false false l) p =
        (FillLane.first true false l, enqueue l (fillOp e r 0) p) :=
      (fillIssue_next hp rfl rfl).2.2 (ha l List.mem_cons_self) hh
    have hrest := ih (p := enqueue l (fillOp e r 0) p) ((congrArg Volume.hold (enqueue_vol ..)).trans hh) fun m hm =>
      (accepts_fill_enqueue ..).trans (ha m (List.mem_cons_of_mem _ hm))
    simp only [List.map_cons, fillIssueEach, if_true, hstep, hrest, List.foldl_cons]

theorem fillIssueEach_none {which : FillLane → Bool} {fs : List FillLane} (h : ∀ y ∈ fs, which y = false) :
    fillIssueEach e r pieces which fs p = (fs, p) := by
  induction fs with
  | nil => rfl
  | cons y fs ih =>
    have hrest := ih fun z hz => h z (List.mem_cons_of_mem _ hz)
    simp only [fillIssueEach, h y List.mem_cons_self, Bool.false_eq_true, if_false, hrest]

/-- The next piece of one member. -/
theorem fillIssueEach_one {fs : List FillLane} (hg : g ∈ fs) (hd : (fs.map (·.lane)).Nodup) :
    let x := fillIssue e r pieces g p
    fillIssueEach e r pieces (fun y => y.lane = g.lane) fs p =
      (fs.map fun y => if y.lane = g.lane then x.1 else y, x.2) := by
  intro x
  induction fs with
  | nil => cases hg
  | cons y fs ih =>
    obtain ⟨hy, hd⟩ := List.nodup_cons.1 hd
    rcases List.mem_cons.1 hg with rfl | hg
    · have hother : ∀ z ∈ fs, z.lane ≠ g.lane := fun z hz h => hy (List.mem_map.2 ⟨z, hz, h⟩)
      have hrest : (fs.map fun z => if z.lane = g.lane then x.1 else z) = fs :=
        (List.map_congr_left fun z hz => if_neg (hother z hz)).trans (List.map_id _)
      rw [fillIssueEach, List.map_cons, hrest, if_pos rfl]
      simp only [decide_true, if_true]
      rw [fillIssueEach_none fun z hz => decide_eq_false (hother z hz)]
    · have hne : y.lane ≠ g.lane := fun h => hy (List.mem_map.2 ⟨g, hg, h.symm⟩)
      rw [fillIssueEach, List.map_cons, if_neg hne]
      simp only [hne, decide_false, Bool.false_eq_true, if_false, ih hg hd]

end

/-! ## ZERO (R14) -/

/-- A fill some member of which goes on does not end. -/
theorem fillTest_goesOn {p : Part} {e : EntryId} {x : Entry} {pieces : Nat} {fs : List FillLane} (h : p.entry e = some x)
    (hw : x.work = .fill pieces fs) (hg : ∃ g ∈ fs, g.lost = false ∧ g.filled pieces = false) : fillTest e p = p := by
  have hall : ¬ (fs.all fun g => g.lost || g.filled pieces) = true := by
    obtain ⟨g, hmem, hlost, hfilled⟩ := hg
    intro hall
    have := List.all_eq_true.1 hall g hmem
    simp [hlost, hfilled] at this
  unfold fillTest
  simp only [h, hw]
  exact if_neg hall

theorem pieceCount_eq (n : Nat) : pieceCount n = (n + 65535) / 65536 := by
  unfold pieceCount Config.fillPiece
  omega

/-- The part with a DEFINE's volume FILLING and its request at the lanes. -/
def Part.filling (p : Part) (e : EntryId) (x : Entry) (label : List Byte) : Part :=
  { p.setVol x.req.volume (p.definedVolume x.req label .filling) with
    table := p.table.set e.val (some { x with state := .atLanes }) }

section
variable {p : Part} {e : EntryId} {x : Entry} {label : List Byte}

theorem Part.filling_entry : (p.filling e x label).entry e = some { x with state := .atLanes } :=
  Part.entry_withTable_same (p.setVol x.req.volume (p.definedVolume x.req label .filling)) ..

theorem Part.filling_hold : ((p.filling e x label).vol x.req.volume).hold = (p.vol x.req.volume).hold := by
  have hv : (p.filling e x label).vol x.req.volume = p.definedVolume x.req label .filling := by
    simp [Part.filling, Part.vol, Part.setVol]
  rw [hv]
  rfl

theorem defineTake_zero (h : p.entry e = some x) (hsel : x.req.selector = 1) (hl : label.length = 16) :
    defineTake e x.req label p = fillGo e x.req (pieceCount x.req.defLength.toNat)
      (x.req.members.lanes.map (FillLane.first false false)) (fun _ => true) (p.filling e x label) := by
  unfold defineTake
  simp only [newVolume_eq hl]
  refine (if_neg (by simp [hsel])).trans ?_
  rw [setEntryState_eq (p := p.setVol x.req.volume (p.definedVolume x.req label .filling)) h]
  rfl

variable (h : p.entry e = some x) (hsel : x.req.selector = 1) (hl : label.length = 16) (hn : 1 ≤ x.req.defLength.toNat)
  (ho : ∀ l ∈ x.req.members.lanes, p.online l = true)
include h hsel hl hn ho

/-- The members begin with their first piece, or wait for a departure hold. -/
theorem defineTake_zero_cases :
    let q := p.filling e x label
    let work (issued waits : Bool) : Work :=
      .fill (pieceCount x.req.defLength.toNat) (x.req.members.lanes.map (FillLane.first issued waits))
    ((p.vol x.req.volume).hold ≠ .none →
      defineTake e x.req label p = (setWork e (work false true) q).push [.fillTest e])
    ∧ ((p.vol x.req.volume).hold = .none → defineTake e x.req label p =
      (setWork e (work true false) (x.req.members.lanes.foldl (fun q l => enqueue l (fillOp e x.req 0) q) q)).push
        [.fillTest e]) := by
  intro q work
  have hp : 0 < pieceCount x.req.defLength.toNat := by
    rw [pieceCount_eq]
    omega
  have ha : ∀ l ∈ x.req.members.lanes, q.accepts l .fill = true := fun l hmem => by
    have hrun : (p.lane l).runtime = .online := of_decide_eq_true (ho l hmem)
    show (p.lane l).runtime.serviceable = true
    rw [hrun]
    rfl
  refine ⟨fun hh => ?_, fun hh => ?_⟩
  · rw [defineTake_zero h hsel hl, fillGo, fillIssueEach_held hp (by rw [Part.filling_hold]; exact hh) ha]
  · rw [defineTake_zero h hsel hl, fillGo, fillIssueEach_issued hp (Part.filling_hold.trans hh) ha]

end

end Sys2Proof.Machine
end

section
/-!
O45, assembled: DEFINE from the end of its label fetch to the end of its fill.
-/
namespace Sys2Proof.Machine

/-! ## ZERO in one step -/

/-- The part of a fill whose members begin: `issued` with their first piece, or waiting for a hold. -/
def Part.fillBegun (p : Part) (e : EntryId) (x : Entry) (label : List Byte) (issued waits : Bool) : Part :=
  { p.setVol x.req.volume (p.definedVolume x.req label .filling) with
    table := p.table.set e.val (some { x with
      state := .atLanes
      work := .fill (pieceCount x.req.defLength.toNat) (x.req.members.lanes.map (FillLane.first issued waits)) }) }

section
variable {p : Part} {e : EntryId} {x : Entry} {label : List Byte} {issued waits : Bool}

theorem Part.fillBegun_entry : (p.fillBegun e x label issued waits).entry e = some { x with
    state := .atLanes
    work := .fill (pieceCount x.req.defLength.toNat) (x.req.members.lanes.map (FillLane.first issued waits)) } :=
  Part.entry_withTable_same (p.setVol x.req.volume (p.definedVolume x.req label .filling)) ..

theorem setWork_filling : setWork e
      (.fill (pieceCount x.req.defLength.toNat) (x.req.members.lanes.map (FillLane.first issued waits)))
      (p.filling e x label) = p.fillBegun e x label issued waits :=
  setWork_withTable (p.setVol x.req.volume (p.definedVolume x.req label .filling)) e { x with state := .atLanes } _

/-- A fill with a member at its first piece goes on. -/
theorem fillTest_begun {q : Part} (hn : 1 ≤ x.req.defLength.toNat) (hne : x.req.members.lanes ≠ [])
    (h : q.entry e = some { x with
      state := .atLanes
      work := .fill (pieceCount x.req.defLength.toNat) (x.req.members.lanes.map (FillLane.first issued waits)) }) :
    fillTest e q = q := by
  obtain ⟨l, ls, hls⟩ := List.exists_cons_of_ne_nil hne
  have hp : 0 < pieceCount x.req.defLength.toNat := by
    rw [pieceCount_eq]
    omega
  refine fillTest_goesOn h rfl ⟨FillLane.first issued waits l, ?_, rfl, ?_⟩
  · rw [hls]
    exact List.mem_cons_self
  · simp [FillLane.filled, hp.ne']

end

section
variable {s : State} {e : EntryId} {x : Entry} {label : List Byte} (ha : s.part.agenda = [])
  (h : s.part.entry e = some x) (hk : x.req.kind = kindDefine) (hs : x.state = .received)
  (hcheck : defineRefusal x.req s.part = none) (hsel : x.req.selector = 1) (hl : label.length = 16)
  (hn : 1 ≤ x.req.defLength.toNat) (ho : ∀ l ∈ x.req.members.lanes, s.part.online l = true)
  (hne : x.req.members.lanes ≠ [])
include ha h hk hs hcheck hsel hl hn ho hne

theorem exec_defineZero_held (hh : (s.part.vol x.req.volume).hold ≠ .none) :
    exec (.defineLabelFetched e (some label)) s = .next (s.withPart (s.part.fillBegun e x label false true)) := by
  refine State.act_of_push (t := .fillTest e) (q := s.part.fillBegun e x label false true) ?_ ha ?_ ?_
  · rw [labelFetched_taken h hk hs hcheck, (defineTake_zero_cases h hsel hl hn ho).1 hh, setWork_filling]
  · exact fillTest_begun hn hne Part.fillBegun_entry
  · exact Part.atRest_of_entry ha Part.fillBegun_entry

/-- With no hold each member's lane queues the first piece, and nothing else changes. -/
theorem exec_defineZero_issued (hh : (s.part.vol x.req.volume).hold = .none)
    (hb : ∀ l ∈ x.req.members.lanes, (s.part.lane l).service ≠ none ∧ (s.part.lane l).places < 16) :
    ∃ z : Part, exec (.defineLabelFetched e (some label)) s = .next (s.withPart z)
      ∧ z = { s.part.fillBegun e x label true false with lanes := z.lanes }
      ∧ ∀ l, z.lane l = if l ∈ x.req.members.lanes then { s.part.lane l with
          queue := (s.part.lane l).queue ++ [fillOp e x.req 0] } else s.part.lane l := by
  set p := s.part.fillBegun e x label true false with hp
  set z := x.req.members.lanes.foldl (fun q l => enqueue l (fillOp e x.req 0) q) p with hz
  have hnodup : (x.req.members.lanes.map id).Nodup := by
    rw [List.map_id]
    exact (List.nodup_finRange 4).filter _
  obtain ⟨hpart, hin, hout⟩ := foldl_enqueue_busy (lane := id) (fun _ => fillOp e x.req 0) hnodup (p := p) hb
  have htable : z.table = p.table := foldl_enqueue_table id (fun _ => fillOp e x.req 0) _ p
  have hentry : z.entry e = p.entry e := by
    unfold Part.entry
    rw [htable]
  rw [hp, Part.fillBegun_entry] at hentry
  have hset : setWork e (.fill (pieceCount x.req.defLength.toNat) (x.req.members.lanes.map (FillLane.first true false)))
      (x.req.members.lanes.foldl (fun q l => enqueue l (fillOp e x.req 0) q) (s.part.filling e x label)) = z := by
    refine (setWork_foldl_enqueue Part.filling_entry _ id (fun _ => fillOp e x.req 0) _).trans ?_
    simp only [Part.filling, Vector.set_set]
    rfl
  refine ⟨z, State.act_of_push (t := .fillTest e) (q := z) ?_ ?_ (fillTest_begun hn hne hentry) ?_, hpart, fun l => ?_⟩
  · rw [labelFetched_taken h hk hs hcheck, (defineTake_zero_cases h hsel hl hn ho).2 hh, hset]
  · rw [show z = _ from hpart]
    exact ha
  · refine Part.atRest_of_entry ?_ hentry
    rw [show z = _ from hpart]
    exact ha
  · split
    · next hmem => exact hin l hmem
    · next hmem => exact hout l (by simpa using hmem)

end

/-! ## The end of a piece (R14, R15) -/

/-- What the end of a piece makes of its member. -/
def FillLane.ended (g : FillLane) : OpEnd → FillLane
  | .completed _ _ => { g with outstanding := false, next := g.next + 1 }
  | .laneLost => { g with outstanding := false, lost := true }

theorem fillOpEnded_eq (e : EntryId) (r : Request) (pieces : Nat) (fs : List FillLane) (l : LaneId) (res : OpEnd) (p : Part) :
    fillOpEnded e r pieces fs l res p =
      fillGo e r pieces (fs.map fun y => if y.lane = l then y.ended res else y) (fun y => y.lane = l) p := by
  cases res <;> rfl

section
variable {p : Part} {e : EntryId} {x : Entry} {pieces : Nat} {fs : List FillLane} {op : LaneOp} {g : FillLane}

/-- The members with `h` in place of lane `l`'s. -/
def withMember (fs : List FillLane) (l : LaneId) (h : FillLane) : List FillLane := fs.map fun y => if y.lane = l then h else y

theorem FillLane.eq_of_lane {y : FillLane} (hd : (fs.map (·.lane)).Nodup) (hy : y ∈ fs) (hg : g ∈ fs) (h : y.lane = g.lane) :
    y = g := List.inj_on_of_nodup_map hd hy hg h

/-- The end of a member's piece: the member goes on by `fillIssue`. -/
theorem operationEnded_fill (he : p.entry e = some x) (hw : x.work = .fill pieces fs) (ho : op.producer = .request e)
    (hg : g ∈ fs) (hd : (fs.map (·.lane)).Nodup) {res : OpEnd} {h : FillLane} {q : Part}
    (hi : fillIssue e x.req pieces (g.ended res) p = (h, q)) :
    operationEnded g.lane op res p = (setWork e (.fill pieces (withMember fs g.lane h)) q).push [.fillTest e] := by
  have hlane : (g.ended res).lane = g.lane := by cases res <;> rfl
  have hnoted : (fs.map fun y => if y.lane = g.lane then y.ended res else y) = withMember fs g.lane (g.ended res) := by
    refine List.map_congr_left fun y hy => ?_
    by_cases hyl : y.lane = g.lane
    · rw [if_pos hyl, if_pos hyl, FillLane.eq_of_lane hd hy hg hyl]
    · rw [if_neg hyl, if_neg hyl]
  have hlanes : (withMember fs g.lane (g.ended res)).map (·.lane) = fs.map (·.lane) := by
    rw [withMember, List.map_map]
    refine List.map_congr_left fun y _ => ?_
    by_cases hyl : y.lane = g.lane <;> simp [hyl, hlane]
  have hmem : g.ended res ∈ withMember fs g.lane (g.ended res) := List.mem_map.2 ⟨g, hg, if_pos rfl⟩
  have hagain (h : FillLane) : ((withMember fs g.lane (g.ended res)).map fun y => if y.lane = g.lane then h else y) =
      withMember fs g.lane h := by
    rw [withMember, withMember, List.map_map]
    refine List.map_congr_left fun y _ => ?_
    by_cases hyl : y.lane = g.lane <;> simp [hyl, hlane]
  have hone := fillIssueEach_one (e := e) (r := x.req) (pieces := pieces) (p := p) hmem (by rw [hlanes]; exact hd)
  simp only [hlane, hi, hagain] at hone
  rw [operationEnded_request ho]
  have hgo : requestOpEnded e g.lane op res p =
      fillGo e x.req pieces (withMember fs g.lane (g.ended res)) (fun y => y.lane = g.lane) p := by
    rw [← hnoted]
    simp only [requestOpEnded, he, hw, fillOpEnded_eq]
  rw [hgo, fillGo, hone]

theorem setWork_enqueue (he : p.entry e = some x) (w : Work) (l : LaneId) (op : LaneOp) :
    setWork e w (enqueue l op p) = { enqueue l op p with table := p.table.set e.val (some { x with work := w }) } := by
  have ht := enqueue_table p l op
  have he' : (enqueue l op p).entry e = some x := by
    unfold Part.entry
    rw [ht]
    exact he
  rw [setWork_eq he', ht]

/-- The end of the piece of the member `g` that had it in hand: what becomes of the member. -/
theorem operationEnded_fill_cases (he : p.entry e = some x) (hw : x.work = .fill pieces fs) (ho : op.producer = .request e)
    (hg : g ∈ fs) (hd : (fs.map (·.lane)).Nodup) (hout : g.outstanding = true) (hwait : g.waitsHold = false) (res : OpEnd) :
    let after (h : FillLane) (q : Part) : Part :=
      ({ q with table := p.table.set e.val (some { x with work := .fill pieces (withMember fs g.lane h) }) }).push [.fillTest e]
    (res = .laneLost → operationEnded g.lane op res p = after { g with outstanding := false, lost := true } p)
    ∧ ∀ ss remapped, g.lost = false → res = .completed ss remapped →
      (pieces ≤ g.next + 1 →
        operationEnded g.lane op res p = after { g with outstanding := false, next := g.next + 1 } p)
      ∧ (g.next + 1 < pieces → p.serviceable g.lane = false → operationEnded g.lane op res p =
        after { g with outstanding := false, next := g.next + 1, lost := true } p)
      ∧ (g.next + 1 < pieces → p.serviceable g.lane = true → (p.vol x.req.volume).hold ≠ .none →
        operationEnded g.lane op res p = after { g with outstanding := false, next := g.next + 1, waitsHold := true } p)
      ∧ (g.next + 1 < pieces → p.serviceable g.lane = true → (p.vol x.req.volume).hold = .none →
        operationEnded g.lane op res p =
          after { g with next := g.next + 1 } (enqueue g.lane (fillOp e x.req (g.next + 1)) p)) := by
  intro after
  have hafter {h : FillLane} (hi : fillIssue e x.req pieces (g.ended res) p = (h, p)) :
      operationEnded g.lane op res p = after h p := by
    rw [operationEnded_fill he hw ho hg hd hi, setWork_eq he]
  refine ⟨fun hres => ?_, fun ss remapped hlost hres => ?_⟩
  · subst hres
    exact hafter (fillIssue_rest (.inr (.inl rfl)))
  · subst hres
    refine ⟨fun hn => hafter (fillIssue_rest (.inl hn)), fun hn hsv => ?_, fun hn hsv hh => ?_, fun hn hsv hh => ?_⟩
    · have hi := (fillIssue_next (e := e) (r := x.req) (p := p) (g := g.ended (.completed ss remapped)) hn hlost rfl).1 hsv
      have hsame : ({ g with waitsHold := false } : FillLane) = g := by rw [← hwait]
      rw [hafter hi]
      exact congrArg (fun y : FillLane => after { y with outstanding := false, next := y.next + 1, lost := true } p) hsame
    · exact hafter ((fillIssue_next (g := g.ended (.completed ss remapped)) hn hlost rfl).2.1 hsv hh)
    · have hi := (fillIssue_next (e := e) (r := x.req) (g := g.ended (.completed ss remapped)) hn hlost rfl).2.2 hsv hh
      rw [operationEnded_fill he hw ho hg hd hi]
      have hsame : ({ g with waitsHold := false, outstanding := true } : FillLane) = g := by rw [← hwait, ← hout]
      refine (congrArg (fun q : Part => q.push [.fillTest e]) (setWork_enqueue he _ _ _)).trans ?_
      exact congrArg (fun y : FillLane => after { y with next := y.next + 1 }
        (enqueue g.lane (fillOp e x.req (g.next + 1)) p)) hsame

end

/-! ## The end of a fill (R15) -/

/-- A departure marks the fill's members of its lane, and the fill is tested. -/
theorem requestsDepart_fill {p : Part} {e : EntryId} {x : Entry} {pieces : Nat} {fs : List FillLane} (h : p.entry e = some x)
    (hs : x.state = .atLanes) (hw : x.work = .fill pieces fs) (l : LaneId) :
    (requestsDepart l p).entry e = some { x with work := .fill pieces (fs.map (FillLane.depart pieces l)) }
    ∧ .fillTest e ∈ (requestsDepart l p).agenda := by
  constructor
  · have ht : (requestsDepart l p).entry e = (p.entry e).map (Entry.depart l) := by
      simp [requestsDepart, holdVolumes, Part.entry]
    rw [ht, h]
    simp [Entry.depart, Entry.loseTarget, Entry.departFill, Entry.departVerify, hs, hw]
  · refine List.mem_append_right _ (List.mem_map_of_mem ?_)
    refine List.mem_map.2 ⟨(e, x), List.mem_filter.2 ⟨Part.mem_entries.2 h, ?_⟩, rfl⟩
    simp [hw]

/-- A volume leaves FILLING in RUNNING with a commit in flight: its new state is reported and the request waits. -/
theorem awaitCommit_reported {p : Part} {e : EntryId} {x : Entry} (h : p.entry e = some x) (hc : p.committing)
    (hrun : p.engine.state = .running) (v : VolId) (new : VolumeState) (l : LaneId) (tag : Word) (mask : LaneMask) :
    awaitCommit e mask (passVolumeState v .filling new (some l) tag (p.modVol v fun y => { y with state := new })) =
      { p with
        volumes := p.volumes.set v.val { p.vol v with state := new }
        table := p.table.set e.val (some (x.await .ok mask 0 0))
        committer := { p.committer with requested := true }
        journal := p.journal.take (volumeStateEvent v .filling new (some l) tag) } := by
  set q := p.modVol v fun y => { y with state := new } with hq
  have hna : q.engine.state ≠ .attaching := fun h => absurd (hrun.symm.trans h) (by decide)
  have hnd : q.engine.state ≠ .detached := fun h => absurd (hrun.symm.trans h) (by decide)
  have hnf : q.engine.state ≠ .faulted := fun h => absurd (hrun.symm.trans h) (by decide)
  have htold : passVolumeState v .filling new (some l) tag q =
      { q with journal := q.journal.take (volumeStateEvent v .filling new (some l) tag) } :=
    (if_neg hna).trans (passEvent_taken _ _ hnd hnf)
  rw [htold]
  exact awaitCommit_committing
    (p := { q with journal := q.journal.take (volumeStateEvent v .filling new (some l) tag) }) h hc mask

section
variable {p : Part} {e : EntryId} {x : Entry} {pieces : Nat} {fs : List FillLane} (h : p.entry e = some x)
  (hw : x.work = .fill pieces fs) (hall : ∀ g ∈ fs, g.lost = true ∨ g.filled pieces = true)
include h hw hall

theorem fillTest_ends : fillTest e p = fillEnd e x.req pieces fs p := by
  unfold fillTest
  simp only [h, hw]
  exact if_pos (List.all_eq_true.2 fun g hg => by simpa using hall g hg)

/-- The fill's request with what the fill leaves of its work. -/
theorem fillTest_ends_cases :
    let v := x.req.volume
    let left := (fs.filter (·.outstanding)).length
    let freed : Part := p.setVol v .clear
    (p.onlineMembers v = [] →
      (left = 0 → fillTest e p =
        complete e .failedMedia 0 0 0 { freed with table := p.table.set e.val (some { x with work := .none }) })
      ∧ (left ≠ 0 → fillTest e p = { freed with
          table := p.table.set e.val (some { x with work := fillRest left, outcome := .failedMedia }) }))
    ∧ (p.onlineMembers v ≠ [] → p.committing → p.engine.state = .running →
      fillTest e p =
        { passEvent (volumeStateEvent v .filling (p.derivedState v) (some (p.vol v).reference) x.req.tag) p with
          volumes := p.volumes.set v.val { p.vol v with state := p.derivedState v }
          table := p.table.set e.val (some (({ x with work := fillRest left } : Entry).await .ok
            (LaneMask.ofList ((fs.filter (FillLane.filled pieces)).map (·.lane))) 0 0))
          committer := { p.committer with requested := true } }) := by
  intro v left freed
  rw [fillTest_ends h hw hall]
  unfold fillEnd
  simp only [setWork_eq h]
  refine ⟨fun hon => ?_, fun hon hc hrun => ?_⟩
  · have hempty : (p.onlineMembers v).isEmpty = true := by rw [hon]; rfl
    refine ⟨fun hleft => ?_, fun hleft => ?_⟩
    · refine (if_pos hempty).trans ((if_pos hleft).trans ?_)
      rw [show (fs.filter (·.outstanding)).length = 0 from hleft]
      rfl
    · refine (if_pos hempty).trans ((if_neg hleft).trans ?_)
      refine (Part.modEntry_eq (x := { x with work := fillRest left })
        (Part.entry_withTable_same (p.setVol v .clear) ..) _).trans ?_
      simp [freed]
  · refine (if_neg fun hempty => hon (List.isEmpty_iff.1 hempty)).trans ?_
    have hnd : p.engine.state ≠ .detached := by rw [hrun]; decide
    have hnf : p.engine.state ≠ .faulted := by rw [hrun]; decide
    refine (awaitCommit_reported (p := { p with table := p.table.set e.val (some { x with work := fillRest left }) })
      (Part.entry_withTable_same p ..) hc hrun v (p.derivedState v) (p.vol v).reference x.req.tag _).trans ?_
    rw [passEvent_taken _ _ hnd hnf]
    simp only [Vector.set_set]
    rfl

end

/-! ## The pieces left over (R15) -/

section
variable {p : Part} {e : EntryId} {x : Entry} (h : p.entry e = some x)
include h

theorem operationEnded_fillLeft {n : Nat} {op : LaneOp} (hw : x.work = .fillLeft n) (ho : op.producer = .request e)
    (l : LaneId) (res : OpEnd) :
    let idle : Part := { p with table := p.table.set e.val (some { x with work := .none }) }
    (2 ≤ n → operationEnded l op res p = { p with table := p.table.set e.val (some { x with work := .fillLeft (n - 1) }) })
    ∧ (n ≤ 1 →
      (x.mark = .none → operationEnded l op res p = complete e x.outcome x.laneMask x.detailA x.detailB idle)
      ∧ (x.mark ≠ .none → operationEnded l op res p = idle)) := by
  intro idle
  have hleft : operationEnded l op res p = fillLeftEnded e x n p := by
    rw [operationEnded_request ho]
    simp only [requestOpEnded, h, hw]
  have hidle : n ≤ 1 → setWork e (fillRest (n - 1)) p = idle := fun hn => by
    rw [show n - 1 = 0 by omega, setWork_eq h]
    rfl
  rw [hleft]
  unfold fillLeftEnded
  refine ⟨fun hn => ?_, fun hn => ⟨fun hm => ?_, fun hm => ?_⟩⟩
  · refine (if_neg (by simp; omega)).trans ?_
    rw [setWork_eq h, fillRest, if_neg (by omega)]
  · rw [hidle hn]
    exact if_pos (by simp [hn, hm])
  · rw [hidle hn]
    exact if_neg (by simp [hm])

theorem waiterDone_cases (hs : x.state = .waitCommit) (hm : x.mark = .none) :
    (x.work = .none → waiterDone e p = complete e x.outcome x.laneMask x.detailA x.detailB p)
    ∧ (x.work ≠ .none → waiterDone e p = p) := by
  unfold waiterDone
  simp only [h, hs, hm]
  exact ⟨fun hw => if_pos (by simp [hw]), fun hw => if_neg (by simp [hw])⟩

end

/-! ## O45 -/

/-- Settles O45. -/
theorem defineTakesTheVolumeEntry : Obligations.DefineTakesTheVolumeEntry := by
  unfold Obligations.DefineTakesTheVolumeEntry
  refine ⟨?_, ?_, ?_, ?_, ?_⟩
  · intro e x s label ha he hk hs hkept hn p r v f n clash check
    have hcheck : defineRefusal r p = check := defineRefusal_eq r p
    have hrefused {fetched : Option (List Byte)} {o : ReqOutcome} (hf : labelFetched e fetched p = refuse e o p) :
        exec (.defineLabelFetched e fetched) s = .next (s.withPart (p.finished e x o 0 0 0)) := by
      have hfin : labelFetched e fetched p = p.finished e x o 0 0 0 := hf.trans (refuse_idle hkept hn he o)
      have hrest : (labelFetched e fetched p).atRest := by
        rw [hfin]
        exact Part.atRest_finished ha ..
      exact (State.act_of_rest hrest).trans (by rw [hfin])
    refine ⟨hrefused (labelFetched_fault he hk hs), fun o ho => hrefused (labelFetched_refused he hk hs (hcheck.trans ho) label),
      fun hnone hsel hne hc hl => ?_, fun hnone hsel hne hlen hl => ?_⟩
    · have htake := (labelFetched_taken he hk hs (hcheck.trans hnone) label).trans
        (defineTake_trust he hsel hne (defineRefusal_online (hcheck.trans hnone)) hc hl)
      refine (State.act_of_rest (f := labelFetched e (some label)) ?_).trans (by rw [htake]; rfl)
      rw [htake]
      exact Part.atRest_of_entry ha (Part.entry_withTable_same p ..)
    · have ho := defineRefusal_online (hcheck.trans hnone)
      refine ⟨fun hh => exec_defineZero_held ha he hk hs (hcheck.trans hnone) hsel hl hlen ho hne hh, fun hh hb => ?_⟩
      obtain ⟨z, hz, hpart, hlane⟩ := exec_defineZero_issued ha he hk hs (hcheck.trans hnone) hsel hl hlen ho hne hh hb
      exact ⟨s.withPart z, hz, (congrArg Part.table hpart :), (congrArg Part.volumes hpart :), hlane,
        (congrArg Part.committer hpart :), (congrArg Part.locks hpart :), (congrArg Part.pool hpart :),
        (congrArg Part.docket hpart :), (congrArg Part.journal hpart :), (congrArg Part.engine hpart :)⟩
  · intro e x p pieces fs l op res g he hs hw ho hg hl hd hout hwait
    subst hl
    exact operationEnded_fill_cases he hw ho hg hd hout hwait res
  · exact fun e x p pieces fs l he hs hw => requestsDepart_fill he hs hw l
  · intro e x p pieces fs he hs hw r v filled left rest freed
    exact ⟨fillTest_goesOn he hw, fillTest_ends_cases he hw⟩
  · intro e x p he finished
    exact ⟨fun n l op res hw ho => operationEnded_fillLeft he hw ho l res, waiterDone_cases he⟩

end Sys2Proof.Machine
end

section
/-!
Departures (R43 to R46, R163): what a change of runtime state and a departure hand on.
-/
namespace Sys2Proof.Machine

/-! ## A lane's change of runtime state, in every engine state (R42) -/

theorem passVolumeState_eq (v : VolId) (old new : VolumeState) (l : Option LaneId) (tag : Word) (p : Part) :
    ∃ j, passVolumeState v old new l tag p = { p with journal := j } := by
  unfold passVolumeState
  split
  · exact ⟨p.journal, rfl⟩
  · exact passEvent_eq _ _

theorem deriveVolume_eq (l : Option LaneId) (tag : Word) (p : Part) (v : VolId) :
    ∃ vs j, deriveVolume l tag p v = { p with volumes := vs, journal := j } := by
  unfold deriveVolume
  dsimp only
  split
  · exact ⟨p.volumes, p.journal, rfl⟩
  · obtain ⟨j, hj⟩ := passVolumeState_eq v (p.vol v).state (p.derivedState v) l tag
      (p.modVol v fun x => { x with state := p.derivedState v })
    exact ⟨_, j, hj⟩

/-- Deriving changes the volume table and the journal alone. -/
theorem deriveVolumes_eq (l : LaneId) (tag : Word) (p : Part) :
    ∃ vs j, deriveVolumes l tag p = { p with volumes := vs, journal := j } := by
  have hfold (ws : List VolId) : ∃ vs j,
      ws.foldl (fun q v => if (q.vol v).members.has l then deriveVolume (some l) tag q v else q) p =
        { p with volumes := vs, journal := j } := by
    induction ws using List.reverseRecOn with
    | nil => exact ⟨p.volumes, p.journal, rfl⟩
    | append_singleton ws w ih =>
      obtain ⟨vs, j, hq⟩ := ih
      rw [List.foldl_append, hq, List.foldl_cons, List.foldl_nil]
      split
      · obtain ⟨vs', j', h⟩ := deriveVolume_eq (some l) tag { p with volumes := vs, journal := j } w
        exact ⟨vs', j', h⟩
      · exact ⟨vs, j, rfl⟩
  unfold deriveVolumes
  split
  · exact ⟨p.volumes, p.journal, rfl⟩
  · exact hfold allVols

theorem changeRuntime_eq (l : LaneId) (new : RuntimeState) (c : LaneCause) (tag : Word) (p : Part) :
    ∃ vs j, changeRuntime l new c tag p =
      ({ p.setLane l { p.lane l with runtime := new } with volumes := vs, journal := j } : Part).push [.patrolTry] := by
  unfold changeRuntime
  dsimp only [Part.modLane]
  split
  · obtain ⟨vs, j, h⟩ := deriveVolumes_eq l tag (p.setLane l { p.lane l with runtime := new })
    exact ⟨vs, j, by rw [h]⟩
  · obtain ⟨i, hi⟩ := passEvent_eq (laneStateEvent l (p.lane l).runtime new c tag)
      (p.setLane l { p.lane l with runtime := new })
    obtain ⟨vs, j, h⟩ := deriveVolumes_eq l tag { p.setLane l { p.lane l with runtime := new } with journal := i }
    exact ⟨vs, j, by rw [hi, h]⟩

/-! ## What a departure leaves in hand -/

/-- `q` has handed on all that `p` has, and perhaps more, with the same engine state and a commit in flight as before. -/
structure Part.Grows (p q : Part) : Prop where
  engine : q.engine = p.engine
  inFlight : q.committer.inFlight.isSome = p.committer.inFlight.isSome
  agenda : ∃ ts, q.agenda = p.agenda ++ ts

theorem Part.Grows.of_same {p q : Part} (he : q.engine = p.engine)
    (hc : q.committer.inFlight.isSome = p.committer.inFlight.isSome) (ha : q.agenda = p.agenda) : p.Grows q :=
  ⟨he, hc, [], by simp [ha]⟩

theorem Part.Grows.refl (p : Part) : p.Grows p := .of_same rfl rfl rfl

theorem Part.Grows.trans {p q r : Part} (h : p.Grows q) (g : q.Grows r) : p.Grows r := by
  obtain ⟨ts, ht⟩ := h.agenda
  obtain ⟨us, hu⟩ := g.agenda
  exact ⟨g.engine.trans h.engine, g.inFlight.trans h.inFlight, ts ++ us, by rw [hu, ht, List.append_assoc]⟩

theorem Part.Grows.push {p q : Part} (h : p.Grows q) (ts : List Task) : p.Grows (q.push ts) :=
  h.trans ⟨rfl, rfl, ts, rfl⟩

theorem Part.Grows.of_pushed {p q : Part} {ts : List Task} (he : q.engine = p.engine)
    (hc : q.committer.inFlight.isSome = p.committer.inFlight.isSome) (ha : q.agenda = p.agenda) : p.Grows (q.push ts) :=
  (of_same he hc ha).push ts

theorem Part.Grows.committing {p q : Part} (h : p.Grows q) (hc : p.committing) : q.committing := by
  obtain ⟨hf, hs⟩ := hc
  exact ⟨h.inFlight.trans hf, by rw [h.engine]; exact hs⟩

theorem grows_passEvent (e : Event) (p : Part) : p.Grows (passEvent e p) :=
  .of_same (passEvent_engine ..) (by rw [passEvent_committer]) (passEvent_agenda ..)

theorem grows_changeRuntime (l : LaneId) (new : RuntimeState) (c : LaneCause) (tag : Word) (p : Part) :
    p.Grows (changeRuntime l new c tag p) := by
  obtain ⟨vs, j, h⟩ := changeRuntime_eq l new c tag p
  rw [h]
  exact Part.Grows.of_pushed rfl rfl rfl

/-- The REBUILD event of an abort (R163). -/
def Part.abortEvent (p : Part) (l : LaneId) (c : DepartureCause) (tag : Word) : Event :=
  rebuildEvent (some l) (some p.rebuild.cursorVol) (departureLaneCause c).code p.rebuild.cursorBlock p.rebuild.copied
    (p.rebuild.skip.setWidth 32) (if c = .retire then tag else 0)

/-- The part whose rebuild has been aborted, before the unit lets go. -/
def Part.aborted (p : Part) (l : LaneId) (c : DepartureCause) (tag : Word) : Part :=
  { passEvent (p.abortEvent l c tag) p with rebuild := { p.rebuild with aborting := true } }

theorem rebuildDepart_aborts {p : Part} {l : LaneId} (h : p.rebuilds l = true) (c : DepartureCause) (tag : Word) :
    rebuildDepart l c tag p = (p.aborted l c tag).push [.rebuildLeave] := if_pos h

theorem rebuildDepart_none {p : Part} {l : LaneId} (h : ¬ p.rebuilds l = true) (c : DepartureCause) (tag : Word) :
    rebuildDepart l c tag p = p := if_neg h

theorem grows_aborted (l : LaneId) (c : DepartureCause) (tag : Word) (p : Part) : p.Grows (p.aborted l c tag) := by
  have hmark : (passEvent (p.abortEvent l c tag) p).Grows (p.aborted l c tag) := .of_same rfl rfl rfl
  exact (grows_passEvent ..).trans hmark

theorem grows_rebuildDepart (l : LaneId) (c : DepartureCause) (tag : Word) (p : Part) : p.Grows (rebuildDepart l c tag p) := by
  by_cases h : p.rebuilds l = true
  · rw [rebuildDepart_aborts h]
    exact (grows_aborted l c tag p).push _
  · rw [rebuildDepart_none h]
    exact .refl p

theorem grows_departLane (l : LaneId) (c : DepartureCause) (tag : Word) (p : Part) : p.Grows (departLane l c tag p) := by
  have hdrawn : p.Grows { p with free := p.free + 1 } := .of_same rfl rfl rfl
  unfold departLane
  dsimp only
  split
  · split
    · exact (hdrawn.trans (grows_rebuildDepart ..)).trans (grows_changeRuntime ..)
    · exact (hdrawn.trans (grows_changeRuntime ..)).trans (grows_rebuildDepart ..)
  · exact grows_changeRuntime ..

theorem grows_admitDiscovery (d : Discovery) (p : Part) : p.Grows (admitDiscovery d p) := by
  unfold admitDiscovery
  split
  · exact .refl p
  split
  · exact .of_same rfl rfl rfl
  split
  · exact Part.Grows.of_pushed rfl rfl rfl
  split
  · unfold holdDiscovery
    dsimp only
    split
    · exact Part.Grows.of_pushed rfl rfl rfl
    · exact .of_same rfl rfl rfl
  · have hdrop : p.Grows { p with repair := { p.repair with dropped := satInc p.repair.dropped, episode := true } } :=
      .of_same rfl rfl rfl
    unfold dropDiscovery
    dsimp only
    split
    · exact hdrop
    · exact hdrop.trans (grows_passEvent ..)

theorem grows_serveWaiter (ds : List Discovery) (p : Part) : p.Grows (serveWaiter ds p) := by
  induction ds generalizing p with
  | nil => exact .of_same rfl rfl rfl
  | cons d ds ih =>
    have hwait : p.Grows { p with repair := { p.repair with waiter := ds } } := .of_same rfl rfl rfl
    unfold serveWaiter
    split
    · exact (hwait.trans (grows_admitDiscovery ..)).trans (ih _)
    · exact .of_same rfl rfl rfl

theorem grows_removeEntries (gone : DiscEntry → Bool) (p : Part) : p.Grows (removeEntries gone p) := by
  have hcut : p.Grows { p with repair := { p.repair with list := p.repair.list.filter fun x => !gone x } } :=
    .of_same rfl rfl rfl
  unfold removeEntries afterRemoval
  split
  · dsimp only
    refine Part.Grows.push (hcut.trans ((grows_serveWaiter p.repair.waiter _).trans ?_)) _
    split
    · exact .of_same rfl rfl rfl
    · exact .refl _
  · exact .refl p

theorem grows_removeLane (l : LaneId) (p : Part) : p.Grows (removeLane l p) := by
  unfold removeLane
  dsimp only
  refine Part.Grows.trans ?_ (grows_removeEntries _ _)
  split
  · split
    · exact Part.Grows.of_pushed rfl rfl rfl
    · exact .refl p
  · exact .refl p

theorem grows_requestsDepart (l : LaneId) (p : Part) : p.Grows (requestsDepart l p) :=
  Part.Grows.of_pushed rfl rfl rfl

theorem grows_patrolDepart (l : LaneId) (p : Part) : p.Grows (patrolDepart l p) := .of_same rfl rfl rfl

theorem grows_settleFault (l : LaneId) (p : Part) : p.Grows (settleFault l p) :=
  Part.Grows.of_pushed rfl (by simp) rfl

theorem grows_neighboursDepart (l : LaneId) (p : Part) : p.Grows (neighboursDepart l p) :=
  (((grows_requestsDepart l p).trans (grows_patrolDepart l _)).trans (grows_removeLane l _)).trans (grows_settleFault l _)

/-! ## A departure -/

/-- The lane with its work cleared and its recorded state set. -/
def Lane.departing (L : Lane) (c : DepartureCause) : Lane :=
  let K := L.cleared (c = .presenceLost)
  { (if c = .presenceLost then K.unidentified else K) with recorded := departedRecorded c }

/-- The operations that a departure ends at once, as they are handed on. -/
def Lane.endedTasks (L : Lane) (l : LaneId) (c : DepartureCause) : List Task :=
  (L.endedBy (c = .presenceLost)).map fun op => Task.opEnded l op .laneLost

theorem Part.setLane_modLane (p : Part) (l : LaneId) (x : Lane) (f : Lane → Lane) :
    (p.setLane l x).modLane l f = p.setLane l (f x) := by
  unfold Part.modLane
  rw [Part.lane_setLane, if_pos rfl]
  simp [Part.setLane]

theorem depart_notServiceable {p : Part} {l : LaneId} (h : p.serviceable l = false) (c : DepartureCause) (tag : Word) :
    depart l c tag p = p := by
  unfold depart
  simp [h]

/-- The lane's own part of a departure, before its states, the events and the neighbours. -/
theorem depart_eq {p : Part} {l : LaneId} (h : p.serviceable l = true) (c : DepartureCause) (tag : Word) :
    let q := departLane l c tag ((p.setLane l ((p.lane l).departing c)).push ((p.lane l).endedTasks l c))
    depart l c tag p = requestCommit (if q.engine.state = .faulted then q else neighboursDepart l q) := by
  intro q
  have hclear : (clearLaneWork l (c = .presenceLost) p).modLane l (fun L =>
        { (if (decide (c = .presenceLost)) = true then L.unidentified else L) with recorded := departedRecorded c }) =
      (p.setLane l ((p.lane l).departing c)).push ((p.lane l).endedTasks l c) := by
    have hmod := p.setLane_modLane l ((p.lane l).cleared (c = .presenceLost)) fun L =>
      { (if (decide (c = .presenceLost)) = true then L.unidentified else L) with recorded := departedRecorded c }
    have hdep : (p.lane l).departing c =
        (fun L : Lane => ({ (if (decide (c = .presenceLost)) = true then L.unidentified else L) with
          recorded := departedRecorded c } : Lane)) ((p.lane l).cleared (c = .presenceLost)) := by
      simp [Lane.departing]
    rw [hdep, ← hmod]
    rfl
  unfold depart
  refine (if_neg (by simp [h])).trans ?_
  dsimp only
  rw [hclear]

/-- With a commit in flight a departure hands on the operations that it ends before anything else. -/
theorem depart_agenda {p : Part} {l : LaneId} (ha : p.agenda = []) (h : p.serviceable l = true) (hc : p.committing)
    (c : DepartureCause) (tag : Word) : ∃ rest, (depart l c tag p).agenda = (p.lane l).endedTasks l c ++ rest := by
  set p1 := (p.setLane l ((p.lane l).departing c)).push ((p.lane l).endedTasks l c) with hp1
  have hown : p.Grows p1 := Part.Grows.of_pushed rfl rfl rfl
  have hp1a : p1.agenda = (p.lane l).endedTasks l c := by
    rw [hp1, Part.push_agenda, Part.setLane_agenda, ha, List.nil_append]
  have hq := grows_departLane l c tag p1
  have hall : p1.Grows (if (departLane l c tag p1).engine.state = .faulted then departLane l c tag p1
      else neighboursDepart l (departLane l c tag p1)) := by
    split
    · exact hq
    · exact hq.trans (grows_neighboursDepart ..)
  obtain ⟨rest, hrest⟩ := hall.agenda
  refine ⟨rest, ?_⟩
  rw [depart_eq h, ← hp1, requestCommit_committing (hall.committing (hown.committing hc)), ← hp1a]
  exact hrest

end Sys2Proof.Machine
end

section
/-!
Departures: the derived volume states and their events, and the tasks that a departure hands on, taken one after another.
-/
namespace Sys2Proof.Machine

/-! ## Derivations with their events (R4, R5) -/

/-- The engine takes events: it is RUNNING, HALTING or HALTED. -/
def Part.takesEvents (p : Part) : Prop := p.engine.state = .running ∨ p.engine.state = .halting ∨ p.engine.state = .halted

theorem passEvent_journal {p : Part} (h : p.takesEvents) (e : Event) :
    passEvent e p = { p with journal := p.journal.take e } :=
  passEvent_taken _ _ (by rcases h with h | h | h <;> rw [h] <;> decide) (by rcases h with h | h | h <;> rw [h] <;> decide)

/-- The derivation of lane `l`'s volumes changes the state of volume `v`. -/
def Part.changesState (p : Part) (l : LaneId) (v : VolId) : Bool :=
  p.ready v && (p.vol v).members.has l && decide (p.derivedState v ≠ (p.vol v).state)

/-- The volume entry once lane `l`'s volumes are derived. -/
def Part.rederivedVol (p : Part) (l : LaneId) (v : VolId) : Volume :=
  if p.ready v && (p.vol v).members.has l then { p.vol v with state := p.derivedState v } else p.vol v

/-- The events of the derivation, in the order of `vs`. -/
def Part.stateEvents (p : Part) (l : LaneId) (tag : Word) (vs : List VolId) : List Event :=
  (vs.filter (p.changesState l)).map fun v => volumeStateEvent v (p.vol v).state (p.derivedState v) (some l) tag

theorem Part.derivedState_congr {p q : Part} {v : VolId} (hm : (q.vol v).members = (p.vol v).members)
    (ho : ∀ l, q.online l = p.online l) : q.derivedState v = p.derivedState v := by
  unfold Part.derivedState Part.onlineMembers
  rw [hm, show q.online = p.online from funext ho]

section
variable {p : Part} {l : LaneId} {v : VolId} {tag : Word}

theorem Part.rederivedVol_of_not (h : p.changesState l v = false) : p.rederivedVol l v = p.vol v := by
  unfold Part.rederivedVol
  by_cases hc : (p.ready v && (p.vol v).members.has l) = true
  · have hsame : p.derivedState v = (p.vol v).state := by simpa [Part.changesState, hc] using h
    rw [if_pos hc, hsame]
  · rw [if_neg hc]

/-- One volume's derivation, where the lane is a member: nothing, or the new state and its event. -/
theorem deriveVolume_step (h : p.takesEvents) :
    (if (p.vol v).members.has l then deriveVolume (some l) tag p v else p) =
      if p.changesState l v then
        { p.setVol v (p.rederivedVol l v) with
          journal := p.journal.take (volumeStateEvent v (p.vol v).state (p.derivedState v) (some l) tag) }
      else p := by
  have hna : p.engine.state ≠ .attaching := by rcases h with h | h | h <;> rw [h] <;> decide
  unfold deriveVolume
  by_cases hm : (p.vol v).members.has l = true
  · by_cases hr : p.ready v = true
    · by_cases hs : p.derivedState v = (p.vol v).state
      · simp [Part.changesState, hm, hr, hs]
      · have htold := passEvent_journal (p := p.modVol v fun x => { x with state := p.derivedState v }) h
          (volumeStateEvent v (p.vol v).state (p.derivedState v) (some l) tag)
        have hvol : p.rederivedVol l v = { p.vol v with state := p.derivedState v } := if_pos (by simp [hm, hr])
        have hc : p.changesState l v = true := by simp [Part.changesState, hm, hr, hs]
        refine (if_pos hm).trans ((if_neg (by simp [hr, hs])).trans (((if_neg hna).trans htold).trans ?_))
        rw [if_pos hc, hvol]
        rfl
    · simp [Part.changesState, hm, hr]
  · simp [Part.changesState, hm]

/-- A step of the derivation changes neither who is derived, nor from what, nor to what. -/
structure Part.SameDerivation (p q : Part) : Prop where
  engine : q.engine = p.engine
  online : ∀ k, q.online k = p.online k
  members : ∀ w, (q.vol w).members = (p.vol w).members
  ready : ∀ w, q.ready w = p.ready w

theorem Part.SameDerivation.derivedState {p q : Part} (h : p.SameDerivation q) (w : VolId) :
    q.derivedState w = p.derivedState w := Part.derivedState_congr (h.members w) h.online

theorem Part.SameDerivation.vol {p q : Part} (h : p.SameDerivation q) {w : VolId} (hv : q.vol w = p.vol w) :
    q.changesState l w = p.changesState l w ∧ q.rederivedVol l w = p.rederivedVol l w := by
  unfold Part.changesState Part.rederivedVol
  rw [h.ready, hv, h.derivedState]
  exact ⟨rfl, rfl⟩

theorem derivedState_ne_filling (p : Part) (v : VolId) : p.derivedState v ≠ .filling := by
  unfold Part.derivedState
  dsimp only
  split
  · decide
  · split <;> decide

theorem sameDerivation_setVol (hr : p.ready v = true) (j : Journal) :
    p.SameDerivation { p.setVol v { p.vol v with state := p.derivedState v } with journal := j } := by
  set q : Part := { p.setVol v { p.vol v with state := p.derivedState v } with journal := j }
  have hvol (w : VolId) : q.vol w = if v = w then { p.vol v with state := p.derivedState v } else p.vol w :=
    Part.vol_setVol ..
  refine ⟨rfl, fun _ => rfl, fun w => ?_, fun w => ?_⟩
  · rw [hvol]
    split
    · next h => rw [← h]
    · rfl
  · unfold Part.ready
    rw [hvol]
    split
    · next h =>
      rw [← h]
      simp only [Part.ready, Bool.and_eq_true, decide_eq_true_eq] at hr
      simp [hr, derivedState_ne_filling]
    · rfl

/-- The derivation of the volumes of `vs`, in their order. -/
theorem foldl_deriveVolume {vs : List VolId} (hd : vs.Nodup) (h : p.takesEvents) :
    let q := vs.foldl (fun q v => if (q.vol v).members.has l then deriveVolume (some l) tag q v else q) p
    q = { p with volumes := q.volumes, journal := (p.stateEvents l tag vs).foldl Journal.take p.journal }
    ∧ ∀ w, q.vol w = if w ∈ vs then p.rederivedVol l w else p.vol w := by
  induction vs generalizing p with
  | nil => exact ⟨rfl, fun w => (if_neg List.not_mem_nil).symm⟩
  | cons v vs ih =>
    obtain ⟨hv, hd⟩ := List.nodup_cons.1 hd
    rw [List.foldl_cons, deriveVolume_step h]
    by_cases hc : p.changesState l v = true
    · have hmem : (p.ready v && (p.vol v).members.has l) = true := (Bool.and_eq_true_iff.1 hc).1
      have hvol : p.rederivedVol l v = { p.vol v with state := p.derivedState v } := if_pos hmem
      rw [if_pos hc, hvol]
      set q : Part := { p.setVol v { p.vol v with state := p.derivedState v } with
        journal := p.journal.take (volumeStateEvent v (p.vol v).state (p.derivedState v) (some l) tag) } with hq
      have hsame : p.SameDerivation q := sameDerivation_setVol (Bool.and_eq_true_iff.1 hmem).1 _
      have hother (w : VolId) (hw : v ≠ w) : q.vol w = p.vol w := (Part.vol_setVol ..).trans (if_neg hw)
      have hself : q.vol v = p.rederivedVol l v := ((Part.vol_setVol ..).trans (if_pos rfl)).trans hvol.symm
      have hne (w : VolId) (hw : w ∈ vs) : v ≠ w := fun e => hv (e ▸ hw)
      obtain ⟨hpart, hall⟩ := ih hd (p := q) h
      have hevents : q.stateEvents l tag vs = p.stateEvents l tag vs := by
        unfold Part.stateEvents
        rw [List.filter_congr fun w hw => (hsame.vol (hother w (hne w hw))).1]
        refine List.map_congr_left fun w hw => ?_
        rw [hother w (hne w (List.mem_filter.1 hw).1), hsame.derivedState]
      refine ⟨?_, fun w => ?_⟩
      · rw [hevents] at hpart
        rw [hpart]
        simp only [Part.stateEvents, List.filter_cons, hc, if_true, List.map_cons, List.foldl_cons]
        rfl
      · rw [hall]
        by_cases hw : w ∈ vs
        · rw [if_pos hw, if_pos (List.mem_cons_of_mem _ hw), (hsame.vol (hother w (hne w hw))).2]
        · rw [if_neg hw]
          by_cases hwv : v = w
          · rw [← hwv, if_pos List.mem_cons_self, hself]
          · have hnot : w ∉ v :: vs := fun e => (List.mem_cons.1 e).elim (fun e => hwv e.symm) hw
            rw [if_neg hnot, hother w hwv]
    · rw [if_neg hc]
      obtain ⟨hpart, hall⟩ := ih hd (p := p) h
      refine ⟨?_, fun w => ?_⟩
      · refine hpart.trans ?_
        simp only [Part.stateEvents, List.filter_cons, hc]
        rfl
      · rw [hall]
        by_cases hwv : w = v
        · rw [hwv, if_neg hv, if_pos List.mem_cons_self, Part.rederivedVol_of_not (by simpa using hc)]
        · simp [hwv]

end

/-- The part whose volumes of lane `l` are derived. -/
def Part.rederived (p : Part) (l : LaneId) (tag : Word) : Part :=
  { p with
    volumes := Vector.ofFn (p.rederivedVol l)
    journal := (p.stateEvents l tag allVols).foldl Journal.take p.journal }

theorem deriveVolumes_taken {p : Part} (h : p.takesEvents) (l : LaneId) (tag : Word) :
    deriveVolumes l tag p = p.rederived l tag := by
  have hnf : p.engine.state ≠ .faulted := by rcases h with h | h | h <;> rw [h] <;> decide
  obtain ⟨hpart, hall⟩ := foldl_deriveVolume (l := l) (tag := tag) (List.nodup_finRange 8) h
  unfold deriveVolumes
  rw [if_neg hnf]
  refine hpart.trans ?_
  have hvols : (allVols.foldl (fun q v => if (q.vol v).members.has l then deriveVolume (some l) tag q v else q) p).volumes =
      Vector.ofFn (p.rederivedVol l) := by
    refine Vector.ext fun i hi => ?_
    have hi' := hall ⟨i, hi⟩
    rw [if_pos (List.mem_finRange _)] at hi'
    rw [Vector.getElem_ofFn]
    exact hi'
  exact congrArg (fun vs : Vector Volume 8 => ({ p with
    volumes := vs, journal := (p.stateEvents l tag allVols).foldl Journal.take p.journal } : Part)) hvols

/-- The part after a change of lane `l`'s runtime state. -/
def Part.changed (p : Part) (l : LaneId) (new : RuntimeState) (c : LaneCause) (tag : Word) : Part :=
  let q := p.setLane l { p.lane l with runtime := new }
  Part.rederived { q with journal := q.journal.take (laneStateEvent l (p.lane l).runtime new c tag) } l tag

theorem changeRuntime_taken {p : Part} (h : p.takesEvents) (l : LaneId) (new : RuntimeState) (c : LaneCause) (tag : Word) :
    changeRuntime l new c tag p = (p.changed l new c tag).push [.patrolTry] := by
  set q := p.setLane l { p.lane l with runtime := new } with hq
  have hqt : q.takesEvents := h
  have hna : q.engine.state ≠ .attaching := by rcases hqt with h | h | h <;> rw [h] <;> decide
  have htold := passEvent_journal hqt (laneStateEvent l (p.lane l).runtime new c tag)
  have hder := deriveVolumes_taken
    (p := { q with journal := q.journal.take (laneStateEvent l (p.lane l).runtime new c tag) }) hqt l tag
  unfold changeRuntime Part.modLane
  simp only [← hq, hna, if_false, htold, hder]
  rfl

/-! ## Tasks taken one after another (log 5) -/

/-- Taking the tasks in order leads from `q` to `z`, none of them handing on anything. -/
inductive Taken : Part → List Task → Part → Prop
  | nil (q : Part) : Taken q [] q
  | cons {q r z : Part} {t : Task} {ts : List Task} (ht : ∀ us, runTask t (q.push us) = r.push us) (hr : r.agenda = [])
      (hz : Taken r ts z) : Taken q (t :: ts) z

theorem Taken.append {q r z : Part} {ts us : List Task} (h : Taken q ts r) (g : Taken r us z) : Taken q (ts ++ us) z := by
  induction h with
  | nil q => exact g
  | cons ht hr _ ih => exact .cons ht hr (ih g)

theorem Taken.single {q r : Part} {t : Task} (ht : ∀ us, runTask t (q.push us) = r.push us) (hr : r.agenda = []) :
    Taken q [t] r := .cons ht hr (.nil r)

theorem settle_taken {q z : Part} {ts : List Task} (h : Taken q ts z) (hq : q.agenda = []) {n : Nat} (hn : ts.length ≤ n) :
    settle n (q.push ts) = z := by
  induction h generalizing n with
  | nil q => rw [Part.push_nil, settle_nil _ hq]
  | cons ht hr _ ih =>
    obtain ⟨n, rfl⟩ := Nat.exists_eq_add_one_of_ne_zero (Nat.ne_of_gt (Nat.lt_of_lt_of_le (Nat.succ_pos _) hn))
    rw [settle_push _ _ _ hq, ht]
    exact ih hr (Nat.le_of_succ_le_succ hn)

theorem act_taken {f : Part → Part} {p q z : Part} {ts : List Task} (hf : f p = q.push ts) (hq : q.agenda = [])
    (hn : ts.length ≤ 65536) (h : Taken q ts z) (hz : z.haltTested) : p.act f = z := by
  have hs : settle Config.stepFuel (f p) = z := by
    rw [hf]
    exact settle_taken h hq hn
  simp only [Part.act, hs, haltTest_of_tested hz]

/-! ## The tasks of a departure -/

theorem taken_patrolTry {q : Part} (hq : q.agenda = []) (h : q.patrol.chunk ≠ none
    ∨ (q.patrol.marker = false ∧ q.patrol.state ≠ .running ∧ q.patrol.state ≠ .waiting)) : Taken q [.patrolTry] q :=
  .single (fun us => patrolTry_rest (p := q.push us) h) hq

theorem taken_commitTest {q : Part} (hq : q.agenda = []) {k : Commit} (hk : q.committer.inFlight = some k)
    (he : k.ended = false) : Taken q [.commitTest] q := by
  refine .single (fun us => ?_) hq
  have hk' : (q.push us).committer.inFlight = some k := hk
  show commitTest (q.push us) = q.push us
  unfold commitTest
  rw [hk']
  exact if_neg (by simp [he])

theorem Commit.ended_eq_false {k : Commit} {m : LaneId} (ht : k.targets.has m = true) (hp : k.ends[m.val] = .pending) :
    k.ended = false := by
  refine List.all_eq_false.2 ⟨m, LaneMask.mem_lanes.2 ht, ?_⟩
  rw [hp]
  decide

/-- A rebuild that was aborted with no chunk is IDLE at once. -/
theorem rebuildLeave_noChunk {q : Part} (ha : q.rebuild.aborting = true) (hc : q.rebuild.chunk = none)
    (hs : q.engine.state ≠ .halting) : rebuildLeave q = { q with rebuild := q.rebuild.toIdle } := by
  have hp : (q.rebuild.paused || decide (q.engine.state = .halting)) = q.rebuild.paused := by simp [hs]
  unfold rebuildLeave
  simp only [ha, hc, if_true, hp]
  rfl

theorem taken_rebuildLeave {q : Part} (hq : q.agenda = []) (ha : q.rebuild.aborting = true) (hc : q.rebuild.chunk = none)
    (hs : q.engine.state ≠ .halting) : Taken q [.rebuildLeave] { q with rebuild := q.rebuild.toIdle } :=
  .single (fun us => rebuildLeave_noChunk (q := q.push us) ha hc hs) hq

/-- The operations of a patrol chunk that end LANE_LOST with others outstanding are counted off. -/
theorem taken_patrolEnds {l : LaneId} {ops : List LaneOp} (hp : ∀ op ∈ ops, op.producer = .patrol) {q : Part} (hq : q.agenda = [])
    {ch : PatrolChunk} (hc : q.patrol.chunk = some ch) (hn : ops.length < ch.outstanding) :
    Taken q (ops.map fun op => .opEnded l op .laneLost)
      { q with patrol := { q.patrol with chunk := some { ch with outstanding := ch.outstanding - ops.length } } } := by
  induction ops generalizing q ch with
  | nil =>
    have hsame : ({ q with patrol := { q.patrol with chunk := some { ch with outstanding := ch.outstanding - 0 } } } : Part) =
        q := by
      rw [Nat.sub_zero, ← hc]
    rw [List.length_nil, hsame]
    exact .nil q
  | cons op ops ih =>
    rw [List.length_cons] at hn
    set r : Part := { q with patrol := { q.patrol with chunk := some { ch with outstanding := ch.outstanding - 1 } } } with hr
    have hrest := ih (fun o ho => hp o (List.mem_cons_of_mem _ ho)) (q := r) hq
      (ch := { ch with outstanding := ch.outstanding - 1 }) rfl (by show ops.length < ch.outstanding - 1; omega)
    refine .cons (r := r) (fun us => ?_) hq ?_
    · have hc' : (q.push us).patrol.chunk = some ch := hc
      show operationEnded l op .laneLost (q.push us) = _
      unfold operationEnded patrolOpEnded
      rw [hp op List.mem_cons_self]
      simp only [hc']
      exact if_neg (by omega)
    · rw [List.length_cons, show ch.outstanding - (ops.length + 1) = ch.outstanding - 1 - ops.length by omega]
      exact hrest

end Sys2Proof.Machine
end

section
/-!
O32: a departure in one step, its own part, the neighbours' and the tasks that it hands on.
-/
namespace Sys2Proof.Machine

theorem Part.push_append (p : Part) (ts us : List Task) : (p.push ts).push us = p.push (ts ++ us) := by
  simp [Part.push]

/-! ## The lane's own part -/

theorem Lane.endedBy_none {L : Lane} (h : L.service = none) (presence : Bool) : L.endedBy presence = L.queue ++ L.waiters := by
  simp [Lane.endedBy, h]

theorem Lane.endedBy_some {L : Lane} {sv : Service} (h : L.service = some sv) (presence : Bool) :
    L.endedBy presence =
      (if presence = false ∧ (L.txn ≠ none ∨ sv.ending = true) then [] else [sv.op]) ++ L.queue ++ L.waiters := by
  have hcut : (!presence && L.cutting) = true ↔ presence = false ∧ (L.txn ≠ none ∨ sv.ending = true) := by
    simp [Lane.cutting, h, Option.isSome_iff_ne_none]
  unfold Lane.endedBy
  by_cases hc : presence = false ∧ (L.txn ≠ none ∨ sv.ending = true)
  · rw [if_pos hc, if_pos (hcut.2 hc)]
  · rw [if_neg hc, if_neg (hcut.not.2 hc), h]
    rfl

/-- The lane that has departed on a presence loss. -/
theorem Lane.departed_presenceLost (L : Lane) :
    ({ L.departing .presenceLost with runtime := departedRuntime .presenceLost } : Lane) = { L with
      runtime := .empty, recorded := .departed, service := none, queue := [], waiters := [], streak := 0
      txn := none, identified := false, serial := 0, capacity := 0, largest := 0, identification := none } := by
  simp [Lane.departing, Lane.cleared, Lane.unidentified, departedRuntime, departedRecorded]

/-- The lane that has departed by another cause. -/
theorem Lane.departed_other (L : Lane) {c : DepartureCause} (h : c ≠ .presenceLost) :
    ({ L.departing c with runtime := departedRuntime c } : Lane) = { L with
      runtime := departedRuntime c, recorded := departedRecorded c
      service := L.service.bind fun sv =>
        if L.txn ≠ none ∨ sv.ending = true then some { sv with ending := true } else none
      queue := [], waiters := [], streak := 0, txn := none
      pulse := if L.txn.isSome then some (L.pulse.getD .departure) else L.pulse } := by
  have hservice : (if L.cutting then L.service.map (fun sv => { sv with ending := true }) else none) =
      L.service.bind fun sv => if L.txn ≠ none ∨ sv.ending = true then some { sv with ending := true } else none := by
    cases hs : L.service with
    | none => simp
    | some sv => simp [Lane.cutting, hs, Option.isSome_iff_ne_none]
  simp [Lane.departing, Lane.cleared, h, ← hservice]

/-! ## The states, the events and the abort -/

/-- The part once the lane's states are set: the lane, the derived volumes, the events in order, and the abort of a rebuild. -/
def Part.laneDeparted (q : Part) (l : LaneId) (c : DepartureCause) : Part :=
  let x := q.setLane l { q.lane l with runtime := departedRuntime c }
  { x with
    volumes := Vector.ofFn (x.rederivedVol l)
    journal := ((if q.rebuilds l && rebuildFirst q then [q.abortEvent l c 0] else []) ++
      laneStateEvent l (q.lane l).runtime (departedRuntime c) (departureLaneCause c) 0 :: x.stateEvents l 0 allVols ++
      (if q.rebuilds l && !rebuildFirst q then [q.abortEvent l c 0] else [])).foldl Journal.take q.journal
    free := if q.rebuilds l then q.free + 1 else q.free
    rebuild := if q.rebuilds l then { q.rebuild with aborting := true } else q.rebuild }

/-- What it hands on. -/
def Part.laneTasks (q : Part) (l : LaneId) : List Task :=
  if q.rebuilds l then if rebuildFirst q then [.rebuildLeave, .patrolTry] else [.patrolTry, .rebuildLeave] else [.patrolTry]

theorem departLane_taken {q : Part} (h : q.takesEvents) (l : LaneId) (c : DepartureCause) :
    departLane l c 0 q = (q.laneDeparted l c).push (q.laneTasks l) := by
  have habort (r : Part) (hr : r.takesEvents) : r.aborted l c 0 =
      { r with journal := r.journal.take (r.abortEvent l c 0), rebuild := { r.rebuild with aborting := true } } := by
    unfold Part.aborted
    rw [passEvent_journal hr]
  unfold departLane
  by_cases hr : q.rebuilds l = true
  · set d : Part := { q with free := q.free + 1 } with hd
    have hdt : d.takesEvents := h
    have hdr : d.rebuilds l = true := hr
    by_cases hf : rebuildFirst q = true
    · set a : Part := { d with journal := d.journal.take (d.abortEvent l c 0), rebuild := { d.rebuild with aborting := true } }
      have hstep : rebuildDepart l c 0 d = a.push [.rebuildLeave] := by rw [rebuildDepart_aborts hdr, habort d hdt]
      have hend : changeRuntime l (departedRuntime c) (departureLaneCause c) 0 (rebuildDepart l c 0 d) =
          ((a.changed l (departedRuntime c) (departureLaneCause c) 0).push [.rebuildLeave]).push [.patrolTry] := by
        rw [hstep, changeRuntime_taken (p := a.push [.rebuildLeave]) hdt]
        rfl
      refine (if_pos hr).trans ((if_pos hf).trans (hend.trans ?_))
      rw [Part.push_append]
      simp only [Part.laneDeparted, Part.laneTasks, hr, hf, Bool.not_true, Bool.and_self, Bool.and_false, if_true,
        Bool.false_eq_true, if_false, List.append_nil, List.cons_append, List.nil_append, List.foldl_cons]
      rfl
    · set a := d.changed l (departedRuntime c) (departureLaneCause c) 0
      have hend : rebuildDepart l c 0 (changeRuntime l (departedRuntime c) (departureLaneCause c) 0 d) =
          (({ a with journal := a.journal.take (a.abortEvent l c 0), rebuild := { a.rebuild with aborting := true } } :
            Part).push [.patrolTry]).push [.rebuildLeave] := by
        rw [changeRuntime_taken hdt, rebuildDepart_aborts (p := a.push [.patrolTry]) hdr, habort (a.push [.patrolTry]) hdt]
        rfl
      refine (if_pos hr).trans ((if_neg hf).trans (hend.trans ?_))
      rw [Part.push_append]
      simp only [Part.laneDeparted, Part.laneTasks, hr, hf, Bool.not_false, Bool.and_self, Bool.and_false, if_true,
        Bool.false_eq_true, if_false, List.cons_append, List.nil_append, List.foldl_cons, List.foldl_append]
      rfl
  · refine (if_neg hr).trans ((changeRuntime_taken h l _ _ 0).trans ?_)
    simp only [Part.laneDeparted, Part.laneTasks, hr, Bool.false_and, Bool.false_eq_true, if_false,
      List.append_nil, List.nil_append, List.foldl_cons]
    rfl

/-! ## The neighbours (R45) -/

/-- The commit in flight with a record fault of lane `l` settled (log 15). -/
def Commit.faultSettled (k : Commit) (l : LaneId) : Commit :=
  if k.ends[l.val] = .faultAsked then { k with ends := k.ends.set l.val .faulted } else k

/-- A settled fault of one lane leaves another lane's record write pending. -/
theorem Commit.faultSettled_not_ended {k : Commit} {l m : LaneId} (hm : m ≠ l) (ht : k.targets.has m = true)
    (hp : k.ends[m.val] = .pending) : (k.faultSettled l).ended = false := by
  unfold Commit.faultSettled
  split
  · refine Commit.ended_eq_false (m := m) ht ?_
    show (k.ends.set l.val .faulted)[m.val] = .pending
    rw [Vector.getElem_set_ne _ _ fun h => hm (Fin.ext h.symm)]
    exact hp
  · exact Commit.ended_eq_false ht hp

/-- The part once its neighbours have noted the departure, the repair unit being `rep`. -/
def Part.neighboursDeparted (y : Part) (l : LaneId) (rep : Repair) : Part :=
  { y with
    volumes := y.volumes.map (Volume.departHold l)
    table := y.table.map (Option.map (Entry.depart l))
    patrol := { y.patrol with chunk := y.patrol.chunk.map (PatrolChunk.depart l) }
    repair := rep
    committer := { y.committer with inFlight := y.committer.inFlight.map (·.faultSettled l) } }

/-- With no repair in hand and no room waiter the lane's entries are removed, and patrol tests again where there was one. -/
theorem removeLane_settled {p : Part} (hw : p.repair.work = none) (hr : p.repair.waiter = []) (hl : p.repair.list.length ≤ 32)
    (l : LaneId) : ∃ (rep : Repair) (us : List Task), removeLane l p = ({ p with repair := rep } : Part).push us
      ∧ rep.list = p.repair.list.filter (fun x => x.lane ≠ l) ∧ rep.dropped = p.repair.dropped
      ∧ (us = [] ∨ us = [.patrolTry]) := by
  have hfilter : (p.repair.list.filter fun x => !decide (x.lane = l)) = p.repair.list.filter (fun x => x.lane ≠ l) := by
    simp
  unfold removeLane
  rw [hw]
  by_cases h : ∃ y ∈ p.repair.list, y.lane = l
  · obtain ⟨y, hy, hyl⟩ := h
    refine ⟨_, [.patrolTry], removeEntries_some ⟨y, hy, decide_eq_true hyl⟩ hr hl, hfilter, rfl, .inr rfl⟩
  · have hnone : ∀ y ∈ p.repair.list, y.lane ≠ l := fun y hy hyl => h ⟨y, hy, hyl⟩
    have hsame : removeEntries (fun x => x.lane = l) p = p := removeEntries_none fun y hy => decide_eq_false (hnone y hy)
    refine ⟨p.repair, [], hsame.trans (Part.push_nil _).symm, ?_, rfl, .inl rfl⟩
    exact (List.filter_eq_self.2 fun y hy => decide_eq_true (hnone y hy)).symm

theorem neighboursDepart_settled {y : Part} (hf : y.fillEntries = []) (hw : y.repair.work = none) (hr : y.repair.waiter = [])
    (hl : y.repair.list.length ≤ 32) (l : LaneId) : ∃ (rep : Repair) (us : List Task),
      neighboursDepart l y = (y.neighboursDeparted l rep).push (us ++ [.commitTest])
      ∧ rep.list = y.repair.list.filter (fun x => x.lane ≠ l) ∧ rep.dropped = y.repair.dropped
      ∧ (us = [] ∨ us = [.patrolTry]) := by
  have hrequests : requestsDepart l y = { y with
      volumes := y.volumes.map (Volume.departHold l), table := y.table.map (Option.map (Entry.depart l)) } := by
    have hnone : (holdVolumes l y).fillEntries = [] := hf
    unfold requestsDepart
    dsimp only
    rw [hnone]
    exact Part.push_nil _
  obtain ⟨rep, us, hq, hlist, hdrop, hus⟩ := removeLane_settled (p := patrolDepart l { y with
    volumes := y.volumes.map (Volume.departHold l), table := y.table.map (Option.map (Entry.depart l)) }) hw hr hl l
  refine ⟨rep, us, ?_, hlist, hdrop, hus⟩
  unfold neighboursDepart
  rw [hrequests, hq, ← Part.push_append]
  rfl

/-! ## The whole departure -/

/-- The part of a departure before the tasks that it hands on. -/
def Part.departedBegun (p : Part) (l : LaneId) (c : DepartureCause) (rep : Repair) : Part :=
  let z := ((p.setLane l ((p.lane l).departing c)).laneDeparted l c).neighboursDeparted l rep
  { z with committer := { z.committer with requested := true } }

theorem Part.committing.takesEvents {p : Part} (h : p.committing) : p.takesEvents := h.2.imp_right .inr

theorem depart_begun {p : Part} {l : LaneId} (c : DepartureCause) (hsv : p.serviceable l = true) (hc : p.committing)
    (hf : p.fillEntries = []) (hw : p.repair.work = none) (hr : p.repair.waiter = []) (hl : p.repair.list.length ≤ 32) :
    ∃ (rep : Repair) (us : List Task),
      depart l c 0 p = (p.departedBegun l c rep).push ((p.lane l).endedTasks l c ++ (p.laneTasks l ++ (us ++ [.commitTest])))
      ∧ rep.list = p.repair.list.filter (fun x => x.lane ≠ l) ∧ rep.dropped = p.repair.dropped
      ∧ (us = [] ∨ us = [.patrolTry]) := by
  set x := p.setLane l ((p.lane l).departing c) with hx
  set ts := (p.lane l).endedTasks l c with hts
  have hlane : departLane l c 0 (x.push ts) = (x.laneDeparted l c).push (ts ++ p.laneTasks l) := by
    rw [departLane_taken (q := x.push ts) hc.takesEvents, ← Part.push_append]
    rfl
  obtain ⟨rep, us, hq, hlist, hdrop, hus⟩ :=
    neighboursDepart_settled (y := (x.laneDeparted l c).push (ts ++ p.laneTasks l)) hf hw hr hl l
  have hnf : ((x.laneDeparted l c).push (ts ++ p.laneTasks l)).engine.state ≠ .faulted := by
    show p.engine.state ≠ .faulted
    rcases hc.2 with h | h <;> rw [h] <;> decide
  have hcommitting : (neighboursDepart l ((x.laneDeparted l c).push (ts ++ p.laneTasks l))).committing :=
    (grows_neighboursDepart ..).committing hc
  have hpush : (p.departedBegun l c rep).push (ts ++ (p.laneTasks l ++ (us ++ [.commitTest]))) =
      ((p.departedBegun l c rep).push (ts ++ p.laneTasks l)).push (us ++ [.commitTest]) := by
    rw [Part.push_append, List.append_assoc]
  refine ⟨rep, us, ?_, hlist, hdrop, hus⟩
  rw [depart_eq hsv, ← hx, ← hts, hlane, if_neg hnf, requestCommit_committing hcommitting, hq, hpush]
  rfl

/-- The part once the tasks are taken: the ended operations counted off the patrol chunk, the aborted rebuild IDLE. -/
def Part.departedEnd (p : Part) (l : LaneId) (c : DepartureCause) (rep : Repair) : Part :=
  let z := p.departedBegun l c rep
  let n := ((p.lane l).endedBy (c = .presenceLost)).length
  { z with
    patrol := { p.patrol with
      chunk := p.patrol.chunk.map fun ch => { ch.depart l with outstanding := ch.outstanding - n } }
    rebuild := if p.rebuilds l then p.rebuild.toIdle else p.rebuild }

/-- The tasks of the lane's states lead to the end of an aborted rebuild. -/
theorem taken_laneTasks {p q : Part} {l : LaneId} (hq : q.agenda = []) (hs : q.engine.state ≠ .halting)
    (hp : q.patrol.chunk ≠ none ∨ (q.patrol.marker = false ∧ q.patrol.state ≠ .running ∧ q.patrol.state ≠ .waiting))
    (hr : q.rebuild = if p.rebuilds l then { p.rebuild with aborting := true } else p.rebuild)
    (hc : p.rebuilds l = false ∨ p.rebuild.chunk = none) :
    Taken q (p.laneTasks l) { q with rebuild := if p.rebuilds l then p.rebuild.toIdle else p.rebuild } := by
  unfold Part.laneTasks
  by_cases h : p.rebuilds l = true
  · rw [if_pos h] at hr
    have hchunk : p.rebuild.chunk = none := hc.resolve_left (by simp [h])
    have hleave : Taken q [.rebuildLeave] { q with rebuild := p.rebuild.toIdle } := by
      have ht := taken_rebuildLeave hq (by rw [hr]) (by rw [hr]; exact hchunk) hs
      rw [hr] at ht
      exact ht
    have hbefore : Taken q [.patrolTry] q := taken_patrolTry hq hp
    have hafter : Taken { q with rebuild := p.rebuild.toIdle } [.patrolTry] { q with rebuild := p.rebuild.toIdle } :=
      taken_patrolTry hq hp
    rw [if_pos h, if_pos h]
    split
    · exact hleave.append hafter
    · exact hbefore.append hleave
  · rw [if_neg h] at hr
    have hsame : ({ q with rebuild := p.rebuild } : Part) = q := by rw [← hr]
    rw [if_neg h, if_neg h, hsame]
    exact taken_patrolTry hq hp

/-- The ended operations are none, or reads of a patrol chunk with others outstanding. -/
theorem taken_ended {q : Part} (hq : q.agenda = []) {l : LaneId} {ops : List LaneOp}
    (h : ops = [] ∨ ∃ ch, q.patrol.chunk = some ch ∧ ops.length < ch.outstanding ∧ ∀ op ∈ ops, op.producer = .patrol) :
    Taken q (ops.map fun op => .opEnded l op .laneLost) { q with patrol := { q.patrol with
      chunk := q.patrol.chunk.map fun ch => { ch with outstanding := ch.outstanding - ops.length } } } := by
  rcases h with h | ⟨ch, hch, hn, hp⟩
  · have hsame : ({ q with patrol := { q.patrol with
        chunk := q.patrol.chunk.map fun ch => { ch with outstanding := ch.outstanding - ops.length } } } : Part) = q := by
      rw [h]
      simp
    rw [hsame, h]
    exact .nil q
  · have ht := taken_patrolEnds (l := l) hp hq hch hn
    rw [hch]
    exact ht

theorem depart_acts {p : Part} {l m : LaneId} (c : DepartureCause) {k : Commit} (ha : p.agenda = [])
    (hsv : p.serviceable l = true) (hc : p.committing) (hk : p.committer.inFlight = some k) (hm : m ≠ l)
    (hmt : k.targets.has m = true) (hme : k.ends[m.val] = .pending) (hkept : p.Kept)
    (hended : (p.lane l).endedBy (c = .presenceLost) = [] ∨ (∃ ch, p.patrol.chunk = some ch
      ∧ ((p.lane l).endedBy (c = .presenceLost)).length < ch.outstanding ∧ ch.outstanding ≤ 4
      ∧ ∀ op ∈ (p.lane l).endedBy (c = .presenceLost), op.producer = .patrol))
    (hw : p.repair.work = none) (hr : p.repair.waiter = []) (hp : p.patrolIdle ∨ p.patrol.chunk ≠ none)
    (hab : p.rebuilds l = false ∨ p.rebuild.chunk = none) (hf : p.fillEntries = []) :
    ∃ rep : Repair, p.act (depart l c 0) = p.departedEnd l c rep
      ∧ rep.list = p.repair.list.filter (fun x => x.lane ≠ l) ∧ rep.dropped = p.repair.dropped := by
  obtain ⟨rep, us, hdep, hlist, hdrop, hus⟩ := depart_begun c hsv hc hf hw hr hkept.list.1
  set ops := (p.lane l).endedBy (c = .presenceLost) with hops
  set z := p.departedBegun l c rep with hz
  set z1 : Part := { z with patrol := { z.patrol with
    chunk := z.patrol.chunk.map fun ch => { ch with outstanding := ch.outstanding - ops.length } } } with hz1
  have hnh : p.engine.state ≠ .halting := by rcases hc.2 with h | h <;> rw [h] <;> decide
  have hzchunk : z.patrol.chunk = p.patrol.chunk.map (PatrolChunk.depart l) := rfl
  have hend : p.departedEnd l c rep =
      { z1 with rebuild := if p.rebuilds l then p.rebuild.toIdle else p.rebuild } := by
    have hmap : (p.patrol.chunk.map fun ch => { ch.depart l with outstanding := ch.outstanding - ops.length }) =
        (p.patrol.chunk.map (PatrolChunk.depart l)).map fun ch => { ch with outstanding := ch.outstanding - ops.length } := by
      rw [Option.map_map]
      refine congrArg (fun f => p.patrol.chunk.map f) (funext fun ch => ?_)
      simp only [Function.comp, PatrolChunk.depart]
      split <;> rfl
    exact congrArg (fun chunk : Option PatrolChunk => ({ z1 with
      patrol := { p.patrol with chunk := chunk }
      rebuild := if p.rebuilds l then p.rebuild.toIdle else p.rebuild } : Part)) hmap
  have hpatrol (q : Part) (hstate : q.patrol.state = p.patrol.state) (hmark : q.patrol.marker = p.patrol.marker)
      (hchunk : p.patrol.chunk ≠ none → q.patrol.chunk ≠ none) :
      q.patrol.chunk ≠ none ∨ (q.patrol.marker = false ∧ q.patrol.state ≠ .running ∧ q.patrol.state ≠ .waiting) := by
    rcases hp with ⟨hidle, hnone⟩ | hsome
    · refine .inr ⟨hmark.trans hnone, ?_, ?_⟩ <;> rw [hstate, hidle] <;> decide
    · exact .inl (hchunk hsome)
  have hz1p := hpatrol z1 rfl rfl (by simp [z1, hzchunk])
  have hfirst : Taken z ((p.lane l).endedTasks l c) z1 := by
    refine taken_ended (q := z) ha ?_
    refine hended.imp_right ?_
    rintro ⟨ch, hch, hn, -, hprod⟩
    refine ⟨ch.depart l, by rw [hzchunk, hch]; rfl, ?_, hprod⟩
    unfold PatrolChunk.depart
    split <;> exact hn
  have hsecond : Taken z1 (p.laneTasks l) (p.departedEnd l c rep) := by
    rw [hend]
    exact taken_laneTasks (q := z1) ha hnh hz1p rfl hab
  have hthird : Taken (p.departedEnd l c rep) us (p.departedEnd l c rep) := by
    rcases hus with rfl | rfl
    · exact .nil _
    · exact taken_patrolTry (q := p.departedEnd l c rep) ha (hpatrol _ rfl rfl (by simp [Part.departedEnd]))
  have hfourth : Taken (p.departedEnd l c rep) [.commitTest] (p.departedEnd l c rep) := by
    have hk' : (p.departedEnd l c rep).committer.inFlight = some (k.faultSettled l) := congrArg (Option.map _) hk
    exact taken_commitTest (q := p.departedEnd l c rep) ha hk' (Commit.faultSettled_not_ended hm hmt hme)
  have hcount : ops.length ≤ 4 := by
    rcases hended with h | ⟨ch, -, hn, h4, -⟩
    · rw [h]
      exact Nat.zero_le _
    · omega
  refine ⟨rep, ?_, hlist, hdrop⟩
  refine act_taken hdep ha ?_ (hfirst.append (hsecond.append (hthird.append hfourth))) (Part.haltTested_of_state hnh)
  have hlane : (p.laneTasks l).length ≤ 2 := by
    unfold Part.laneTasks
    split
    · split <;> decide
    · decide
  have hrep : us.length ≤ 1 := by rcases hus with rfl | rfl <;> decide
  simp only [List.length_append, Lane.endedTasks, List.length_map, List.length_singleton, ← hops]
  omega

end Sys2Proof.Machine
end

section
/-!
O32, assembled: what is left of the part after a departure, a presence loss in FAULTED, and the abort of a rebuild.
-/
namespace Sys2Proof.Machine

/-! ## What a departure leaves -/

/-- The lanes after a departure, with everything else as it was. -/
def Part.laneLeft (p : Part) (l : LaneId) (c : DepartureCause) : Part :=
  (p.setLane l ((p.lane l).departing c)).setLane l { (p.lane l).departing c with runtime := departedRuntime c }

section
variable (p : Part) (l : LaneId) (c : DepartureCause) (rep : Repair)

theorem Part.departing_lane : (p.setLane l ((p.lane l).departing c)).lane l = (p.lane l).departing c := by
  rw [Part.lane_setLane, if_pos rfl]

theorem Part.departedEnd_lanes : (p.departedEnd l c rep).lanes = (p.laneLeft l c).lanes := by
  show (Part.setLane (p.setLane l ((p.lane l).departing c)) l { (p.setLane l ((p.lane l).departing c)).lane l with
    runtime := departedRuntime c }).lanes = _
  rw [Part.departing_lane]
  rfl

theorem Part.departedEnd_lane (j : LaneId) : (p.departedEnd l c rep).lane j =
    if l = j then { (p.lane l).departing c with runtime := departedRuntime c } else p.lane j := by
  have hl : (p.departedEnd l c rep).lane j = (p.laneLeft l c).lane j := by
    unfold Part.lane
    rw [Part.departedEnd_lanes]
  rw [hl, Part.laneLeft, Part.lane_setLane]
  split
  · rfl
  · next h => rw [Part.lane_setLane, if_neg h]

theorem Part.departedEnd_rederived (v : VolId) : (p.departedEnd l c rep).vol v =
    ((p.laneLeft l c).rederivedVol l v).departHold l := by
  have hleft : Part.setLane (p.setLane l ((p.lane l).departing c)) l { (p.setLane l ((p.lane l).departing c)).lane l with
      runtime := departedRuntime c } = p.laneLeft l c := by
    rw [Part.departing_lane]
    rfl
  show ((Vector.ofFn (Part.rederivedVol (Part.setLane (p.setLane l ((p.lane l).departing c)) l
    { (p.setLane l ((p.lane l).departing c)).lane l with runtime := departedRuntime c }) l)).map
      (Volume.departHold l))[v.val] = _
  rw [hleft, Vector.getElem_map, Vector.getElem_ofFn]

theorem Part.departedEnd_derivedState (v : VolId) :
    (p.departedEnd l c rep).derivedState v = (p.laneLeft l c).derivedState v := by
  refine Part.derivedState_congr ?_ fun k => ?_
  · rw [Part.departedEnd_rederived]
    unfold Volume.departHold Part.rederivedVol
    split <;> split <;> rfl
  · unfold Part.online Part.lane
    rw [Part.departedEnd_lanes]

/-- A volume of the lane is held, and stands in its derived state unless it is FILLING. -/
theorem Part.departedEnd_vol (v : VolId) : (p.departedEnd l c rep).vol v =
    if (p.vol v).inUse && (p.vol v).members.has l then
      { p.vol v with
        hold := .waiting
        state := if (p.vol v).state = .filling then .filling else (p.departedEnd l c rep).derivedState v }
    else p.vol v := by
  have hvol : (p.laneLeft l c).vol v = p.vol v := rfl
  have hready : (p.laneLeft l c).ready v = ((p.vol v).inUse && decide ((p.vol v).state ≠ .filling)) := rfl
  rw [Part.departedEnd_rederived, Part.departedEnd_derivedState]
  unfold Part.rederivedVol Volume.departHold
  rw [hvol, hready]
  by_cases hu : ((p.vol v).inUse && (p.vol v).members.has l) = true
  · obtain ⟨hin, hm⟩ := Bool.and_eq_true_iff.1 hu
    by_cases hfill : (p.vol v).state = .filling
    · simp only [hin, hm, hfill, ne_eq, not_true, decide_false, Bool.and_false, Bool.false_and, Bool.false_eq_true, if_false,
        Bool.and_self, if_true]
    · simp only [hin, hm, hfill, ne_eq, not_false_iff, decide_true, Bool.and_self, if_true, if_false]
  · have hno : ((p.vol v).inUse && decide ((p.vol v).state ≠ .filling) && (p.vol v).members.has l) = false := by
      cases hin : (p.vol v).inUse
      · rfl
      · have : (p.vol v).members.has l = false := by simpa [hin] using hu
        simp [this]
    rw [hno, if_neg hu]
    simp only [Bool.false_eq_true, if_false]
    exact if_neg hu

/-- With no fill in the table a departure loses targets and notes the lane in waiting VERIFYs. -/
theorem Part.departedEnd_entry (hf : p.fillEntries = []) (e : EntryId) :
    (p.departedEnd l c rep).entry e = (p.entry e).map fun x => (x.loseTarget l).departVerify l := by
  have hmap : (p.departedEnd l c rep).entry e = (p.entry e).map (Entry.depart l) := by
    show (p.table.map (Option.map (Entry.depart l)))[e.val] = _
    rw [Vector.getElem_map]
    rfl
  rw [hmap]
  cases he : p.entry e with
  | none => rfl
  | some x =>
    have hnofill : ∀ n fs, x.work ≠ .fill n fs := fun n fs hw => by
      have hmem : e ∈ p.fillEntries :=
        List.mem_map.2 ⟨(e, x), List.mem_filter.2 ⟨Part.mem_entries.2 he, by simp [hw]⟩, rfl⟩
      rw [hf] at hmem
      cases hmem
    have hwork : (x.loseTarget l).work = x.work := by
      unfold Entry.loseTarget
      split
      · split <;> rfl
      · rfl
    have hsame : (x.loseTarget l).departFill l = x.loseTarget l := by
      unfold Entry.departFill
      split
      · next n fs hw => exact absurd (hwork.symm.trans hw) (hnofill n fs)
      · rfl
    simp only [Option.map_some, Entry.depart, hsame]

/-- The events of a departure, in order. -/
theorem Part.departedEnd_journal : (p.departedEnd l c rep).journal =
    ((if p.rebuilds l && rebuildFirst p then [p.abortEvent l c 0] else []) ++
      laneStateEvent l (p.lane l).runtime (departedRuntime c) (departureLaneCause c) 0 ::
        (allVols.filter fun v => p.ready v && (p.vol v).members.has l
          && decide ((p.departedEnd l c rep).derivedState v ≠ (p.vol v).state)).map
        (fun v => volumeStateEvent v (p.vol v).state ((p.departedEnd l c rep).derivedState v) (some l) 0) ++
      (if p.rebuilds l && !rebuildFirst p then [p.abortEvent l c 0] else [])).foldl Journal.take p.journal := by
  have hder : (p.departedEnd l c rep).derivedState = (p.laneLeft l c).derivedState :=
    funext (Part.departedEnd_derivedState p l c rep)
  have hruntime : ((p.lane l).departing c).runtime = (p.lane l).runtime := by
    unfold Lane.departing
    dsimp only
    split <;> rfl
  rw [hder]
  show ((if p.rebuilds l && rebuildFirst p then [p.abortEvent l c 0] else []) ++
    laneStateEvent l ((p.setLane l ((p.lane l).departing c)).lane l).runtime (departedRuntime c) (departureLaneCause c) 0 ::
      Part.stateEvents (Part.setLane (p.setLane l ((p.lane l).departing c)) l
        { (p.setLane l ((p.lane l).departing c)).lane l with runtime := departedRuntime c }) l 0 allVols ++
    (if p.rebuilds l && !rebuildFirst p then [p.abortEvent l c 0] else [])).foldl Journal.take p.journal = _
  rw [Part.departing_lane, hruntime]
  rfl

end

/-! ## A presence loss in FAULTED -/

theorem changeRuntime_faulted {p : Part} (h : p.engine.state = .faulted) (l : LaneId) (new : RuntimeState) (c : LaneCause)
    (tag : Word) : changeRuntime l new c tag p = (p.setLane l { p.lane l with runtime := new }).push [.patrolTry] := by
  set q := p.setLane l { p.lane l with runtime := new } with hq
  have hqf : q.engine.state = .faulted := h
  have htold : (if q.engine.state = .attaching then q else passEvent (laneStateEvent l (p.lane l).runtime new c tag) q) = q := by
    rw [hqf]
    simp [passEvent, hqf]
  have hder : deriveVolumes l tag q = q := if_pos hqf
  have hchange : changeRuntime l new c tag p = (deriveVolumes l tag (if q.engine.state = .attaching then q
      else passEvent (laneStateEvent l (p.lane l).runtime new c tag) q)).push [.patrolTry] := rfl
  rw [hchange, htold, hder]

/-- In FAULTED a presence loss with no work on the lane and no rebuild to abort changes the lane and requests a commit. -/
theorem depart_faulted {p : Part} {l : LaneId} (h : p.engine.state = .faulted) (hsv : p.serviceable l = true)
    (hended : (p.lane l).endedBy true = []) (hr : p.rebuilds l = false) :
    depart l .presenceLost 0 p =
      ({ p.laneLeft l .presenceLost with committer := { p.committer with requested := true } } : Part).push [.patrolTry] := by
  set x := p.setLane l ((p.lane l).departing .presenceLost) with hx
  have htasks : (p.lane l).endedTasks l .presenceLost = [] := congrArg (List.map _) hended
  have hlane : departLane l .presenceLost 0 x = (p.laneLeft l .presenceLost).push [.patrolTry] := by
    have hxr : ¬ x.rebuilds l = true := fun e => absurd (hr.symm.trans e) (by decide)
    refine (if_neg hxr).trans ((changeRuntime_faulted (p := x) h l _ _ 0).trans ?_)
    rw [hx, Part.departing_lane]
    rfl
  have hfaulted : ((p.laneLeft l .presenceLost).push [.patrolTry]).engine.state = .faulted := h
  rw [depart_eq hsv, htasks, Part.push_nil, ← hx, hlane, if_pos hfaulted]
  unfold requestCommit
  simp only [hfaulted]
  rfl

theorem patrolTry_notRunning {p : Part} (h : p.engine.state ≠ .running) : patrolTry p = p := by
  simp [patrolTry, Part.patrolRuns, Part.running, h]

/-! ## The abort of a rebuild (R163) -/

theorem rebuildLeave_outstanding {p : Part} {k : RebuildChunk} (ha : p.rebuild.aborting = true) (hk : p.rebuild.chunk = some k) :
    (k.outstanding ≠ 0 → rebuildLeave p = p)
    ∧ (k.outstanding = 0 → rebuildLeave p = releaseAll .rebuild { p with rebuild :=
        { p.rebuild.toIdle with paused := p.rebuild.paused || decide (p.engine.state = .halting) } }) := by
  unfold rebuildLeave
  simp only [ha, hk, if_true]
  exact ⟨fun h => if_neg h, fun h => if_pos h⟩

/-- The end of an operation of an aborted rebuild: it is counted off, and the unit lets go with the last one. -/
theorem operationEnded_aborting {p : Part} {k : RebuildChunk} (ha : p.rebuild.aborting = true) (hk : p.rebuild.chunk = some k)
    (m : LaneId) {op : LaneOp} (hp : op.producer = .rebuild) (r : OpEnd) :
    ∃ blocks, operationEnded m op r p = rebuildLeave { p with rebuild := { p.rebuild with
      chunk := some { k with outstanding := k.outstanding - 1, blocks := blocks } } } := by
  simp only [operationEnded, hp, rebuildOpEnded, hk, Part.modRebuildChunk, Part.modRebuild, Option.map_some, ha, if_true]
  exact ⟨_, rfl⟩

/-- A departure of a rebuild's target: the abort before or after the change of state, as the free value says. -/
theorem departLane_rebuilds {p : Part} {l : LaneId} (h : p.rebuilds l = true) (c : DepartureCause) (tag : Word) :
    let abort (q : Part) : Part := (q.aborted l c tag).push [.rebuildLeave]
    let change (q : Part) : Part := changeRuntime l (departedRuntime c) (departureLaneCause c) tag q
    let drawn : Part := { p with free := p.free + 1 }
    departLane l c tag p = if rebuildFirst p then change (abort drawn) else abort (change drawn) := by
  intro abort change drawn
  have hbefore : rebuildDepart l c tag drawn = abort drawn := rebuildDepart_aborts (p := drawn) h c tag
  have hafter : rebuildDepart l c tag (change drawn) = abort (change drawn) := by
    refine rebuildDepart_aborts ?_ c tag
    obtain ⟨vs, j, hq⟩ := changeRuntime_eq l (departedRuntime c) (departureLaneCause c) tag drawn
    rw [show change drawn = _ from hq]
    exact h
  refine (if_pos h).trans ?_
  show (if rebuildFirst p then change (rebuildDepart l c tag drawn) else rebuildDepart l c tag (change drawn)) = _
  rw [hbefore, hafter]

/-! ## O32 -/

/-- Settles O32. -/
theorem departuresByTheirCause : Obligations.DeparturesByTheirCause := by
  unfold Obligations.DeparturesByTheirCause
  refine ⟨?_, ?_, ?_⟩
  · intro l c s hrest p L states ended u aborts aborted
    have hstates : states = (departedRuntime c, departedRecorded c, departureLaneCause c) := by cases c <;> rfl
    have hended : ended = L.endedBy (c = .presenceLost) := by
      cases hs : L.service with
      | none =>
        rw [Lane.endedBy_none hs]
        simp only [ended, hs, List.nil_append]
      | some sv =>
        rw [Lane.endedBy_some hs]
        simp only [ended, hs, decide_eq_false_iff_not]
    have haborted : p.abortEvent l c 0 = aborted := by
      unfold Part.abortEvent
      rw [ite_self]
    have hact : (p.engine.state = .faulted → c = .presenceLost) →
        exec (.departure l c) s = s.act (depart l c 0) := fun hf => by
      have hgo : ¬ (decide (p.engine.state = .faulted) && decide (c ≠ .presenceLost)) = true := by
        simpa using hf
      have heq : (if p.engine.state = .faulted && c ≠ .presenceLost then p else depart l c 0 p) = depart l c 0 p := if_neg hgo
      show Host.Outcome.next (s.withPart (haltTest (settle Config.stepFuel
        (if p.engine.state = .faulted && c ≠ .presenceLost then p else depart l c 0 p)))) = _
      rw [heq]
      rfl
    have hnf : p.committing → p.engine.state = .faulted → c = .presenceLost := fun hc hf => by
      rcases hc.2 with h | h <;> rw [h] at hf <;> cases hf
    refine ⟨fun hsv => ?_, fun hsv hc => ⟨hact (hnf hc), ?_⟩, fun hcause hf hsv hno hab => ?_, ?_⟩
    · have hsame : (if p.engine.state = .faulted && c ≠ .presenceLost then p else depart l c 0 p) = p := by
        rw [depart_notServiceable hsv, ite_self]
      refine (State.act_of_rest (s := s)
        (f := fun p => if p.engine.state = .faulted && c ≠ .presenceLost then p else depart l c 0 p) ?_).trans ?_
      · exact hsame.symm ▸ hrest
      · exact congrArg (fun q => Host.Outcome.next (s.withPart q)) hsame
    · obtain ⟨rest, h⟩ := depart_agenda hrest.1 hsv hc c 0
      exact ⟨rest, h.trans (by rw [hended]; rfl)⟩
    · subst hcause
      rw [hact fun _ => rfl]
      have hdep := depart_faulted hf hsv (hended.symm.trans hno) hab
      set q : Part := { p.laneLeft l .presenceLost with committer := { p.committer with requested := true } } with hq
      have hnr : q.engine.state ≠ .running := fun h => absurd (hf.symm.trans h) (by decide)
      have hnh : q.engine.state ≠ .halting := fun h => absurd (hf.symm.trans h) (by decide)
      refine (State.act_of_push hdep hrest.1 (patrolTry_notRunning hnr) ⟨hrest.1, Part.haltTested_of_state hnh⟩).trans ?_
      rw [hq, Part.laneLeft, Lane.departed_presenceLost]
      simp only [Part.setLane, Vector.set_set]
      rfl
    · intro k m hsv hc hk hm hmt hme hkept hends hw hr hp hab hf
      rw [hended] at hends
      obtain ⟨rep, hz, hlist, hdrop⟩ := depart_acts c hrest.1 hsv hc hk hm hmt hme hkept hends hw hr hp hab hf
      refine ⟨s.withPart (p.departedEnd l c rep), ?_, rfl, rfl, ?_, ?_, Part.departedEnd_vol p l c rep,
        Part.departedEnd_entry p l c rep hf, ?_, hlist, hdrop, rfl, ?_, rfl, rfl, rfl, rfl, ?_, rfl, rfl, rfl⟩
      · rw [hact (hnf hc), State.act_eq, hz]
      · refine (Part.departedEnd_lane ..).trans ((if_pos rfl).trans ?_)
        rw [hstates]
        by_cases hcause : c = .presenceLost
        · subst hcause
          exact Lane.departed_presenceLost _
        · rw [if_neg hcause]
          exact Lane.departed_other _ hcause
      · exact fun j hj => (Part.departedEnd_lane ..).trans (if_neg (Ne.symm hj))
      · show ({ p.committer with
          requested := true, inFlight := p.committer.inFlight.map (·.faultSettled l) } : Committer) = _
        rw [hk]
        simp only [Option.map_some, Commit.faultSettled]
        split <;> rfl
      · refine (Part.departedEnd_journal ..).trans ?_
        rw [hstates, haborted]
        rfl
      · show ({ p.patrol with chunk := p.patrol.chunk.map fun ch => { ch.depart l with
          outstanding := ch.outstanding - (L.endedBy (c = .presenceLost)).length } } : Patrol) = _
        rw [hended]
        refine congrArg (fun f : PatrolChunk → PatrolChunk => ({ p.patrol with chunk := p.patrol.chunk.map f } : Patrol))
          (funext fun ch => ?_)
        unfold PatrolChunk.depart
        split <;> rfl
  · intro l c tag p hstate htarget hab abort change drawn
    exact departLane_rebuilds (by simp [Part.rebuilds, hstate, htarget, hab]) c tag
  · intro p k ha hk
    obtain ⟨hmore, hlast⟩ := rebuildLeave_outstanding ha hk
    exact ⟨hmore, hlast, fun m op r hp => operationEnded_aborting ha hk m hp r⟩

end Sys2Proof.Machine
end

section
/-!
The lane link, the steps: how a step answers a command that changes one lane, a lane's runtime state, or nothing.
-/
namespace Sys2Proof.Machine

/-! ## Steps that change one lane -/

theorem Part.modLane_eq (p : Part) (l : LaneId) (f : Lane → Lane) : p.modLane l f = p.setLane l (f (p.lane l)) := rfl

@[simp] theorem State.withPart_self (s : State) : s.withPart s.part = s := rfl

/-- A command that leaves a part at rest as it is leaves the state as it is. -/
theorem State.act_of_same {f : Part → Part} {s : State} (hr : s.part.atRest) (hf : f s.part = s.part) : s.act f = .next s := by
  rw [State.act_of_rest (hf.symm ▸ hr), hf, State.withPart_self]

/-- A command that changes one lane alone. -/
theorem State.act_of_setLane {f : Part → Part} {s : State} {l : LaneId} {x : Lane} (hr : s.part.atRest)
    (hf : f s.part = s.part.setLane l x) : s.act f = .next (s.withPart (s.part.setLane l x)) := by
  rw [State.act_of_rest (hf.symm ▸ Part.atRest_setLane hr l x), hf]

/-- Two commands with the same effect on the part are answered alike. -/
theorem State.act_congr {f g : Part → Part} {s : State} (h : f s.part = g s.part) : s.act f = s.act g := by
  simp only [State.act, Part.act, h]

/-- The same, where the second command finds another part. -/
theorem State.act_withPart {f g : Part → Part} {s : State} {q : Part} (h : f s.part = g q) : s.act f = (s.withPart q).act g := by
  simp only [State.act, Part.act, h]
  rfl

/-! ## Steps that change a lane's runtime state -/

/-- A change of runtime state with the volumes derived and nothing for patrol to begin: the state and its event (R42). -/
theorem State.act_of_changeRuntime {f : Part → Part} {s : State} {q : Part} {l : LaneId} {new : RuntimeState} {c : LaneCause}
    {tag : Word} (hf : f s.part = changeRuntime l new c tag q) (hr : q.atRest) (hd : q.derived) (hp : q.patrolIdle)
    (hn : new ≠ .online) (ho : (q.lane l).runtime ≠ .online) (ha : q.engine.state ≠ .attaching) :
    s.act f = .next (s.withPart (passEvent (laneStateEvent l (q.lane l).runtime new c tag)
      (q.setLane l { q.lane l with runtime := new }))) := by
  have hrest := Part.atRest_passEvent (Part.atRest_setLane hr l { q.lane l with runtime := new })
    (laneStateEvent l (q.lane l).runtime new c tag)
  have hidle : (passEvent (laneStateEvent l (q.lane l).runtime new c tag)
      (q.setLane l { q.lane l with runtime := new })).patrolIdle := by
    simpa [Part.patrolIdle] using hp
  exact State.act_of_push (hf.trans (changeRuntime_idle c tag hd hn ho ha)) hrest.1 (patrolTry_idle hidle) hrest

theorem RuntimeState.serviceable_iff (r : RuntimeState) : r.serviceable = true ↔ r = .online ∨ r = .rebuilding := by
  cases r <;> decide

theorem RuntimeState.ne_online_of_idle {r : RuntimeState} (h : r.idle = true) : r ≠ .online := by
  rintro rfl
  exact absurd h (by decide)

/-! ## The reply awaited -/

theorem Lane.awaited_eq_some {L : Lane} {c : Command} :
    L.awaited = some c ↔ ∃ t, L.txn = some t ∧ t.phase = .awaiting ∧ t.cmd = c := by
  unfold Lane.awaited
  cases L.txn with
  | none => simp
  | some t => simp

theorem Lane.awaited_of_awaiting {L : Lane} {t : Txn} (h : L.txn = some t) (hp : t.phase = .awaiting) :
    L.awaited = some t.cmd := Lane.awaited_eq_some.2 ⟨t, h, hp, rfl⟩

theorem Lane.awaited_of_not_awaiting {L : Lane} {t : Txn} (h : L.txn = some t) (hp : t.phase ≠ .awaiting) :
    L.awaited = none := by
  simp [Lane.awaited, h, hp]

section
variable {l : LaneId} {p : Part} {t : Txn}

/-! ## Bad replies, RESENDs and NOT_READY (R24, R25, R27) -/

theorem badReplyTaken_counts (h : (p.lane l).txn = some t) (hp : t.phase = .awaiting) (hn : t.replyResends < 3) :
    badReplyTaken l p = p.setLane l { p.lane l with
      txn := some { t with replyResends := t.replyResends + 1 }, lastSent := some .resend
      counters := { (p.lane l).counters with resends := satInc (p.lane l).counters.resends } } := by
  simp only [badReplyTaken, h]
  refine (if_neg (not_not.2 hp)).trans ((if_pos hn).trans ?_)
  simp only [Part.modLane_eq, Lane.count, Lane.modTxn, h, Option.map_some]

theorem badReplyTaken_fails (h : (p.lane l).txn = some t) (hp : t.phase = .awaiting) (hn : 3 ≤ t.replyResends) :
    badReplyTaken l p = linkFailure l p := by
  simp only [badReplyTaken, h]
  exact (if_neg (not_not.2 hp)).trans (if_neg (Nat.not_lt.2 hn))

theorem moduleResendTaken_counts (h : (p.lane l).txn = some t) (hp : t.phase = .awaiting) (hn : t.commandResends < 3) :
    moduleResendTaken l p = p.setLane l { p.lane l with
      txn := some { t with commandResends := t.commandResends + 1 }, lastSent := some (.command t.cmd)
      counters := { (p.lane l).counters with resends := satInc (p.lane l).counters.resends } } := by
  simp only [moduleResendTaken, h]
  refine (if_neg (not_not.2 hp)).trans ((if_pos hn).trans ?_)
  simp only [Part.modLane_eq, Lane.count, Lane.modTxn, h, Option.map_some]

theorem moduleResendTaken_fails (h : (p.lane l).txn = some t) (hp : t.phase = .awaiting) (hn : 3 ≤ t.commandResends) :
    moduleResendTaken l p = linkFailure l p := by
  simp only [moduleResendTaken, h]
  exact (if_neg (not_not.2 hp)).trans (if_neg (Nat.not_lt.2 hn))

theorem notReadyTaken_waits (h : (p.lane l).txn = some t) (hp : t.phase = .awaiting) (hn : t.notReady < 50) :
    notReadyTaken l p = p.setLane l { p.lane l with txn := some { t with phase := .notReadyWait } } := by
  simp only [notReadyTaken, h]
  refine (if_neg (not_not.2 hp)).trans ((if_pos hn).trans ?_)
  simp only [Part.modLane_eq, Lane.modTxn, h, Option.map_some]

theorem notReadyTaken_fails (h : (p.lane l).txn = some t) (hp : t.phase = .awaiting) (hn : 50 ≤ t.notReady) :
    notReadyTaken l p = linkFailure l p := by
  simp only [notReadyTaken, h]
  exact (if_neg (not_not.2 hp)).trans (if_neg (Nat.not_lt.2 hn))

theorem notReadyWaited_counts (h : (p.lane l).txn = some t) (hp : t.phase = .notReadyWait) :
    notReadyWaited l p = p.setLane l { p.lane l with
      txn := some { t with phase := .awaiting, notReady := t.notReady + 1 }, lastSent := some (.command t.cmd)
      counters := { (p.lane l).counters with notReadyRetries := satInc (p.lane l).counters.notReadyRetries } } := by
  simp only [notReadyWaited, h]
  refine (if_neg (not_not.2 hp)).trans ?_
  simp only [Part.modLane_eq, Lane.count, Lane.modTxn, h, Option.map_some]

/-- Where no reply is awaited whatever the module sends is discarded (R23, R27). -/
theorem messages_discarded (h : (p.lane l).txn = some t) (hp : t.phase ≠ .awaiting) :
    badReplyTaken l p = p ∧ notReadyTaken l p = p ∧ moduleResendTaken l p = p
    ∧ (∀ x c m, identReplyTaken l x c m p = p) ∧ (∀ codes data, readReplyTaken l codes data p = p)
    ∧ (∀ codes, writeReplyTaken l codes p = p) ∧ ∀ code, fillReplyTaken l code p = p := by
  have ha := Lane.awaited_of_not_awaiting h hp
  refine ⟨?_, ?_, ?_, fun _ _ _ => ?_, fun _ _ => ?_, fun _ => ?_, fun _ => ?_⟩
  · simp only [badReplyTaken, h, ne_eq, hp, not_false_eq_true, if_true]
  · simp only [notReadyTaken, h, ne_eq, hp, not_false_eq_true, if_true]
  · simp only [moduleResendTaken, h, ne_eq, hp, not_false_eq_true, if_true]
  · simp only [identReplyTaken, ha]
  · simp only [readReplyTaken, ha]
  · simp only [writeReplyTaken, ha]
  · simp only [fillReplyTaken, ha]

/-! ## Link failures (R28, R48) -/

/-- The lane with a strike lost and its transaction begun again. -/
def Lane.struck (L : Lane) (t : Txn) : Lane :=
  { L with
    budget := L.budget - 1, txn := some ⟨t.cmd, 0, 0, 0, .awaiting⟩, lastSent := some (.command t.cmd)
    counters := { L.counters with transactions := satInc L.counters.transactions } }

theorem linkFailure_strikes (h : (p.lane l).txn = some t) (hs : p.serviceable l = true) (hb : 2 ≤ (p.lane l).budget) :
    linkFailure l p = p.setLane l ((p.lane l).struck t) := by
  have hb' : ¬ (p.lane l).budget ≤ 1 := by omega
  have hre : (p.lane l).reissue = (p.lane l).begin t.cmd := by simp only [Lane.reissue, h]
  rcases (RuntimeState.serviceable_iff _).1 hs with hr | hr <;>
    simp only [linkFailure, hr, if_neg hb', Part.modLane_eq, hre] <;> rfl

theorem linkFailure_departs (hs : p.serviceable l = true) (hb : (p.lane l).budget ≤ 1) :
    linkFailure l p = depart l .strikes 0 (p.setLane l { p.lane l with budget := 0, txn := none }) := by
  rcases (RuntimeState.serviceable_iff _).1 hs with hr | hr <;>
    simp only [linkFailure, hr, if_pos hb, Part.modLane_eq]

theorem identifyEnded_of_not_attaching (h : p.engine.state ≠ .attaching) : identifyEnded l p = p := if_neg h

theorem linkFailure_identifying (hr : (p.lane l).runtime = .identifying) (ha : p.engine.state ≠ .attaching) :
    linkFailure l p =
      changeRuntime l .failed .identFailed 0 (p.setLane l { (p.lane l).unidentified with txn := none }) := by
  have hq := (grows_changeRuntime l .failed .identFailed 0 (p.setLane l { (p.lane l).unidentified with txn := none })).engine
  simp only [linkFailure, hr]
  exact identifyEnded_of_not_attaching (by rw [Part.modLane_eq, hq]; exact ha)

end

/-- A failed identification outside ATTACHING leaves the lane FAILED and unidentified (R28, R32). -/
theorem act_identification_fails {s : State} {l : LaneId} {f : Part → Part} (hf : f s.part = linkFailure l s.part)
    (hr : s.part.atRest) (hi : (s.part.lane l).runtime = .identifying) (ha : s.part.engine.state ≠ .attaching)
    (hd : s.part.derived) (hp : s.part.patrolIdle) :
    s.act f = .next (s.withPart (passEvent (laneStateEvent l .identifying .failed .identFailed 0)
      (s.part.setLane l { s.part.lane l with
        runtime := .failed, identified := false, serial := 0, capacity := 0, largest := 0, identification := none
        txn := none }))) := by
  set q := s.part.setLane l { (s.part.lane l).unidentified with txn := none } with hq
  have hlane : q.lane l = { (s.part.lane l).unidentified with txn := none } := by simp [hq]
  have hrun : (q.lane l).runtime = .identifying := by rw [hlane]; exact hi
  rw [State.act_of_changeRuntime (q := q) (hf.trans (linkFailure_identifying hi ha)) (Part.atRest_setLane hr ..)
    (Part.derived_setLane hd Iff.rfl) hp (by decide) (by rw [hrun]; decide) ha, hrun, hlane, hq, Part.setLane_setLane]
  rfl

/-! ## O26 to O28 and O23 -/

/-- Settles O26: one equation per handler and phase, each a change of one lane. -/
theorem badRepliesAndNotReadyRetryTheTransaction : Obligations.BadRepliesAndNotReadyRetryTheTransaction := by
  intro l s t hr ht p L
  refine ⟨fun hp => ⟨fun hn => ?_, fun hn => ?_, fun hn => ?_, fun hn => ?_, fun hn => ?_⟩, fun hp => ⟨?_, ?_⟩, fun hp => ?_⟩
  · exact State.act_of_setLane hr (badReplyTaken_counts ht hp hn)
  · exact State.act_congr (badReplyTaken_fails ht hp hn)
  · exact State.act_of_setLane hr (moduleResendTaken_counts ht hp hn)
  · exact State.act_of_setLane hr (notReadyTaken_waits ht hp hn)
  · exact State.act_congr (notReadyTaken_fails ht hp hn)
  · simp only [Txn.timerMs, hp]
  · exact State.act_of_setLane hr (notReadyWaited_counts ht hp)
  · obtain ⟨hbad, hwait, hresend, hident, hread, hwrite, hfill⟩ := messages_discarded (p := p) ht hp
    exact ⟨State.act_of_same hr hbad, State.act_of_same hr hwait, State.act_of_same hr hresend, rfl,
      fun x c m => State.act_of_same hr (hident x c m), fun codes data => State.act_of_same hr (hread codes data),
      fun codes => State.act_of_same hr (hwrite codes), fun code => State.act_of_same hr (hfill code)⟩

/-- Settles O27, from the handler's two equations. -/
theorem moduleResendSendsTheCommandAgain : Obligations.ModuleResendSendsTheCommandAgain := by
  intro l s t hr ht hp p L
  refine ⟨fun hn => ?_, fun hn => ?_⟩
  · rw [← hp]
    exact State.act_of_setLane hr (moduleResendTaken_counts ht hp hn)
  · exact State.act_congr (moduleResendTaken_fails ht hp hn)

/-- Settles O28: below the budget a link failure changes the lane only, at it the lane departs, and an identification fails. -/
theorem linkFailuresCountAStrike : Obligations.LinkFailuresCountAStrike := by
  intro l s t hr ht p L
  refine ⟨fun hs hb => ?_, fun hs hb hf => ?_, fun hi ha hd hp => ?_⟩
  · exact State.act_of_setLane hr (linkFailure_strikes ht hs hb)
  · refine State.act_withPart (g := fun p => if p.engine.state = .faulted && DepartureCause.strikes ≠ .presenceLost then p
      else depart l .strikes 0 p) ((linkFailure_departs hs hb).trans ?_)
    exact (if_neg (by simp [hf])).symm
  · exact act_identification_fails rfl hr hi ha hd hp

/-- The record slot READ follows an IDENT reply within the limits. -/
theorem identReplyTaken_passes {l : LaneId} {p : Part} {serial : BitVec 64} {capacity largest : Word}
    (h : (p.lane l).awaited = some .ident) (hc : 1024 ≤ capacity.toNat) (hl : 16 ≤ largest.toNat) :
    identReplyTaken l serial capacity largest p = p.setLane l { p.lane l with
      identification := some (.slots serial capacity largest), txn := some ⟨.read 0 2, 0, 0, 0, .awaiting⟩
      lastSent := some (.command (.read 0 2))
      counters := { (p.lane l).counters with transactions := satInc (p.lane l).counters.transactions } } := by
  have hok : ¬ ((decide (capacity.toNat < Config.leastCapacity) || decide (largest.toNat < Config.leastLargest)) = true) := by
    simp only [Bool.or_eq_true, decide_eq_true_eq, not_or, Nat.not_lt]
    exact ⟨hc, hl⟩
  simp only [identReplyTaken, h]
  rw [if_neg hok]
  simp only [beginTxn, Part.modLane_modLane]
  rfl

/-- An IDENT reply outside the limits is a link failure. -/
theorem identReplyTaken_fails {l : LaneId} {p : Part} {serial : BitVec 64} {capacity largest : Word}
    (h : (p.lane l).awaited = some .ident) (hc : capacity.toNat < 1024 ∨ largest.toNat < 16) :
    identReplyTaken l serial capacity largest p = linkFailure l p := by
  have hbad : (decide (capacity.toNat < Config.leastCapacity) || decide (largest.toNat < Config.leastLargest)) = true := by
    simp only [Bool.or_eq_true, decide_eq_true_eq]
    exact hc
  simp only [identReplyTaken, h]
  exact if_pos hbad

/-- Settles O23, from the two outcomes of an IDENT reply. -/
theorem identReplyLeadsToTheSlotRead : Obligations.IdentReplyLeadsToTheSlotRead := by
  intro l serial capacity largest s hr p L hw
  refine ⟨fun hc hl => ?_, fun hbad ha hi hd hp => ?_⟩
  · exact State.act_of_setLane hr (identReplyTaken_passes hw hc hl)
  · exact act_identification_fails (identReplyTaken_fails hw hbad) hr hi ha hd hp

end Sys2Proof.Machine
end

section
/-!
ABANDON, and the qualified changes of PRESENT (R31 to R33, R190, R193).
-/
namespace Sys2Proof.Machine

/-! ## ABANDON -/

/-- What a lane holds after ABANDON. -/
theorem abandon_lane (p : Part) (l : LaneId) : (abandon p).lane l = (p.lane l).cut.detached := by
  simp [Part.lane, abandon, enterDetached, Part.mapLanes]

/-- Entry into DETACHED gives every block its DETACHED values. -/
theorem enterDetached_values (p : Part) : (enterDetached p).DetachedValues := by
  have hlane : ∀ l, (enterDetached p).lane l = (p.lane l).detached := fun l => by simp [Part.lane, enterDetached]
  exact
    { engine := ⟨rfl, rfl⟩
      docket := rfl
      table := fun e => by simp [Part.entry, enterDetached]
      volumes := fun v => by simp [Part.vol, enterDetached]
      locks := rfl
      pool := ⟨rfl, fun b hb => by simpa [enterDetached, Pool.empty] using hb⟩
      lanes := fun l => by rw [hlane]; exact ⟨rfl, rfl, rfl, rfl, rfl, rfl⟩
      remaps := fun l => by rw [hlane]; exact ⟨rfl, rfl, rfl, rfl⟩
      work := fun l => by rw [hlane]; exact ⟨rfl, rfl, rfl, rfl, rfl, rfl, rfl⟩
      committer := rfl
      repair := rfl
      patrol := rfl
      rebuild := rfl
      journal := rfl
      interrupt := ⟨rfl, rfl, rfl, rfl⟩ }

/-- Settles O17: DETACHED leaves nothing on the agenda, so the step ends with the command. -/
theorem abandonEndsTheAttachmentAtOnce : Obligations.AbandonEndsTheAttachmentAtOnce := by
  intro s hs
  have htaken : engineCommand 5 abandonTaken s.part = abandonTaken s.part :=
    if_pos (show commandAllowed 5 s.part.engine.state = true by simpa [commandAllowed] using hs)
  have hrest : (abandonTaken s.part).atRest := ⟨rfl, Part.haltTested_of_state (show EngineState.detached ≠ .halting by decide)⟩
  have hlane : ∀ l, (abandonTaken s.part).lane l = (s.part.lane l).cut.detached := fun l => abandon_lane _ l
  refine ⟨s.withPart (abandonTaken s.part), ?_, rfl, enterDetached_values _, ⟨rfl, fun l => ?_⟩, rfl, rfl, rfl, rfl, fun l => ?_⟩
  · exact (State.act_congr htaken).trans (State.act_of_rest hrest)
  · rw [State.withPart_part, hlane]
    exact ⟨rfl, rfl⟩
  · rw [State.withPart_part, hlane]
    exact ⟨fun h => by simp [Lane.detached, Lane.cut, h],
      fun h => by simp [Lane.detached, Lane.cut, Option.isSome_iff_ne_none.2 h]⟩

/-! ## A qualified fall (R31, R33) -/

/-- The answer to a command that hands on nothing but a test of patrol's, with nothing for patrol to begin. -/
theorem State.act_of_patrolTry {f : Part → Part} {s : State} {q : Part} (hf : f s.part = q.push [.patrolTry])
    (hr : q.atRest) (hp : q.patrolIdle) : s.act f = .next (s.withPart q) :=
  State.act_of_push hf hr.1 (patrolTry_idle hp) hr

section
variable {p : Part} {l : LaneId}

theorem Lane.changing_iff {L : Lane} {level : Bool} :
    L.changing level = true ↔ L.qualifying = true ∧ L.present ≠ level ∧ L.raw = level := by
  simp [Lane.changing, and_assoc]

theorem Lane.not_changing {L : Lane} {level : Bool} (h : L.present = level ∨ L.qualifying = false ∨ L.raw = !level) :
    L.changing level = false := by
  rcases h with h | h | h <;> simp [Lane.changing, h]

/-- Outside DETACHED and ATTACHING a change of PRESENT is neither noted nor held. -/
theorem Part.takes_presence (hd : p.engine.state ≠ .detached) (ha : p.engine.state ≠ .attaching) :
    p.notes = false ∧ p.holds l = false := by
  simp [Part.notes, Part.holds, hd, ha]

theorem presenceFell_same (h : (p.lane l).changing false = false) : presenceFell l p = p := by
  simp [presenceFell, h]

/-- The fall is taken by the engine state, and then by the lane. -/
theorem presenceFell_changing (h : (p.lane l).changing false = true) :
    let q := p.setLane l ((p.lane l).qualified false)
    presenceFell l p =
      if q.notes then q
      else if q.holds l then q.modLane l fun L => { L with held := true, fell := true }
      else if (q.lane l).lineTest.isSome then q.modLane l fun L => { L with fell := true }
      else presenceLost l q := by
  intro q
  unfold presenceFell
  exact if_neg (by simp [h])

theorem presenceRose_same (h : (p.lane l).changing true = false) : presenceRose l p = p := by
  simp [presenceRose, h]

theorem presenceRose_changing (h : (p.lane l).changing true = true) :
    let q := p.setLane l ((p.lane l).qualified true)
    presenceRose l p =
      if q.notes || q.engine.state = .faulted then q
      else if q.holds l then q.modLane l fun L => { L with held := true }
      else if (q.lane l).runtime = .empty then beginIdentify l q
      else q := by
  intro q
  unfold presenceRose
  exact if_neg (by simp [h])

/-- The lane without presence: its work is gone and it is unidentified. -/
def Lane.absentee (L : Lane) : Lane :=
  { L with
    identified := false, serial := 0, capacity := 0, largest := 0, identification := none, txn := none, streak := 0 }

/-- A loss on a lane without work that is not serviceable: the lane is unidentified, and EMPTY if it was not (R31). -/
theorem presenceLost_workless (hs : p.serviceable l = false) (hw : (p.lane l).workless) :
    let q := p.setLane l (p.lane l).absentee
    presenceLost l p = if (p.lane l).runtime = .empty then q else changeRuntime l .empty .presenceLost 0 q := by
  intro q
  have hq : (clearLaneWork l true p).modLane l Lane.unidentified = q := by
    rw [clearLaneWork_workless hw, Part.setLane_modLane]
    rfl
  have hrun : (q.lane l).runtime = (p.lane l).runtime := by simp [q, Lane.absentee]
  unfold presenceLost
  refine (if_neg (by simp [hs])).trans ?_
  dsimp only
  rw [hq, hrun]

theorem Part.not_serviceable (h : (p.lane l).runtime.serviceable = false) : p.serviceable l = false := h

theorem RuntimeState.not_serviceable_of_idle {r : RuntimeState} (h : r.idle = true ∨ r = .identifying) :
    r.serviceable = false ∧ r ≠ .empty ∧ r ≠ .online := by
  cases r <;> simp_all [RuntimeState.idle, RuntimeState.serviceable]

/-- Identification begins on an EMPTY lane while HOLD is deasserted: IDENT is sent, and patrol tests (R32). -/
theorem beginIdentify_idle (hd : p.derived) (hr : (p.lane l).runtime = .empty) (hh : (p.lane l).hold = false) :
    beginIdentify l p = (p.setLane l { p.lane l with
      runtime := .identifying, identification := some .ident, txn := some (.start .ident)
      lastSent := some (.command .ident)
      counters := { (p.lane l).counters with transactions := satInc (p.lane l).counters.transactions } }).push
        [.patrolTry] := by
  set x : Lane := { p.lane l with runtime := .identifying, identification := some .ident } with hx
  have hbegun : (setRuntimeQuietly l .identifying p).modLane l (fun L => { L with identification := some .ident }) =
      (p.setLane l x).push [.patrolTry] := by
    rw [setRuntimeQuietly_idle hd (by decide) (by rw [hr]; decide), Part.push_modLane, Part.setLane_modLane]
  have hhold : (((p.setLane l x).push [.patrolTry]).lane l).hold = false := by
    rw [Part.push_lane, Part.lane_setLane, if_pos rfl]
    exact hh
  unfold beginIdentify
  dsimp only
  rw [hbegun, hhold]
  simp only [Bool.false_eq_true, if_false, beginTxn, Part.push_modLane, Part.setLane_modLane]
  rfl

end

/-- Settles O21, by the engine states that take the loss, note it or pass over it. -/
theorem presenceLossIsTakenByTheEngineState : Obligations.PresenceLossIsTakenByTheEngineState := by
  intro l s hr p L low taken
  refine ⟨fun h => ?_, fun h1 h2 h3 => ?_⟩
  · exact State.act_of_same hr (presenceFell_same (Lane.not_changing h))
  have hfell := presenceFell_changing (p := p) (l := l) (Lane.changing_iff.2 ⟨h2, by rw [h1]; decide, h3⟩)
  set q := p.setLane l (L.qualified false) with hq
  have hlow : q.lane l = low := (Part.lane_setLane p l l _).trans (if_pos rfl)
  have hqr : q.atRest := Part.atRest_setLane hr _ _
  have hact : taken → presenceFell l p = if (q.lane l).lineTest.isSome then q.modLane l fun L => { L with fell := true }
      else presenceLost l q := fun ht => by
    obtain ⟨hn, hh⟩ := Part.takes_presence (p := q) (l := l) ht.1 ht.2
    rw [hfell, hn, hh]
    rfl
  have hlost : taken → L.lineTest = none → presenceFell l p = presenceLost l q := fun ht hl => by
    rw [hact ht, hlow]
    exact if_neg (by simp [low, hl])
  refine ⟨fun hd => ?_, fun ha hs hi => ?_, fun ht hl => ?_, fun ht hl hsv => ?_, fun ht hl hi hw hder hpat => ?_,
    fun ht hl he hw => ?_⟩
  · have hn : q.notes = true := by simp [hq, Part.notes, hd]
    exact State.act_of_setLane hr (hfell.trans (if_pos hn))
  · have hn : ¬ q.notes = true := by simp [hq, Part.notes, ha, hs]
    have hh : q.holds l = true := by simp [hq, Part.holds, ha, Lane.qualified, hi, p, L]
    refine State.act_of_setLane hr ((hfell.trans (if_neg hn)).trans ((if_pos hh).trans ?_))
    rw [hq, Part.setLane_modLane]
    rfl
  · refine State.act_of_setLane hr ((hact ht).trans ((if_pos ?_).trans ?_))
    · rw [hlow]
      exact Option.isSome_iff_ne_none.2 hl
    · rw [hq, Part.setLane_modLane]
      rfl
  · refine State.act_withPart (g := fun p => if p.engine.state = .faulted && DepartureCause.presenceLost ≠ .presenceLost
      then p else depart l .presenceLost 0 p) ((hlost ht hl).trans ?_)
    have hqs : q.serviceable l = true := by
      unfold Part.serviceable
      rw [hlow]
      exact hsv
    exact (if_pos hqs).trans (if_neg (by simp)).symm
  · obtain ⟨hns, hne, hno⟩ := RuntimeState.not_serviceable_of_idle hi
    have hrun : (q.lane l).runtime = L.runtime := by rw [hlow]
    set r := q.setLane l (q.lane l).absentee with hrdef
    have hrl : r.lane l = low.absentee := by rw [hrdef, Part.lane_setLane, if_pos rfl, hlow]
    have hgone := presenceLost_workless (p := q) (l := l) (Part.not_serviceable (by rw [hrun]; exact hns))
      (by rw [hlow]; exact hw)
    have hch : presenceFell l p = changeRuntime l .empty .presenceLost 0 r :=
      (hlost ht hl).trans (hgone.trans (if_neg (by rw [hrun]; exact hne)))
    have hrder : r.derived := Part.derived_setLane (Part.derived_setLane hder Iff.rfl) Iff.rfl
    refine (State.act_of_changeRuntime (q := r) hch (Part.atRest_setLane hqr _ _) hrder hpat (by decide)
      (by rw [hrl]; exact hno) ht.2).trans ?_
    rw [hrl, hrdef, hq, Part.setLane_setLane, Part.setLane_setLane]
    rfl
  · have hrun : (q.lane l).runtime = .empty := by rw [hlow]; exact he
    have hgone := presenceLost_workless (p := q) (l := l) (Part.not_serviceable (by rw [hrun]; rfl)) (by rw [hlow]; exact hw)
    refine State.act_of_setLane hr ((hlost ht hl).trans (hgone.trans ((if_pos hrun).trans ?_)))
    rw [hlow, hq, Part.setLane_setLane]
    rfl

/-- Settles O22, by the engine states that take the arrival, note it or pass over it. -/
theorem presenceArrivalBeginsIdentification : Obligations.PresenceArrivalBeginsIdentification := by
  intro l s hr p L high taken
  refine ⟨fun h => ?_, fun h1 h2 h3 => ?_⟩
  · exact State.act_of_same hr (presenceRose_same (Lane.not_changing h))
  have hrose := presenceRose_changing (p := p) (l := l) (Lane.changing_iff.2 ⟨h2, by rw [h1]; decide, h3⟩)
  set q := p.setLane l (L.qualified true) with hq
  have hhigh : q.lane l = high := (Part.lane_setLane p l l _).trans (if_pos rfl)
  have hact : taken → presenceRose l p = if (q.lane l).runtime = .empty then beginIdentify l q else q := fun ht => by
    obtain ⟨hn, hh⟩ := Part.takes_presence (p := q) (l := l) ht.1 ht.2.1
    have hf : ¬ (q.notes || decide (q.engine.state = .faulted)) = true := by
      rw [hn]
      simpa using (show q.engine.state ≠ .faulted from ht.2.2)
    exact hrose.trans ((if_neg hf).trans (if_neg (by simp [hh])))
  refine ⟨fun hd => ?_, fun ha hs hi => ?_, fun ht hne => ?_, fun ht he hh hder hpat => ?_⟩
  · have hn : (q.notes || decide (q.engine.state = .faulted)) = true := by
      rcases hd with hd | hd <;> simp [hq, Part.notes, hd]
    exact State.act_of_setLane hr (hrose.trans (if_pos hn))
  · have hn : ¬ (q.notes || decide (q.engine.state = .faulted)) = true := by simp [hq, Part.notes, ha, hs]
    have hh : q.holds l = true := by
      unfold Part.holds
      rw [hhigh]
      simpa [hq, ha, high] using hi
    refine State.act_of_setLane hr ((hrose.trans (if_neg hn)).trans ((if_pos hh).trans ?_))
    rw [hq, Part.setLane_modLane]
    rfl
  · exact State.act_of_setLane hr ((hact ht).trans (if_neg (by rw [hhigh]; exact hne)))
  · have hrun : (q.lane l).runtime = .empty := by rw [hhigh]; exact he
    have hbegun := beginIdentify_idle (p := q) (l := l) (Part.derived_setLane hder Iff.rfl) hrun (by rw [hhigh]; exact hh)
    refine State.act_of_patrolTry (((hact ht).trans (if_pos hrun)).trans (hbegun.trans ?_)) (Part.atRest_setLane hr _ _) hpat
    rw [hhigh, hq, Part.setLane_setLane]

end Sys2Proof.Machine
end

section
/-!
The reply timer, the HOLD pulses and the ends of operations (R26, R36, R44, R80), the line test (R34, R35), and the requests that
RETIRE and PROBE a lane (R50, R53, R54).
-/
namespace Sys2Proof.Machine

/-! ## An operation ends with nothing else waiting on its lane -/

theorem laneChoose_emptyQueue {p : Part} {l : LaneId} (h : (p.lane l).queue = []) : laneChoose l p = p := by
  rw [laneChoose_eq, h]
  cases p.chooses l <;> rfl

/-- With nothing queued and no place waiter the lane is left without an operation (R76, R77). -/
theorem freePlace_idle {p : Part} {l : LaneId} (hq : (p.lane l).queue = []) (hw : (p.lane l).waiters = []) :
    freePlace l p = p.setLane l { p.lane l with service := none } := by
  have hfreed : ({ p.lane l with
      service := none, queue := (p.lane l).queue ++ (p.lane l).waiters.take 1, waiters := (p.lane l).waiters.drop 1 } : Lane) =
      { p.lane l with service := none } := by
    simp only [hq, hw, List.take_nil, List.append_nil, List.drop_nil]
  unfold freePlace
  dsimp only
  rw [hfreed]
  exact laneChoose_emptyQueue (by simpa using hq)

/-- The place frees, and the end is handed to the producer. -/
theorem freePlace_push_idle {p : Part} {l : LaneId} (hq : (p.lane l).queue = []) (hw : (p.lane l).waiters = [])
    (ts : List Task) : freePlace l (p.push ts) = (p.setLane l { p.lane l with service := none }).push ts :=
  freePlace_idle (p := p.push ts) hq hw

/-! ## The reply timer and the pulses (R26, R36, R44) -/

section
variable {p : Part} {l : LaneId} {t : Txn}

theorem replyTimedOut_holds (h : (p.lane l).txn = some t) (hp : t.phase = .awaiting) :
    replyTimedOut l p = p.setLane l { p.lane l with
      txn := some { t with phase := .timeoutHold }, pulse := some .timeout
      counters := { (p.lane l).counters with timeouts := satInc (p.lane l).counters.timeouts } } := by
  simp only [replyTimedOut, h]
  refine (if_neg (not_not.2 hp)).trans ?_
  simp only [Part.modLane_eq, Lane.count, Lane.modTxn, h, Option.map_some]

theorem replyTimedOut_none (h : (p.lane l).txn = none) : replyTimedOut l p = p := by
  simp only [replyTimedOut, h]

/-- The lane with HOLD's pulse ended. -/
theorem Part.lane_pulseEnded (p : Part) (l : LaneId) :
    (p.setLane l { p.lane l with pulse := none }).lane l = { p.lane l with pulse := none } := by
  rw [Part.lane_setLane, if_pos rfl]

/-- The end of a pulse with a transaction outstanding is a link failure (R26). -/
theorem endPulse_fails (h : (p.lane l).txn = some t) :
    endPulse l p = linkFailure l (p.setLane l { p.lane l with pulse := none }) := by
  have hlane := Part.lane_pulseEnded p l
  set q := p.setLane l { p.lane l with pulse := none } with hq
  have ht : (q.lane l).txn = some t := by rw [hlane]; exact h
  simp only [endPulse, Part.modLane_eq, ← hq, ht]

/-- The end of a pulse with nothing of the lane's waiting for it. -/
theorem endPulse_idle (h : (p.lane l).txn = none) (hi : (p.lane l).identification ≠ some .ident)
    (hs : (p.lane l).service = none) (hc : (p.lane l).queue = []) :
    endPulse l p = p.setLane l { p.lane l with pulse := none } := by
  have hlane := Part.lane_pulseEnded p l
  set q := p.setLane l { p.lane l with pulse := none } with hq
  have ht : (q.lane l).txn = none := by rw [hlane]; exact h
  have hw : (q.lane l).service = none := by rw [hlane]; exact hs
  simp only [endPulse, Part.modLane_eq, ← hq, ht, hw]
  exact (if_neg (by rw [hlane]; simp [hi])).trans (laneChoose_emptyQueue (by rw [hlane]; exact hc))

/-- The end of the pulse that cuts an operation: it ends LANE_LOST (R44). -/
theorem endPulse_cut {sv : Service} (h : (p.lane l).txn = none) (hi : (p.lane l).identification = none)
    (hs : (p.lane l).service = some sv) (he : sv.ending = true) :
    endPulse l p = freePlace l ((p.setLane l { p.lane l with pulse := none }).push [.opEnded l sv.op .laneLost]) := by
  have hlane := Part.lane_pulseEnded p l
  set q := p.setLane l { p.lane l with pulse := none } with hq
  have ht : (q.lane l).txn = none := by rw [hlane]; exact h
  have hw : (q.lane l).service = some sv := by rw [hlane]; exact hs
  simp only [endPulse, Part.modLane_eq, ← hq, ht, hw]
  exact (if_neg (by rw [hlane]; simp [hi])).trans (if_pos he)

theorem pulseEnded_of_pulse {x : Pulse} (h : (p.lane l).pulse = some x) : pulseEnded x l p = endPulse l p := by
  have hx : (p.lane l).pulseIs x = true := by
    cases x <;> simp only [Lane.pulseIs, h]
  exact if_pos hx

theorem pulseEnded_none (h : (p.lane l).pulse = none) (x : Pulse) : pulseEnded x l p = p := by
  have hx : (p.lane l).pulseIs x = false := by
    cases x <;> simp only [Lane.pulseIs, h]
  exact if_neg (by simp [hx])

/-- A read of a patrol chunk that is not its last one is lost (R144). -/
theorem operationEnded_patrol_lost {c : PatrolChunk} {op : LaneOp} (hp : op.producer = .patrol)
    (hc : p.patrol.chunk = some c) (ho : 2 ≤ c.outstanding) :
    operationEnded l op .laneLost p =
      { p with patrol := { p.patrol with chunk := some { c with outstanding := c.outstanding - 1 } } } := by
  simp only [operationEnded, hp, patrolOpEnded, hc]
  exact if_neg (by omega)

end

/-- Settles O30, by what the pulse's end leaves for its cause. -/
theorem timeoutsAndHoldPulses : Obligations.TimeoutsAndHoldPulses := by
  intro l s hr p L
  refine ⟨rfl, fun t ht hp => ?_, fun t ht hu => ?_, fun ht hi hs hq => ⟨fun hu => ?_, fun hu => ?_⟩, fun ht => ?_,
    fun hu => ⟨?_, ?_, ?_⟩, fun sv c ht hi hu hs he hpr hq hw hc ho => ?_⟩
  · exact State.act_of_setLane hr (replyTimedOut_holds ht hp)
  · have hfails : pulseEnded .timeout l p = linkFailure l (p.setLane l { L with pulse := none }) :=
      (pulseEnded_of_pulse hu).trans (endPulse_fails ht)
    have hlane := Part.lane_pulseEnded p l
    refine ⟨State.act_withPart hfails, fun hsv hb => State.act_of_setLane hr (hfails.trans ?_)⟩
    have hs : (p.setLane l { L with pulse := none }).serviceable l = true := by
      unfold Part.serviceable
      rw [hlane]
      exact hsv
    rw [linkFailure_strikes (by rw [hlane]; exact ht) hs (by rw [hlane]; exact hb), hlane, Part.setLane_setLane]
    rfl
  · exact State.act_of_setLane hr ((pulseEnded_of_pulse hu).trans (endPulse_idle ht hi hs hq))
  · exact State.act_of_setLane hr ((pulseEnded_of_pulse hu).trans (endPulse_idle ht hi hs hq))
  · exact State.act_of_same hr (replyTimedOut_none ht)
  · exact State.act_of_same hr (pulseEnded_none hu _)
  · exact State.act_of_same hr (pulseEnded_none hu _)
  · exact State.act_of_same hr (pulseEnded_none hu _)
  · have hlane := Part.lane_pulseEnded p l
    have hcut := endPulse_cut (p := p) ht hi hs he
    rw [freePlace_push_idle (by rw [hlane]; exact hq) (by rw [hlane]; exact hw), hlane, Part.setLane_setLane] at hcut
    refine State.act_of_push ((pulseEnded_of_pulse hu).trans hcut) hr.1 (operationEnded_patrol_lost hpr hc ho) ⟨hr.1, ?_⟩
    rintro ⟨-, hdrained⟩
    simp [Part.drained] at hdrained

/-! ## The line test (R34, R35) -/

theorem LaneMask.ofList_single (l : LaneId) : LaneMask.ofList [l] = BitVec.ofNat 4 (2 ^ l.val) := by
  simp [LaneMask.ofList, LaneMask.add]

theorem Part.finished_setLane (p : Part) (l : LaneId) (x : Lane) (e : EntryId) (y : Entry) (o : ReqOutcome) (mask : LaneMask)
    (a b : Word) : (p.setLane l x).finished e y o mask a b = (p.finished e y o mask a b).setLane l x := rfl

/-- The PROBE finishes with the result, and then the lane returns, or is taken as one that lost its presence. -/
theorem lineTestEnded_eq {p : Part} {l : LaneId} {x : LineLevels} {t : LineTest} {y : Entry}
    (ht : (p.lane l).lineTest = some t) (hy : p.entry t.entry = some y) (hk : p.Kept)
    (hn : p.holdsNothing (.request t.entry)) :
    let q := (p.finished t.entry y .ok (BitVec.ofNat 4 (2 ^ l.val)) (LineLevels.result x) 0).setLane l
      { p.lane l with lineTest := none, fell := false }
    ((p.lane l).fell = false → lineTestEnded l x p = setRuntimeQuietly l t.remembered q)
    ∧ ((p.lane l).fell = true → (p.lane l).present = false → lineTestEnded l x p = presenceLost l q) := by
  intro q
  have hq : finish t.entry .ok (LaneMask.ofList [l]) (LineLevels.result x) 0
      (p.setLane l { p.lane l with lineTest := none, fell := false }) = q := by
    have hk' : (p.setLane l { p.lane l with lineTest := none, fell := false }).Kept := keep_setLane hk l (hk.places l)
    rw [LaneMask.ofList_single, finish_idle hk' hn hy, Part.finished_setLane]
  have hend : lineTestEnded l x p =
      if (p.lane l).fell then if (p.lane l).present then beginIdentify l (presenceLost l q) else presenceLost l q
      else setRuntimeQuietly l t.remembered q := by
    rw [← hq]
    simp only [lineTestEnded, ht]
  refine ⟨fun hf => ?_, fun hf hp => ?_⟩
  · exact hend.trans (if_neg (by simp [hf]))
  · exact hend.trans ((if_pos hf).trans (if_neg (by simp [hp])))

/-- Settles O31, by whether presence fell during the test. -/
theorem lineTestEndsTheProbe : Obligations.LineTestEndsTheProbe := by
  intro l x s t y hr p L result q ht hrun hidle hy hk hn hd hp
  set z : Lane := { L with lineTest := none, fell := false } with hz
  set r := q.setLane l z with hrdef
  have hrl : r.lane l = z := by rw [hrdef, Part.lane_setLane, if_pos rfl]
  have hrrest : r.atRest := Part.atRest_setLane (Part.atRest_finished hr.1 ..) _ _
  have hqd : q.derived := Part.derived_congr hd (fun v => rfl) fun k => rfl
  have hrd : r.derived := Part.derived_setLane hqd Iff.rfl
  obtain ⟨hstays, hfell⟩ := lineTestEnded_eq (x := x) ht hy hk hn
  refine ⟨fun hf => ?_, fun hf hpres hw ha => ?_⟩
  · have hquiet := setRuntimeQuietly_idle (p := r) (l := l) hrd (RuntimeState.ne_online_of_idle hidle)
      (by rw [hrl]; simp [hz, hrun])
    have hzf : ({ z with runtime := t.remembered } : Lane) = { L with lineTest := none, runtime := t.remembered } := by
      rw [hz, ← hf]
    rw [hrl, hzf, hrdef, Part.setLane_setLane] at hquiet
    exact State.act_of_patrolTry ((hstays hf).trans hquiet) (Part.atRest_setLane (Part.atRest_finished hr.1 ..) _ _) hp
  · have hns : (r.lane l).runtime.serviceable = false := by rw [hrl]; simp [hz, hrun, RuntimeState.serviceable]
    have hne : (r.lane l).runtime ≠ .empty := by rw [hrl]; simp [hz, hrun]
    have hgone := (presenceLost_workless (Part.not_serviceable hns) (by rw [hrl]; exact hw)).trans (if_neg hne)
    rw [hrl, hrdef, Part.setLane_setLane] at hgone
    have hlane : (q.setLane l z.absentee).lane l = z.absentee := by rw [Part.lane_setLane, if_pos rfl]
    have hrunz : z.absentee.runtime = .probing := hrun
    refine (State.act_of_changeRuntime ((hfell hf hpres).trans hgone)
      (Part.atRest_setLane (Part.atRest_finished hr.1 ..) _ _) (Part.derived_setLane hqd Iff.rfl) hp (by decide)
      (by rw [hlane, hrunz]; decide) ha).trans ?_
    rw [hlane, hrunz, Part.setLane_setLane]
    rfl

/-! ## RETIRE and PROBE (R50, R53, R54) -/

section
variable {r : Request}

theorem laneFormat_retire (h : r.selector = 2) : laneFormat r = if r.parameter = 0 then laneOf r.target else none := by
  simp [laneFormat, h, actionAdmit, actionRetire]

theorem laneFormat_probe (h : r.selector = 3) :
    laneFormat r = if r.parameter = 0 ∧ r.flags &&& 2 = 0 then laneOf r.target else none := by
  have hformat : laneFormat r =
      if (decide (r.parameter = 0) && !decide (r.flags &&& flagForce ≠ 0)) = true then laneOf r.target else none := by
    simp only [laneFormat, h]
    rfl
  refine hformat.trans (if_congr ?_ rfl rfl)
  simp only [Bool.and_eq_true, decide_eq_true_eq, Bool.not_eq_true', decide_eq_false_iff_not, not_not]
  exact Iff.rfl

theorem laneOf_of_le {b : Byte} (h : 4 ≤ b.toNat) : laneOf b = none := dif_neg (by omega)

end

theorem mem_allVols (v : VolId) : v ∈ allVols := by
  revert v
  decide

theorem Part.lastCopy_iff {p : Part} {l : LaneId} :
    p.lastCopy l = true ↔ ∃ v, (p.vol v).inUse = true ∧ p.onlineMembers v = [l] := by
  simp only [Part.lastCopy, Part.volumesOf, List.any_eq_true, List.mem_filter, Bool.and_eq_true, decide_eq_true_eq]
  constructor
  · rintro ⟨v, ⟨-, hu, -⟩, ho⟩
    exact ⟨v, hu, ho⟩
  · rintro ⟨v, hu, ho⟩
    have hl : l ∈ p.onlineMembers v := by simp [ho]
    exact ⟨v, ⟨mem_allVols v, hu, (Part.mem_onlineMembers.1 hl).1⟩, ho⟩

section
variable {e : EntryId} {r : Request} {l : LaneId} {p : Part} (hf : laneFormat r = some l)

theorem retireReceived_malformed (hf : laneFormat r = none) : retireReceived e r p = refuse e .refusedFormat p := by
  simp only [retireReceived, hf]

theorem probeReceived_malformed (hf : laneFormat r = none) : probeReceived e r p = refuse e .refusedFormat p := by
  simp only [probeReceived, hf]

include hf

theorem retireReceived_notServiceable (hs : p.serviceable l = false) (h1 : (p.lane l).runtime ≠ .stale)
    (h2 : (p.lane l).runtime ≠ .failed) : retireReceived e r p = refuse e .refusedLane p := by
  unfold Part.serviceable at hs
  simp only [retireReceived, hf]
  generalize (p.lane l).runtime = run at *
  cases run <;> simp_all [RuntimeState.serviceable]

/-- RETIRE of a serviceable lane: a departure, unless it is a last copy and FORCE is not set (R53). -/
theorem retireReceived_serviceable (hs : p.serviceable l = true) : retireReceived e r p =
    if (p.online l && p.lastCopy l && decide (r.flags &&& flagForce = 0)) = true then refuse e .refusedLastCopy p
    else depart l .retire r.tag (p.modEntry e (Entry.await .ok (BitVec.ofNat 4 (2 ^ l.val)) 0 0)) := by
  rw [← LaneMask.ofList_single]
  rcases (RuntimeState.serviceable_iff _).1 hs with h | h <;> simp only [retireReceived, hf, h]

theorem retireReceived_idle (h : (p.lane l).runtime = .stale ∨ (p.lane l).runtime = .failed) : retireReceived e r p =
    awaitCommit e (BitVec.ofNat 4 (2 ^ l.val))
      (changeRuntime l .offline .retire r.tag (p.setLane l { p.lane l with recorded := .offline })) := by
  rw [← LaneMask.ofList_single]
  rcases h with h | h <;> simp only [retireReceived, hf, h, Part.modLane_eq]

theorem probeReceived_refused (h : (p.lane l).runtime.idle = false) : probeReceived e r p = refuse e .refusedLane p := by
  simp only [probeReceived, hf]
  exact if_pos (by simp [h])

theorem probeReceived_begins (h : (p.lane l).runtime.idle = true) : probeReceived e r p =
    setEntryState e .atLanes (setRuntimeQuietly l .probing
      (p.setLane l { p.lane l with lineTest := some ⟨(p.lane l).runtime, e⟩, fell := false })) := by
  simp only [probeReceived, hf]
  exact if_neg (by simp [h])

end

/-- Waiting for a commit with one in flight, a test of patrol's being handed on. -/
theorem awaitCommit_push_committing {p : Part} {e : EntryId} {x : Entry} (h : p.entry e = some x) (hc : p.committing)
    (mask : LaneMask) (ts : List Task) :
    awaitCommit e mask (p.push ts) = ({ p with
      table := p.table.set e.val (some (x.await .ok mask 0 0))
      committer := { p.committer with requested := true } } : Part).push ts :=
  awaitCommit_committing (p := p.push ts) h hc mask

/-- A STALE or FAILED lane is retired with a commit in flight: it is OFFLINE, its event is passed and the request waits. -/
theorem retire_idle_effect {p : Part} {e : EntryId} {x : Entry} {l : LaneId} (tag : Word) (hc : p.committing) (hd : p.derived)
    (ho : (p.lane l).runtime ≠ .online) (st : EntryState) (mask : LaneMask) :
    awaitCommit e mask (changeRuntime l .offline .retire tag
      ((p.taken e { x with state := st }).setLane l { p.lane l with recorded := .offline })) =
    ({ passEvent (laneStateEvent l (p.lane l).runtime .offline .retire tag)
        ((p.taken e (x.await .ok mask 0 0)).setLane l { p.lane l with runtime := .offline, recorded := .offline }) with
      committer := { p.committer with requested := true } } : Part).push [.patrolTry] := by
  set y : Lane := { p.lane l with recorded := .offline } with hy
  set q := (p.taken e { x with state := st }).setLane l y with hq
  have hql : q.lane l = y := by rw [hq, Part.lane_setLane, if_pos rfl]
  have hqd : q.derived :=
    Part.derived_setLane (p := p.taken e { x with state := st }) (Part.derived_congr hd (fun _ => rfl) fun _ => rfl) Iff.rfl
  have hte : p.takesEvents := hc.takesEvents
  have hna : q.engine.state ≠ .attaching := by
    rcases hte with h | h | h <;> rw [show q.engine.state = _ from h] <;> decide
  rw [changeRuntime_idle .retire tag hqd (by decide) (by rw [hql]; exact ho) hna, hql,
    passEvent_journal (show ((q.setLane l { y with runtime := .offline }).takesEvents) from hte),
    passEvent_journal (show (((p.taken e (x.await .ok mask 0 0)).setLane l
      { p.lane l with runtime := .offline, recorded := .offline }).takesEvents) from hte)]
  refine (awaitCommit_push_committing (p := { q.setLane l { y with runtime := .offline } with journal := _ }) (x := { x with state := st }) (Part.taken_entry ..) hc mask _).trans ?_
  rw [hq]
  simp only [Part.taken, Part.setLane, Vector.set_set]
  rfl

/-- PROBE of an idle lane: it is PROBING with its state remembered, and the request is at the lanes. -/
theorem probe_effect {p : Part} {e : EntryId} {x : Entry} {l : LaneId} (hd : p.derived)
    (ho : (p.lane l).runtime ≠ .online) (st : EntryState) :
    setEntryState e .atLanes (setRuntimeQuietly l .probing ((p.taken e { x with state := st }).setLane l
      { p.lane l with lineTest := some ⟨(p.lane l).runtime, e⟩, fell := false })) =
    ((p.taken e { x with state := .atLanes }).setLane l { p.lane l with
      runtime := .probing, lineTest := some ⟨(p.lane l).runtime, e⟩, fell := false }).push [.patrolTry] := by
  set y : Lane := { p.lane l with lineTest := some ⟨(p.lane l).runtime, e⟩, fell := false } with hy
  set q := (p.taken e { x with state := st }).setLane l y with hq
  have hql : q.lane l = y := by rw [hq, Part.lane_setLane, if_pos rfl]
  have hqd : q.derived :=
    Part.derived_setLane (p := p.taken e { x with state := st }) (Part.derived_congr hd (fun _ => rfl) fun _ => rfl) Iff.rfl
  rw [setRuntimeQuietly_idle hqd (by decide) (by rw [hql]; exact ho), hql, hq, Part.setLane_setLane]
  exact congrArg (fun z : Part => (z.setLane l { y with runtime := .probing }).push [.patrolTry])
    (Part.taken_modEntry (p := p) (e := e) (y := { x with state := st }) fun x => { x with state := .atLanes })

/-- Settles O48: each request's format, target and lane tests in their order, then the work it begins. -/
theorem retireAndProbeActOnTheirLane : Obligations.RetireAndProbeActOnTheirLane := by
  intro e x l s ha ht hk hn hg hkind p L r refused waiting last
  set received := p.taken e { x with state := .received } with hrec
  have hrefused : ∀ {f : Part → Part} {o : ReqOutcome}, f p = refuse e o received → s.act f = refused o := fun hf =>
    act_taken_finished ha (hf.trans (refuse_taken x hk hn _))
  refine ⟨fun hsel => ?_, fun hsel => ?_⟩
  · have hgo : requestTaken (laneRequest actionRetire) retireReceived .done p = retireReceived e r received :=
      requestTaken_done ht hg (by simp [laneRequest, hkind, show x.req.selector = 2 from hsel, actionRetire]) _
    have hformat := laneFormat_retire hsel
    refine ⟨fun hbad => ?_, fun htar hpar => ?_⟩
    · refine hrefused (hgo.trans (retireReceived_malformed (hformat.trans ?_)))
      rcases hbad with h | h
      · rw [laneOf_of_le h, ite_self]
      · exact if_neg h
    have hf : laneFormat r = some l := (hformat.trans (if_pos hpar)).trans (laneOf_eq_some.2 htar)
    have hlast : (p.online l && p.lastCopy l && decide (r.flags &&& flagForce = 0)) = true ↔
        last ∧ r.flags &&& 2 = 0 := by
      simp only [Bool.and_eq_true, decide_eq_true_eq, Part.lastCopy_iff, Part.online]
      exact Iff.rfl
    refine ⟨fun hs h1 h2 => ?_, fun hl hflag => ?_, fun hs hl => ?_, fun hrun hc hd hp => ?_⟩
    · exact hrefused (hgo.trans (retireReceived_notServiceable hf hs h1 h2))
    · have hsv : p.serviceable l = true := (RuntimeState.serviceable_iff _).2 (.inl hl.1)
      exact hrefused (hgo.trans ((retireReceived_serviceable (p := received) hf hsv).trans (if_pos (hlast.2 ⟨hl, hflag⟩))))
    · have hno : ¬ (p.online l && p.lastCopy l && decide (r.flags &&& flagForce = 0)) = true := fun h => by
        obtain ⟨h1, h2⟩ := hlast.1 h
        exact hl.elim (fun g => g h1) fun g => g h2
      refine State.act_withPart ((hgo.trans ((retireReceived_serviceable (p := received) hf hs).trans (if_neg hno))).trans ?_)
      exact congrArg (depart l .retire r.tag) (Part.taken_modEntry p e _ _)
    · have hno : (p.lane l).runtime ≠ .online := by
        rcases hrun with h | h <;> rw [show (p.lane l).runtime = _ from h] <;> decide
      refine State.act_of_patrolTry ((hgo.trans (retireReceived_idle (p := received) hf hrun)).trans
        (retire_idle_effect r.tag hc hd hno .received _)) ?_ ?_
      · refine Part.atRest_of_entry (e := e) (x := x.await .ok (BitVec.ofNat 4 (2 ^ l.val)) 0 0)
          ((passEvent_agenda ..).trans ha) ?_
        exact (passEvent_entry ..).trans (Part.taken_entry p e _)
      · simpa [Part.patrolIdle] using (show waiting.patrolIdle from hp)
  · have hgo : requestTaken (laneRequest actionProbe) probeReceived .done p = probeReceived e r received :=
      requestTaken_done ht hg (by simp [laneRequest, hkind, show x.req.selector = 3 from hsel, actionProbe]) _
    have hformat := laneFormat_probe hsel
    refine ⟨fun hbad => ?_, fun htar hpar hflag => ?_⟩
    · refine hrefused (hgo.trans (probeReceived_malformed (hformat.trans ?_)))
      rcases hbad with h | h | h
      · rw [laneOf_of_le h, ite_self]
      · exact if_neg fun g => h g.1
      · exact if_neg fun g => h g.2
    have hf : laneFormat r = some l := (hformat.trans (if_pos ⟨hpar, hflag⟩)).trans (laneOf_eq_some.2 htar)
    refine ⟨fun hidle => ?_, fun hidle hd hp => ?_⟩
    · exact hrefused (hgo.trans (probeReceived_refused hf hidle))
    · refine State.act_of_patrolTry ((hgo.trans (probeReceived_begins hf hidle)).trans
        (probe_effect hd (RuntimeState.ne_online_of_idle hidle) _)) ?_ hp
      exact Part.atRest_setLane (Part.atRest_of_entry (p := p.taken e { x with state := .atLanes }) ha (Part.taken_entry ..)) _ _

end Sys2Proof.Machine
end

section
/-!
Replies of operations: the statuses of a reply, the data placed, the transactions that follow, the end (R22, R29, R30, R79, R80,
R112, R113).
-/
namespace Sys2Proof.Machine

/-! ## The statuses of a reply (R22) -/

theorem allSome_cons {α : Type} (x : Option α) (xs : List (Option α)) :
    allSome (x :: xs) = x.bind fun y => (allSome xs).map (y :: ·) := by
  cases x <;> rfl

/-- Status codes are those of 2.2. -/
theorem statusOf_eq_some {c : Byte} {st : Status} : statusOf c = some st ↔
    (c = 0 ∧ st = .good) ∨ (c = 1 ∧ st = .corrected) ∨ (c = 2 ∧ st = .unreadable) ∨ (c = 3 ∧ st = .writeFault)
      ∨ (c = 4 ∧ st = .range) := by
  unfold statusOf
  split <;> cases st <;> simp_all

/-- A READ reply's statuses are those of its codes, of which none is a status of a write. -/
theorem readStatuses_cons {c : Byte} {cs : List Byte} {ss : List Status} : readStatuses (c :: cs) = some ss ↔
    ∃ st rest, ss = st :: rest ∧ statusOf c = some st ∧ st ≠ .writeFault ∧ st ≠ .range ∧ readStatuses cs = some rest := by
  unfold readStatuses
  rw [List.map_cons, allSome_cons]
  cases statusOf c with
  | none => simp
  | some st => cases st <;> simp [eq_comm, and_comm]

theorem writeStatuses_cons {c : Byte} {cs : List Byte} {ss : List Status} : writeStatuses (c :: cs) = some ss ↔
    ∃ st rest, ss = st :: rest ∧ statusOf c = some st ∧ (st = .good ∨ st = .writeFault) ∧ writeStatuses cs = some rest := by
  unfold writeStatuses
  rw [List.map_cons, allSome_cons]
  cases statusOf c with
  | none => simp
  | some st => cases st <;> simp [eq_comm, and_comm]

theorem carriesData_eq {c : Byte} {st : Status} (h : statusOf c = some st) : carriesData (statusOf c) = st.readable := by
  rw [h]
  cases st <;> rfl

/-- A READ reply carries data for as many blocks as its statuses call readable. -/
theorem length_carrying {codes : List Byte} {ss : List Status} (h : readStatuses codes = some ss) :
    (codes.filter fun c => carriesData (statusOf c)).length = (ss.filter Status.readable).length := by
  induction codes generalizing ss with
  | nil =>
    obtain rfl : ss = [] := by simpa [readStatuses, allSome, eq_comm] using h
    rfl
  | cons c cs ih =>
    obtain ⟨st, rest, rfl, hst, -, -, hrest⟩ := readStatuses_cons.1 h
    simp only [List.filter_cons, carriesData_eq hst]
    cases st.readable <;> simp [ih hrest]

/-! ## Counters -/

theorem satAdd_zero (w : Word) : satAdd w 0 = w := by
  simp [satAdd, w.isLt]

theorem satAdd_one (w : Word) : satAdd w 1 = satInc w := by
  unfold satAdd satInc
  have hw := w.isLt
  by_cases h : w = BitVec.allOnes 32
  · subst h
    rfl
  · have hne : w.toNat ≠ 2 ^ 32 - 1 := fun e => h (BitVec.eq_of_toNat_eq (by simpa using e))
    rw [if_pos (by omega), if_neg h]
    bv_omega

theorem countStatus_eq_zero {s : Status} {ss : List Status} (h : ∀ st ∈ ss, st ≠ s) : countStatus s ss = 0 := by
  simpa [countStatus] using h

/-! ## The data of a READ reply (R29, R79) -/

/-- Placing data changes the contents of staging buffers alone, and sees nothing else. -/
theorem placeData_eq (op : LaneOp) (i : Nat) (ss : List Status) (ds : List Block) :
    ∃ f : Vector Block 64 → Vector Block 64,
      ∀ p, placeData op i ss ds p = { p with pool := { p.pool with data := f p.pool.data } } := by
  induction ss generalizing i ds with
  | nil => exact ⟨id, fun p => rfl⟩
  | cons st ss ih =>
    obtain ⟨f, hf⟩ := ih (i + 1) ds
    cases hr : st.readable with
    | false => exact ⟨f, fun p => by simp only [placeData, hr, Bool.false_eq_true, if_false]; exact hf p⟩
    | true =>
      cases ds with
      | nil => exact ⟨f, fun p => by simp only [placeData, hr, if_true]; exact hf p⟩
      | cons d ds =>
        obtain ⟨g, hg⟩ := ih (i + 1) ds
        cases hb : op.bufs[i]? with
        | none => exact ⟨g, fun p => by simp only [placeData, hr, if_true, hb]; exact hg p⟩
        | some b =>
          cases b with
          | record l => exact ⟨g, fun p => by simp only [placeData, hr, if_true, hb]; exact hg p⟩
          | staging b =>
            exact ⟨fun x => g (x.set b.val d), fun p => by
              simp only [placeData, hr, if_true, hb]
              exact (hg _).trans rfl⟩

theorem placeData_setLane (op : LaneOp) (i : Nat) (ss : List Status) (ds : List Block) (p : Part) (l : LaneId) (x : Lane) :
    placeData op i ss ds (p.setLane l x) = (placeData op i ss ds p).setLane l x := by
  obtain ⟨f, hf⟩ := placeData_eq op i ss ds
  rw [hf, hf]
  rfl

theorem Part.atRest_placeData {p : Part} (h : p.atRest) (op : LaneOp) (i : Nat) (ss : List Status) (ds : List Block) :
    (placeData op i ss ds p).atRest := by
  obtain ⟨f, hf⟩ := placeData_eq op i ss ds
  rw [hf]
  exact ⟨h.1, Part.haltTested_congr (p := p) rfl rfl rfl rfl rfl rfl rfl rfl h.2⟩

/-! ## The transactions of an operation go on (R80, R113) -/

section
variable {p : Part} {l : LaneId} {sv : Service} (hs : (p.lane l).service = some sv)
include hs

theorem serviceNext_todo {y : Piece} {rest : List Piece} (hf : sv.faults = []) (hz : sv.zeros = []) (ht : sv.todo = y :: rest) :
    serviceNext l p = p.setLane l
      (({ p.lane l with service := some { sv with todo := rest, cur := some y } } : Lane).begin (p.pieceCommand sv.op y)) := by
  simp only [serviceNext, hs, hf, hz, ht, beginTxn, Part.setLane_modLane]

theorem serviceNext_zeros {z : Piece} {zs : List Piece} (hf : sv.faults = []) (hz : sv.zeros = z :: zs) :
    serviceNext l p = p.setLane l
      (({ p.lane l with service := some { sv with zeros := zs, cur := some z } } : Lane).begin (p.pieceCommand sv.op z)) := by
  simp only [serviceNext, hs, hf, hz, beginTxn, Part.setLane_modLane]

theorem serviceNext_ends (hf : sv.faults = []) (hz : sv.zeros = []) (ht : sv.todo = []) :
    serviceNext l p = freePlace l (p.push [.opEnded l sv.op (.completed sv.results sv.remapped)]) := by
  simp only [serviceNext, hs, hf, hz, ht]

theorem serviceNext_faults {b : Nat} {d : Block} {more : List (Nat × Block)} (hf : sv.faults = (b, d) :: more) :
    serviceNext l p = startTrial l b d p := by
  simp only [serviceNext, hs, hf]

/-- A trial begins on spare-next (R113). -/
theorem startTrial_begins (b : Nat) (d : Block) (h : (p.lane l).spareNext < 256) :
    startTrial l b d p = p.setLane l (({ p.lane l with
      service := some { sv with trial := some ⟨b, d, (p.lane l).spareNext, false⟩, cur := none } } : Lane).begin
        (.write ((p.lane l).capacity.toNat - 256 + (p.lane l).spareNext) [d])) := by
  have hgo : ¬ Config.spareCount ≤ (p.lane l).spareNext := Nat.not_le.2 h
  unfold startTrial
  refine (if_neg hgo).trans ?_
  simp only [beginTxn, Part.modLane_modLane]
  simp only [Part.modLane_eq, Lane.modService, hs, Option.map_some]
  rfl

/-- With every spare used up the lane departs (R116). -/
theorem startTrial_departs (b : Nat) (d : Block) (h : 256 ≤ (p.lane l).spareNext) (ht : sv.trial = none) :
    startTrial l b d p = depart l .sparesExhausted 0 p := by
  have hgo : Config.spareCount ≤ (p.lane l).spareNext := h
  have hsame : p.modLane l (fun L => L.modService fun sv => { sv with trial := none }) = p := by
    have hsv : ({ sv with trial := none } : Service) = sv := by rw [← ht]
    have hL : ({ p.lane l with service := some sv } : Lane) = p.lane l := by rw [← hs]
    simp only [Part.modLane_eq, Lane.modService, hs, Option.map_some, hsv]
    rw [hL, Part.setLane_lane]
  unfold startTrial
  refine (if_pos hgo).trans ?_
  rw [hsame]

end

/-- The step in which an operation ends. -/
theorem State.opEnds_of {f : Part → Part} {s : State} {q : Part} {l : LaneId} {op : LaneOp} {r : OpEnd}
    (hf : f s.part = freePlace l (q.push [.opEnded l op r])) : s.act f = s.opEnds q l op r :=
  State.act_withPart (g := id) hf

/-- An operation ends with no other waiting on its lane: the state is the one its producer leaves. -/
theorem State.opEnds_idle {s : State} {p t : Part} {l : LaneId} {op : LaneOp} {r : OpEnd} (ha : p.agenda = [])
    (hq : (p.lane l).queue = []) (hw : (p.lane l).waiters = [])
    (ht : operationEnded l op r (p.setLane l { p.lane l with service := none }) = t) (hr : t.atRest) :
    s.opEnds p l op r = .next (s.withPart t) :=
  State.act_of_push (s := s.withPart _) (freePlace_push_idle hq hw _) ha ht hr

/-! ## READ replies of operations -/

/-- The lane with a completed READ transaction of its operation counted, its statuses joined to the results. -/
def Lane.readDone (L : Lane) (sv : Service) (ss : List Status) : Lane :=
  { L with
    service := some { sv with results := sv.results ++ ss, cur := none }, txn := none
    counters := { L.counters with
      corrected := satAdd L.counters.corrected (countStatus .corrected ss)
      unreadable := satAdd L.counters.unreadable (countStatus .unreadable ss) } }

theorem readReplyTaken_statuses {p : Part} {l : LaneId} {codes : List Byte} {ss : List Status} {data : List Block}
    {block n : Nat} (ha : (p.lane l).awaited = some (.read block n)) (hn : codes.length = n)
    (hss : readStatuses codes = some ss) (hdata : data.length = (ss.filter Status.readable).length) :
    readReplyTaken l codes data p = readCompleted l ss data p := by
  simp only [readReplyTaken, ha]
  refine (if_neg ?_).trans (by rw [hss])
  rw [length_carrying hss]
  simp [hn, hdata]

/-- The operation in service takes a completed READ transaction. -/
theorem readReplyTaken_operation {p : Part} {l : LaneId} {codes : List Byte} {ss : List Status} {data : List Block}
    {block n : Nat} {sv : Service} {x : Piece} (ha : (p.lane l).awaited = some (.read block n))
    (hi : (p.lane l).identification = none) (hs : (p.lane l).service = some sv) (ht : sv.trial = none)
    (hc : sv.cur = some x) (hn : codes.length = n) (hss : readStatuses codes = some ss)
    (hdata : data.length = (ss.filter Status.readable).length) :
    readReplyTaken l codes data p =
      serviceNext l ((placeData sv.op x.pos ss data p).setLane l ((p.lane l).readDone sv ss)) := by
  rw [readReplyTaken_statuses ha hn hss hdata]
  set y : Lane := { (p.lane l).countRead ss with txn := none } with hy
  set q := p.setLane l y with hq
  have hql : q.lane l = y := by rw [hq, Part.lane_setLane, if_pos rfl]
  have hqi : (q.lane l).identification = none := by rw [hql]; exact hi
  have hqs : (q.lane l).service = some sv := by rw [hql]; exact hs
  have hcomp : readCompleted l ss data p =
      serviceNext l ((placeData sv.op x.pos ss data q).modLane l fun L => L.addResults ss) := by
    simp only [readCompleted, Part.modLane_eq, ← hy, ← hq, hqi, hqs, ht, hc]
  rw [hcomp, hq, placeData_setLane, Part.setLane_modLane]
  have hdone : y.addResults ss = (p.lane l).readDone sv ss := by
    have hys : y.service = some sv := hs
    simp only [Lane.addResults, Lane.modService, hys, Option.map_some]
    rfl
  rw [hdone]

end Sys2Proof.Machine
end

section
/-!
The transactions of an operation (R79), and the READ replies of operations.
-/
namespace Sys2Proof.Machine

/-! ## The remap entries of a range, in ascending order -/

/-- The order of remap entries by lane block. -/
abbrev remapLe (x y : Nat × Nat) : Prop := x.1 ≤ y.1

theorem insertRemap_eq (x : Nat × Nat) (ys : List (Nat × Nat)) : insertRemap x ys = ys.orderedInsert remapLe x := by
  induction ys with
  | nil => rfl
  | cons y ys ih => simp only [insertRemap, List.orderedInsert_cons, ih]

theorem remapsIn_eq (remap : List (Nat × Nat)) (start stop : Nat) :
    remapsIn remap start stop = (remap.filter fun x => start ≤ x.1 && x.1 < stop).insertionSort remapLe := by
  unfold remapsIn List.insertionSort
  exact congrArg (fun f => List.foldr f [] _) (funext₂ insertRemap_eq)

theorem mem_remapsIn {remap : List (Nat × Nat)} {start stop : Nat} {x : Nat × Nat} :
    x ∈ remapsIn remap start stop ↔ x ∈ remap ∧ start ≤ x.1 ∧ x.1 < stop := by
  simp [remapsIn_eq]

theorem remapsIn_ascending {remap : List (Nat × Nat)} (h : (remap.map Prod.fst).Nodup) (start stop : Nat) :
    (remapsIn remap start stop).Pairwise fun x y => x.1 < y.1 := by
  have : Std.Total remapLe := ⟨fun x y => Nat.le_total x.1 y.1⟩
  have : IsTrans (Nat × Nat) remapLe := ⟨fun _ _ _ => Nat.le_trans⟩
  set kept := remap.filter fun x => start ≤ x.1 && x.1 < stop with hkept
  have hne : (kept.insertionSort remapLe).Pairwise fun x y => x.1 ≠ y.1 := by
    have hnodup : (kept.map Prod.fst).Nodup := (List.filter_sublist.map Prod.fst).nodup h
    exact List.pairwise_map.1 ((((List.perm_insertionSort remapLe kept).map Prod.fst).nodup_iff).2 hnodup)
  rw [remapsIn_eq]
  exact ((List.pairwise_insertionSort remapLe kept).and hne).imp fun h => lt_of_le_of_ne h.1 h.2

/-! ## The runs between them (R79) -/

/-- What R79 says of one transaction of the blocks from `start` to `stop`, at or after block `cur`: it is a block with a remap
entry, sent to its spare, or a run of blocks without one. -/
structure Piece.Translated (x : Piece) (kind : OpKind) (capacity : Word) (start cur stop : Nat) (rs : List (Nat × Nat)) : Prop where
  kind_eq : x.kind = kind
  nonempty : 1 ≤ x.count
  after : cur ≤ start + x.pos
  inside : start + x.pos + x.count ≤ stop
  cases : (x.count = 1 ∧ ∃ s, (start + x.pos, s) ∈ rs ∧ x.block = spareBlock capacity s)
    ∨ (x.block = start + x.pos ∧ ∀ i, i < x.count → ∀ s, (x.block + i, s) ∉ rs)

section
variable {kind : OpKind} {capacity : Word} {start stop cur : Nat} {rs : List (Nat × Nat)}
  (ho : rs.Pairwise fun x y => x.1 < y.1) (hr : ∀ x ∈ rs, cur ≤ x.1 ∧ x.1 < stop) (hc : start ≤ cur)
include ho hr hc

/-- The transactions cover the blocks in order, each once. -/
theorem splitRuns_positions (hs : cur ≤ stop) :
    (splitRuns kind capacity start stop cur rs).flatMap (fun x => List.range' x.pos x.count) =
      List.range' (cur - start) (stop - cur) := by
  induction rs generalizing cur with
  | nil =>
    unfold splitRuns
    split
    · simp
    · rw [show stop - cur = 0 by omega]
      rfl
  | cons e rs ih =>
    obtain ⟨b, s⟩ := e
    obtain ⟨hfirst, hrest⟩ := List.pairwise_cons.1 ho
    obtain ⟨hb, hb'⟩ : cur ≤ b ∧ b < stop := hr (b, s) List.mem_cons_self
    have htail := ih hrest (cur := b + 1) (fun x hx => ⟨hfirst x hx, (hr x (List.mem_cons_of_mem _ hx)).2⟩) (by omega) (by omega)
    have hrun : (if cur < b then [(⟨kind, cur, b - cur, cur - start⟩ : Piece)] else []).flatMap
        (fun x => List.range' x.pos x.count) = List.range' (cur - start) (b - cur) := by
      split
      · simp
      · rw [show b - cur = 0 by omega]
        rfl
    calc (splitRuns kind capacity start stop cur ((b, s) :: rs)).flatMap (fun x => List.range' x.pos x.count)
        = List.range' (cur - start) (b - cur) ++ (List.range' (b - start) 1 ++ List.range' (b + 1 - start) (stop - (b + 1))) := by
          rw [splitRuns, List.flatMap_append, List.flatMap_cons, hrun, htail]
      _ = List.range' (cur - start) (b - cur) ++ List.range' (cur - start + (b - cur)) (stop - b) := by
          rw [show b + 1 - start = b - start + 1 by omega, List.range'_append_1,
            show b - start = cur - start + (b - cur) by omega, show 1 + (stop - (b + 1)) = stop - b by omega]
      _ = List.range' (cur - start) (stop - cur) := by
          rw [List.range'_append_1, show b - cur + (stop - b) = stop - cur by omega]

theorem splitRuns_translated : ∀ x ∈ splitRuns kind capacity start stop cur rs, x.Translated kind capacity start cur stop rs := by
  induction rs generalizing cur with
  | nil =>
    intro x hx
    unfold splitRuns at hx
    split at hx
    · obtain rfl := List.mem_singleton.1 hx
      refine ⟨rfl, ?_, ?_, ?_, .inr ⟨?_, by simp⟩⟩ <;> dsimp only <;> omega
    · cases hx
  | cons e rs ih =>
    obtain ⟨b, s⟩ := e
    obtain ⟨hfirst, hrest⟩ := List.pairwise_cons.1 ho
    obtain ⟨hb, hb'⟩ : cur ≤ b ∧ b < stop := hr (b, s) List.mem_cons_self
    have hlater : ∀ x ∈ rs, b + 1 ≤ x.1 ∧ x.1 < stop := fun x hx => ⟨hfirst x hx, (hr x (List.mem_cons_of_mem _ hx)).2⟩
    intro x hx
    rw [splitRuns, List.mem_append, List.mem_cons] at hx
    rcases hx with hx | rfl | hx
    · split at hx
      · obtain rfl := List.mem_singleton.1 hx
        refine ⟨rfl, ?_, ?_, ?_, .inr ⟨?_, fun i hi t ht => ?_⟩⟩
        · dsimp only; omega
        · dsimp only; omega
        · dsimp only; omega
        · dsimp only; omega
        · rcases List.mem_cons.1 ht with ht | ht
          · have := congrArg Prod.fst ht
            dsimp only at this hi
            omega
          · have := (hlater _ ht).1
            dsimp only at this hi
            omega
      · cases hx
    · refine ⟨rfl, le_rfl, ?_, ?_, .inl ⟨rfl, s, ?_, rfl⟩⟩
      · dsimp only; omega
      · dsimp only; omega
      · dsimp only
        rw [show start + (b - start) = b by omega]
        exact List.mem_cons_self
    · have h := ih hrest hlater (by omega) x hx
      refine ⟨h.kind_eq, h.nonempty, by have := h.after; omega, h.inside, h.cases.imp ?_ ?_⟩
      · rintro ⟨h1, t, ht, hblock⟩
        exact ⟨h1, t, List.mem_cons_of_mem _ ht, hblock⟩
      · rintro ⟨hblock, hnot⟩
        refine ⟨hblock, fun i hi t ht => ?_⟩
        rcases List.mem_cons.1 ht with ht | ht
        · have := congrArg Prod.fst ht
          have := h.after
          dsimp only at *
          omega
        · exact hnot i hi t ht

omit ho hr hc in
/-- Of two transactions one after the other, one is of a block with a remap entry: the runs are maximal. -/
theorem splitRuns_maximal {R : Piece → Prop} (hR : ∀ x : Piece, (∃ s, (start + x.pos, s) ∈ rs) → R x)
    (hk : ∀ x ∈ rs, start ≤ x.1) : (splitRuns kind capacity start stop cur rs).IsChain fun x y => R x ∨ R y := by
  induction rs generalizing cur with
  | nil =>
    unfold splitRuns
    split <;> simp
  | cons e rs ih =>
    obtain ⟨b, s⟩ := e
    have hb : start ≤ b := hk (b, s) List.mem_cons_self
    have htail := ih (cur := b + 1) (fun x ⟨t, ht⟩ => hR x ⟨t, List.mem_cons_of_mem _ ht⟩)
      fun x hx => hk x (List.mem_cons_of_mem _ hx)
    have hspare : R ⟨kind, spareBlock capacity s, 1, b - start⟩ :=
      hR _ ⟨s, by rw [show start + (b - start) = b by omega]; exact List.mem_cons_self⟩
    have hfrom := List.isChain_cons.2 ⟨fun y _ => .inl hspare, htail⟩
    rw [splitRuns]
    split
    · exact List.isChain_cons.2 ⟨fun y hy => .inr (by obtain rfl := Option.some_inj.1 hy; exact hspare), hfrom⟩
    · exact hfrom

end

/-! ## The transactions of an operation (R79) -/

/-- A record-class operation is sent as addressed (R60). -/
theorem Lane.translate_record (L : Lane) {op : LaneOp} (h : op.cls = .record) (hn : 1 ≤ op.count) :
    L.translate op = [⟨op.kind, op.start, op.count, 0⟩] := by
  simp only [Lane.translate, if_pos h, splitRuns]
  rw [if_pos (by omega), Nat.add_sub_cancel_left, Nat.sub_self]

theorem Lane.translate_other (L : Lane) {op : LaneOp} (h : op.cls ≠ .record) :
    L.translate op = splitRuns op.kind L.capacity op.start (op.start + op.count) op.start
      (remapsIn L.remap op.start (op.start + op.count)) := by
  simp only [Lane.translate, if_neg h]

/-- The entry of a lane block is one. -/
theorem remap_unique {remap : List (Nat × Nat)} (h : (remap.map Prod.fst).Nodup) {b s t : Nat} (hs : (b, s) ∈ remap)
    (ht : (b, t) ∈ remap) : s = t := congrArg Prod.snd (List.inj_on_of_nodup_map h hs ht rfl)

/-- Every other operation is split at the blocks with a remap entry. -/
theorem Lane.translate_spec (L : Lane) {op : LaneOp} (h : op.cls ≠ .record) (hd : (L.remap.map Prod.fst).Nodup) :
    let pieces := L.translate op
    let remapped (x : Piece) : Prop := ∃ s, (op.start + x.pos, s) ∈ L.remap
    pieces.flatMap (fun x => List.range' x.pos x.count) = List.range op.count
    ∧ (∀ x ∈ pieces, x.kind = op.kind ∧ 1 ≤ x.count
      ∧ (∀ s, (op.start + x.pos, s) ∈ L.remap → x.count = 1 ∧ x.block = L.capacity.toNat - 256 + s)
      ∧ (¬ remapped x → x.block = op.start + x.pos ∧ ∀ i, i < x.count → ∀ s, (x.block + i, s) ∉ L.remap))
    ∧ ∀ i x y, pieces[i]? = some x → pieces[i + 1]? = some y → remapped x ∨ remapped y := by
  intro pieces remapped
  have hp : pieces = _ := L.translate_other h
  have hasc := remapsIn_ascending hd op.start (op.start + op.count)
  have hin : ∀ x ∈ remapsIn L.remap op.start (op.start + op.count), op.start ≤ x.1 ∧ x.1 < op.start + op.count :=
    fun x hx => (mem_remapsIn.1 hx).2
  refine ⟨?_, fun x hx => ?_, fun i x y hx hy => ?_⟩
  · rw [hp, splitRuns_positions hasc hin le_rfl (by omega), Nat.sub_self, Nat.add_sub_cancel_left, List.range_eq_range']
  · have hx' := splitRuns_translated hasc hin le_rfl x (hp ▸ hx)
    have hlow := hx'.after
    have hhigh := hx'.inside
    have hone := hx'.nonempty
    have hseen : ∀ {b s : Nat}, op.start + x.pos ≤ b → b < op.start + x.pos + x.count → (b, s) ∈ L.remap →
        (b, s) ∈ remapsIn L.remap op.start (op.start + op.count) := fun h1 h2 hm =>
      mem_remapsIn.2 ⟨hm, by dsimp only; omega, by dsimp only; omega⟩
    refine ⟨hx'.kind_eq, hone, fun s hs => ?_, fun hno => ?_⟩
    · rcases hx'.cases with ⟨h1, t, ht, hblock⟩ | ⟨hblock, hnot⟩
      · rw [remap_unique hd hs (mem_remapsIn.1 ht).1]
        exact ⟨h1, hblock⟩
      · refine absurd (hseen le_rfl (by omega) hs) ?_
        simpa [hblock] using hnot 0 hone s
    · rcases hx'.cases with ⟨h1, t, ht, hblock⟩ | ⟨hblock, hnot⟩
      · exact absurd ⟨t, (mem_remapsIn.1 ht).1⟩ hno
      · exact ⟨hblock, fun i hi s hs => hnot i hi s (hseen (by omega) (by omega) hs)⟩
  · have hchain : pieces.IsChain fun x y => remapped x ∨ remapped y := by
      rw [hp]
      exact splitRuns_maximal (fun x ⟨s, hs⟩ => ⟨s, (mem_remapsIn.1 hs).1⟩) fun x hx => (hin x hx).1
    obtain ⟨h1, rfl⟩ := List.getElem?_eq_some_iff.1 hx
    obtain ⟨h2, rfl⟩ := List.getElem?_eq_some_iff.1 hy
    exact List.isChain_iff_getElem.1 hchain i h2

/-! ## O25 -/

/-- Data goes to the buffer that the operation names for its block, where the block was readable. -/
theorem placeData_cons {op : LaneOp} {i : Nat} {b : BufId} (hb : op.bufs[i]? = some (.staging b)) (st : Status)
    (ss : List Status) (d : Block) (data : List Block) (p : Part) :
    (st = .good ∨ st = .corrected → placeData op i (st :: ss) (d :: data) p = placeData op (i + 1) ss data (p.setBuffer b d))
    ∧ (st ≠ .good → st ≠ .corrected → placeData op i (st :: ss) data p = placeData op (i + 1) ss data p) := by
  refine ⟨fun h => ?_, fun h1 h2 => ?_⟩
  · have hr : st.readable = true := by rcases h with rfl | rfl <;> rfl
    simp only [placeData, hr, if_true, hb]
  · have hr : st.readable = false := by cases st <;> simp_all [Status.readable]
    simp only [placeData, hr, Bool.false_eq_true, if_false]

/-- Settles O25, from the service's next piece or its end and the spec of the split into pieces. -/
theorem readReplyGoesOnWithTheOperation : Obligations.ReadReplyGoesOnWithTheOperation := by
  refine ⟨?_, fun op i st ss d data b p hb => ?_, ?_, fun l s p t op r ha hq hw ht hr => State.opEnds_idle ha hq hw ht hr,
    fun l op p h => by simp [Part.serve, h], fun L op => ⟨fun h hn => L.translate_record h hn, fun h hd => L.translate_spec h hd⟩⟩
  · intro l s codes ss data block n sv x y rest hr p L placed ha hi hs ht hc hf hz htodo hk hn hss hdata
    have hgo := readReplyTaken_operation ha hi hs ht hc hn hss hdata
    set q := placed.setLane l (L.readDone sv ss) with hq
    have hql : q.lane l = L.readDone sv ss := (Part.lane_setLane placed l l _).trans (if_pos rfl)
    have hnext := serviceNext_todo (p := q) (l := l) (sv := { sv with results := sv.results ++ ss, cur := none })
      (by rw [hql]; rfl) hf hz htodo
    have hcmd : q.pieceCommand sv.op y = .read y.block y.count := by simp only [Part.pieceCommand, hk]
    rw [hql, hcmd, hq, Part.setLane_setLane] at hnext
    have hend : readReplyTaken l codes data p = _ := hgo.trans hnext
    exact (State.act_of_rest (hend ▸ Part.atRest_setLane (Part.atRest_placeData hr ..) _ _)).trans (by rw [hend]; rfl)
  · obtain ⟨hplaced, hskipped⟩ := placeData_cons hb st ss d data p
    exact ⟨hplaced, hskipped, rfl⟩
  · intro l s codes ss data block n sv x ha p L haw hi hs ht hc hf hz htodo hn hss hdata
    refine State.opEnds_of ((readReplyTaken_operation haw hi hs ht hc hn hss hdata).trans ?_)
    exact serviceNext_ends (sv := { sv with results := sv.results ++ ss, cur := none })
      ((congrArg Lane.service (Part.lane_setLane ..)).trans (by simp [Lane.readDone])) hf hz htodo

end Sys2Proof.Machine
end

section
/-!
WRITE and FILL replies of operations: what is written again, what is tried on a spare, and the zero writes of a fill (R29, R30,
R112, R113, R116).
-/
namespace Sys2Proof.Machine

/-! ## The statuses of a WRITE or FILL reply -/

theorem countStatus_writeFault_good {ss : List Status} (h : ∀ st ∈ ss, st = .good) : countStatus .writeFault ss = 0 :=
  countStatus_eq_zero fun st hst => by rw [h st hst]; decide

theorem writeStatuses_good (n : Nat) : writeStatuses (List.replicate n 0) = some (List.replicate n .good) := by
  induction n with
  | zero => rfl
  | succ n ih => exact writeStatuses_cons.2 ⟨.good, _, rfl, rfl, .inl rfl, ih⟩

/-! ## The faulted blocks of a transaction (R112) -/

section
variable {p : Part} {op : LaneOp}

theorem Part.faultsOf_setLane (l : LaneId) (x : Lane) (i : Nat) (ss : List Status) :
    (p.setLane l x).faultsOf op i ss = p.faultsOf op i ss := by
  induction ss generalizing i with
  | nil => rfl
  | cons st ss ih =>
    simp only [Part.faultsOf, ih]
    rfl

theorem Part.faultsOf_good {i : Nat} {ss : List Status} (h : ∀ st ∈ ss, st = .good) : p.faultsOf op i ss = [] := by
  induction ss generalizing i with
  | nil => rfl
  | cons st ss ih =>
    have hst : ¬ st = .writeFault := by rw [h st List.mem_cons_self]; decide
    simp only [Part.faultsOf, if_neg hst]
    exact ih fun x hx => h x (List.mem_cons_of_mem _ hx)

/-- An operation without buffers writes zeros (R30). -/
theorem Part.opData_zero (h : op.bufs = []) (i : Nat) : p.opData op i = zeroBlock := by
  simp [Part.opData, h]

theorem Part.pieceCommand_zero {z : Piece} (h : op.bufs = []) (hk : z.kind = .write) :
    p.pieceCommand op z = .write z.block (List.replicate z.count zeroBlock) := by
  simp [Part.pieceCommand, hk, Part.opData_zero h, List.map_const']

end

/-! ## WRITE replies of operations (R29, R112, R113) -/

/-- The lane with a completed WRITE transaction of `sv`'s operation counted, and its operation standing as `sv'`. -/
def Lane.writeDone (L : Lane) (ss : List Status) (sv : Service) : Lane :=
  { L with
    service := some sv, txn := none
    counters := { L.counters with writeFaults := satAdd L.counters.writeFaults (countStatus .writeFault ss) } }

theorem Lane.writeDone_good (L : Lane) {ss : List Status} (h : ∀ st ∈ ss, st = .good) (sv : Service) :
    L.writeDone ss sv = { L with service := some sv, txn := none } := by
  simp only [Lane.writeDone, countStatus_writeFault_good h, satAdd_zero]

theorem writeDone_service (p : Part) (l : LaneId) (L : Lane) (ss : List Status) (sv : Service) :
    ((p.setLane l (L.writeDone ss sv)).lane l).service = some sv := by
  rw [Part.lane_setLane, if_pos rfl]
  rfl

section
variable {p : Part} {l : LaneId} {codes : List Byte} {ss : List Status} {block : Nat} {sent : List Block} {sv : Service}
  {x : Piece} (ha : (p.lane l).awaited = some (.write block sent)) (hn : codes.length = sent.length)
  (hss : writeStatuses codes = some ss) (hs : (p.lane l).service = some sv) (ht : sv.trial = none) (hc : sv.cur = some x)
include ha hn hss

theorem writeReplyTaken_statuses : writeReplyTaken l codes p = writeCompleted l ss p := by
  simp only [writeReplyTaken, ha]
  exact (if_neg (not_not.2 hn)).trans (by rw [hss])

include hs ht hc

/-- A WRITE of data has ended: its blocks count as written, and those that faulted are to be remapped. -/
theorem writeReplyTaken_data (hr : sv.op.cls ≠ .record) (hk : sv.op.kind = .write) : writeReplyTaken l codes p =
    serviceNext l (p.setLane l ((p.lane l).writeDone ss { sv with
      results := sv.results ++ ss.map fun _ => Status.good, cur := none, faults := p.faultsOf sv.op x.pos ss })) := by
  rw [writeReplyTaken_statuses ha hn hss]
  set y : Lane := { (p.lane l).countWrite ss with txn := none } with hy
  set q := p.setLane l y with hq
  have hql : q.lane l = y := by rw [hq, Part.lane_setLane, if_pos rfl]
  have hqs : (q.lane l).service = some sv := by rw [hql]; exact hs
  have hys : y.service = some sv := hs
  simp only [writeCompleted, Part.modLane_eq, ← hy, ← hq, hqs, ht, hc]
  rw [if_neg hr, if_neg (by rw [hk]; decide), hql, hq, Part.setLane_setLane]
  simp only [Part.faultsOf_setLane, Lane.addResults, Lane.modService, hys, Option.map_some]
  rw [ht]
  rfl

/-- A zero WRITE of a fill has ended. -/
theorem writeReplyTaken_fill (hr : sv.op.cls ≠ .record) (hk : sv.op.kind = .fill) : writeReplyTaken l codes p =
    serviceNext l (p.setLane l ((p.lane l).writeDone ss { sv with cur := none, faults := p.faultsOf sv.op x.pos ss })) := by
  rw [writeReplyTaken_statuses ha hn hss]
  set y : Lane := { (p.lane l).countWrite ss with txn := none } with hy
  set q := p.setLane l y with hq
  have hql : q.lane l = y := by rw [hq, Part.lane_setLane, if_pos rfl]
  have hqs : (q.lane l).service = some sv := by rw [hql]; exact hs
  have hys : y.service = some sv := hs
  simp only [writeCompleted, Part.modLane_eq, ← hy, ← hq, hqs, ht, hc]
  rw [if_neg hr, if_pos hk, hql, hq, Part.setLane_setLane]
  simp only [Part.faultsOf_setLane, Lane.modService, hys, Option.map_some]
  rw [ht]
  rfl

end

/-- Settles O33, by the first fault of the reply: none, one with a trial to come, or one without. -/
theorem writeReplyGoesOnOrStartsATrial : Obligations.WriteReplyGoesOnOrStartsATrial := by
  intro l s codes ss block sent sv x hr p L results counted ha hn hss hs ht hc hz hcls hk
  have hgo := writeReplyTaken_data ha hn hss hs ht hc hcls hk
  set good : Service := { sv with results := results, cur := none, faults := [] } with hgooddef
  have hgood : (∀ st ∈ ss, st = .good) → writeReplyTaken l codes p = serviceNext l (p.setLane l (L.writeDone ss good)) :=
    fun h => by rw [hgo, Part.faultsOf_good h]
  have hlane : ∀ y : Lane, (p.setLane l y).lane l = y := fun y => (Part.lane_setLane p l l y).trans (if_pos rfl)
  refine ⟨fun y rest h htodo => ?_, fun h htodo => ?_, fun b d more hb hsp hf => ?_, fun b d more hb hsp => ?_⟩
  · refine State.act_of_setLane hr ((hgood h).trans ?_)
    rw [serviceNext_todo (writeDone_service p l L ss good) rfl hz htodo, hlane, Part.setLane_setLane, Lane.writeDone_good L h]
    rfl
  · rw [← Lane.writeDone_good L h good]
    exact State.opEnds_of ((hgood h).trans (serviceNext_ends (writeDone_service p l L ss good) rfl hz htodo))
  · rw [hb] at hgo
    have hserv := writeDone_service p l L ss { sv with results := results, cur := none, faults := (b, d) :: more }
    refine State.act_withPart (g := fun p => if p.engine.state = .faulted && DepartureCause.sparesExhausted ≠ .presenceLost
      then p else depart l .sparesExhausted 0 p) (hgo.trans ?_)
    rw [serviceNext_faults hserv rfl, startTrial_departs hserv b d (by rw [hlane]; exact hsp) ht]
    exact (if_neg (by simp [show p.engine.state ≠ .faulted from hf])).symm
  · intro command
    rw [hb] at hgo
    have hserv := writeDone_service p l L ss { sv with results := results, cur := none, faults := (b, d) :: more }
    refine State.act_of_setLane hr (hgo.trans ?_)
    rw [serviceNext_faults hserv rfl, startTrial_begins hserv b d (by rw [hlane]; exact hsp), hlane, Part.setLane_setLane]
    rfl

/-! ## FILL replies (R30) -/

section
variable {p : Part} {l : LaneId} {block n : Nat} {sv : Service} {x : Piece}
  (ha : (p.lane l).awaited = some (.fill block n)) (hs : (p.lane l).service = some sv) (hc : sv.cur = some x)
include ha hs hc

/-- A FILL transaction has ended: its run is written, and after a fault it is written again with zero WRITEs. -/
theorem fillReplyTaken_operation {code : Byte} {st : Status} (hst : writeStatuses [code] = some [st]) :
    fillReplyTaken l code p = serviceNext l (p.setLane l ((p.lane l).writeDone [st] { sv with
      results := sv.results ++ List.replicate x.count .good, cur := none
      zeros := if st = .writeFault then zeroPieces (x.count / 16 + 1) x.block x.count x.pos else [] })) := by
  have hfill : fillReplyTaken l code p = fillCompleted l st p := by
    simp only [fillReplyTaken, ha, hst]
  set y : Lane := { (p.lane l).countWrite [st] with txn := none } with hy
  set q := p.setLane l y with hq
  have hql : q.lane l = y := by rw [hq, Part.lane_setLane, if_pos rfl]
  have hqs : (q.lane l).service = some sv := by rw [hql]; exact hs
  have hys : y.service = some sv := hs
  rw [hfill]
  simp only [fillCompleted, Part.modLane_eq, ← hy, ← hq, hqs, hc]
  rw [hql, hq, Part.setLane_setLane]
  simp only [Lane.addResults, Lane.modService, hys, Option.map_some]
  rfl

end

/-! ## The zero WRITEs of a run (R30) -/

theorem zeroPieces_succ (fuel block count pos : Nat) (h : 1 ≤ count) : zeroPieces (fuel + 1) block count pos =
    ⟨.write, block, min count 16, pos⟩ ::
      zeroPieces fuel (block + min count 16) (count - min count 16) (pos + min count 16) :=
  if_neg (by omega)

/-- The WRITEs cover the run in ascending order, each of up to 16 blocks. -/
theorem zeroPieces_spec (fuel block count pos : Nat) (h : count ≤ 16 * fuel) :
    let pieces := zeroPieces fuel block count pos
    pieces.flatMap (fun z => List.range' z.block z.count) = List.range' block count
    ∧ pieces.flatMap (fun z => List.range' z.pos z.count) = List.range' pos count
    ∧ ∀ z ∈ pieces, z.kind = .write ∧ 1 ≤ z.count ∧ z.count ≤ 16 := by
  induction fuel generalizing block count pos with
  | zero =>
    obtain rfl : count = 0 := by omega
    exact ⟨rfl, rfl, fun z hz => absurd hz List.not_mem_nil⟩
  | succ fuel ih =>
    rcases Nat.eq_zero_or_pos count with rfl | hpos
    · exact ⟨rfl, rfl, fun z hz => absurd hz List.not_mem_nil⟩
    · obtain ⟨hblocks, hplaces, hall⟩ :=
        ih (block + min count 16) (count - min count 16) (pos + min count 16) (by omega)
      have hcount : min count 16 + (count - min count 16) = count := by omega
      intro pieces
      have hp : pieces = _ := zeroPieces_succ fuel block count pos hpos
      refine ⟨?_, ?_, fun z hz => ?_⟩
      · rw [hp, List.flatMap_cons, hblocks, List.range'_append_1, hcount]
      · rw [hp, List.flatMap_cons, hplaces, List.range'_append_1, hcount]
      · rw [hp, List.mem_cons] at hz
        rcases hz with rfl | hz
        · exact ⟨rfl, by dsimp only; omega, by dsimp only; omega⟩
        · exact hall z hz

/-- Settles O36, from the outcomes of the FILL reply and of its zero WRITEs. -/
theorem fillRepliesAndTheirZeroWrites : Obligations.FillRepliesAndTheirZeroWrites := by
  refine ⟨?_, ?_, fun block count pos => zeroPieces_spec _ block count pos (by omega)⟩
  · intro l s block n sv x hr p L results ha hs hc hf hb
    have hlane : ∀ y : Lane, (p.setLane l y).lane l = y := fun y => (Part.lane_setLane p l l y).trans (if_pos rfl)
    set good : Service := { sv with results := results, cur := none, zeros := [] } with hgooddef
    have hone : ∀ st ∈ [Status.good], st = .good := by simp
    have hserv := writeDone_service p l L [.good] good
    have hgood : fillReplyTaken l 0 p = serviceNext l (p.setLane l (L.writeDone [.good] good)) := by
      rw [fillReplyTaken_operation ha hs hc (code := 0) (st := .good) rfl, if_neg (by decide)]
    refine ⟨fun y rest htodo hy => ?_, fun htodo => ?_, fun hx => ?_⟩
    · have hcmd : ∀ q : Part, q.pieceCommand sv.op y = .fill y.block y.count := fun q => by simp only [Part.pieceCommand, hy]
      refine State.act_of_setLane hr (hgood.trans ?_)
      rw [serviceNext_todo hserv hf rfl htodo, hlane, Part.setLane_setLane, hcmd, Lane.writeDone_good L hone]
      rfl
    · rw [← Lane.writeDone_good L hone good]
      exact State.opEnds_of (hgood.trans (serviceNext_ends hserv hf rfl htodo))
    · intro command
      have hpieces := zeroPieces_succ (x.count / 16) x.block x.count x.pos hx
      have hserv := writeDone_service p l L [.writeFault] { sv with
        results := results, cur := none, zeros := zeroPieces (x.count / 16 + 1) x.block x.count x.pos }
      refine State.act_of_setLane hr ((fillReplyTaken_operation ha hs hc (code := 3) (st := .writeFault) rfl).trans ?_)
      rw [if_pos rfl, serviceNext_zeros hserv hf hpieces, hlane, Part.setLane_setLane, Part.pieceCommand_zero hb rfl, hpieces,
        List.tail_cons, ← satAdd_one L.counters.writeFaults]
      rfl
  · intro l s block sent sv x codes hr p L ha hs hk hcls hb ht hc hcodes
    have hlane : ∀ y : Lane, (p.setLane l y).lane l = y := fun y => (Part.lane_setLane p l l y).trans (if_pos rfl)
    set ss : List Status := List.replicate sent.length .good with hss
    set good : Service := { sv with cur := none, faults := [] } with hgooddef
    have hall : ∀ st ∈ ss, st = .good := fun st h => List.eq_of_mem_replicate h
    have hserv := writeDone_service p l L ss good
    have hgood : writeReplyTaken l codes p = serviceNext l (p.setLane l (L.writeDone ss good)) := by
      rw [writeReplyTaken_fill ha (by rw [hcodes, List.length_replicate]) (hcodes ▸ writeStatuses_good _) hs ht hc hcls hk,
        Part.faultsOf_good hall]
    refine ⟨fun z zs hz hzk => ?_, fun hz htodo => ?_⟩
    · intro command
      refine State.act_of_setLane hr (hgood.trans ?_)
      rw [serviceNext_zeros hserv rfl hz, hlane, Part.setLane_setLane, Part.pieceCommand_zero hb hzk,
        Lane.writeDone_good L hall]
      rfl
    · rw [← Lane.writeDone_good L hall good]
      exact State.opEnds_of (hgood.trans (serviceNext_ends (sv := good) hserv rfl hz htodo))

end Sys2Proof.Machine
end

section
/-!
The causes of link failures, and the lane link's messages as bytes (R20 to R24, R27, R28).
-/
namespace Sys2Proof.Machine

/-! ## What makes a link failure, and what is a bad reply (R22, R24, R27) -/

theorem carriesData_iff (c : Byte) : carriesData (statusOf c) = decide (c = 0 ∨ c = 1) := by
  unfold statusOf
  split <;> simp_all [carriesData]

/-- The number of blocks that a READ reply of these codes carries data for. -/
theorem length_filter_carriesData (codes : List Byte) :
    (codes.filter fun c => carriesData (statusOf c)).length = (codes.filter fun c => c = 0 ∨ c = 1).length := by
  simp only [carriesData_iff]

theorem readStatuses_codes {codes : List Byte} {ss : List Status} (h : readStatuses codes = some ss) :
    ∀ c ∈ codes, c.toNat < 3 := by
  induction codes generalizing ss with
  | nil => exact fun c hc => absurd hc List.not_mem_nil
  | cons d codes ih =>
    obtain ⟨st, rest, -, hst, hw, hr, hrest⟩ := readStatuses_cons.1 h
    intro c hc
    rcases List.mem_cons.1 hc with rfl | hc
    · rcases statusOf_eq_some.1 hst with ⟨rfl, -⟩ | ⟨rfl, -⟩ | ⟨rfl, -⟩ | ⟨-, rfl⟩ | ⟨-, rfl⟩
      · decide
      · decide
      · decide
      · exact absurd rfl hw
      · exact absurd rfl hr
    · exact ih hrest c hc

theorem readStatuses_none {codes : List Byte} (h : ∃ c ∈ codes, 3 ≤ c.toNat) : readStatuses codes = none := by
  obtain ⟨c, hc, h3⟩ := h
  refine Option.eq_none_iff_forall_ne_some.2 fun ss hss => ?_
  have := readStatuses_codes hss c hc
  omega

theorem writeStatuses_codes {codes : List Byte} {ss : List Status} (h : writeStatuses codes = some ss) :
    ∀ c ∈ codes, c = 0 ∨ c = 3 := by
  induction codes generalizing ss with
  | nil => exact fun c hc => absurd hc List.not_mem_nil
  | cons d codes ih =>
    obtain ⟨st, rest, -, hst, hgood, hrest⟩ := writeStatuses_cons.1 h
    intro c hc
    rcases List.mem_cons.1 hc with rfl | hc
    · rcases hgood with rfl | rfl
      · exact .inl (by simpa using statusOf_eq_some.1 hst)
      · exact .inr (by simpa using statusOf_eq_some.1 hst)
    · exact ih hrest c hc

theorem writeStatuses_none {codes : List Byte} (h : ∃ c ∈ codes, c ≠ 0 ∧ c ≠ 3) : writeStatuses codes = none := by
  obtain ⟨c, hc, h0, h3⟩ := h
  exact Option.eq_none_iff_forall_ne_some.2 fun ss hss => (writeStatuses_codes hss c hc).elim h0 h3

section
variable {p : Part} {l : LaneId} {cmd : Command} (ha : (p.lane l).awaited = some cmd)
include ha

/-- A reply of another kind than the command awaits is a bad reply (R22). -/
theorem replies_of_another_kind :
    ((∀ b n, cmd ≠ .read b n) → ∀ codes data, readReplyTaken l codes data p = badReplyTaken l p)
    ∧ ((∀ b d, cmd ≠ .write b d) → ∀ codes, writeReplyTaken l codes p = badReplyTaken l p)
    ∧ ((∀ b n, cmd ≠ .fill b n) → ∀ code, fillReplyTaken l code p = badReplyTaken l p)
    ∧ (cmd ≠ .ident → ∀ x c m, identReplyTaken l x c m p = badReplyTaken l p) := by
  refine ⟨fun h codes data => ?_, fun h codes => ?_, fun h code => ?_, fun h x c m => ?_⟩
  · cases cmd with
    | read b n => exact absurd rfl (h b n)
    | _ => simp only [readReplyTaken, ha]
  · cases cmd with
    | write b d => exact absurd rfl (h b d)
    | _ => simp only [writeReplyTaken, ha]
  · cases cmd with
    | fill b n => exact absurd rfl (h b n)
    | _ => simp only [fillReplyTaken, ha]
  · cases cmd with
    | ident => exact absurd rfl h
    | _ => simp only [identReplyTaken, ha]

end

section
variable {p : Part} {l : LaneId}

/-- A READ reply of another size is a bad reply; one with a status that READ does not report is a link failure. -/
theorem readReplyTaken_bad {b n : Nat} (ha : (p.lane l).awaited = some (.read b n)) (codes : List Byte) (data : List Block) :
    (codes.length ≠ n ∨ data.length ≠ (codes.filter fun c => c = 0 ∨ c = 1).length →
      readReplyTaken l codes data p = badReplyTaken l p)
    ∧ (codes.length = n → data.length = (codes.filter fun c => c = 0 ∨ c = 1).length → (∃ c ∈ codes, 3 ≤ c.toNat) →
      readReplyTaken l codes data p = linkFailure l p) := by
  simp only [readReplyTaken, ha, length_filter_carriesData]
  refine ⟨fun h => ?_, fun hn hd hc => ?_⟩
  · exact if_pos (by simpa using h)
  · refine (if_neg (by simp [hn, hd])).trans ?_
    rw [readStatuses_none hc]

theorem writeReplyTaken_bad {b : Nat} {d : List Block} (ha : (p.lane l).awaited = some (.write b d)) (codes : List Byte) :
    (codes.length ≠ d.length → writeReplyTaken l codes p = badReplyTaken l p)
    ∧ (codes.length = d.length → (∃ c ∈ codes, c ≠ 0 ∧ c ≠ 3) → writeReplyTaken l codes p = linkFailure l p) := by
  simp only [writeReplyTaken, ha]
  refine ⟨fun h => if_pos h, fun hn hc => ?_⟩
  refine (if_neg (not_not.2 hn)).trans ?_
  rw [writeStatuses_none hc]

theorem fillReplyTaken_bad {b n : Nat} (ha : (p.lane l).awaited = some (.fill b n)) {code : Byte} (h0 : code ≠ 0)
    (h3 : code ≠ 3) : fillReplyTaken l code p = linkFailure l p := by
  simp only [fillReplyTaken, ha, writeStatuses_none ⟨code, List.mem_singleton_self _, h0, h3⟩]

end

/-! ## Bytes and numbers (2.2) -/

theorem leBytes_length (n x : Nat) : (leBytes n x).length = n := by
  induction n generalizing x with
  | zero => rfl
  | succ n ih => rw [leBytes, List.length_cons, ih]

theorem ofLe_leBytes (n x : Nat) : ofLe (leBytes n x) = x % 256 ^ n := by
  induction n generalizing x with
  | zero => rw [leBytes, ofLe, pow_zero, Nat.mod_one]
  | succ n ih =>
    rw [leBytes, ofLe, ih, BitVec.toNat_ofNat, show 256 ^ (n + 1) = 256 * 256 ^ n from pow_succ' ..]
    exact Nat.mod_mul.symm

/-- The field that stands after other bytes. -/
theorem fieldAt_append (before field after : List Byte) :
    fieldAt (before ++ (field ++ after)) before.length field.length = ofLe field := by
  rw [fieldAt, List.drop_left, List.take_left]

theorem splitBlocks_getElem? (n : Nat) (bs : List Byte) (i : Nat) :
    (splitBlocks n bs)[i]? = if i < n then some ((bs.drop (4096 * i)).take 4096) else none := by
  induction n generalizing bs i with
  | zero => simp [splitBlocks]
  | succ n ih =>
    cases i with
    | zero => simp [splitBlocks]
    | succ i =>
      simp only [splitBlocks, List.getElem?_cons_succ, ih, List.drop_drop, Nat.add_lt_add_iff_right]
      rw [show 4096 + 4096 * i = 4096 * (i + 1) by omega]

theorem splitBlocks_length (n : Nat) (bs : List Byte) : (splitBlocks n bs).length = n := by
  induction n generalizing bs with
  | zero => rfl
  | succ n ih => rw [splitBlocks, List.length_cons, ih]

/-! ## A message and what it is read as (R20, R22, R23) -/

theorem classify_malformed (l : LaneId) (cmd : Command) {msg : List Byte}
    (h : msg.length < 7 ∨ fieldAt msg 1 4 ≠ msg.length - 7
      ∨ fieldAt msg (msg.length - 2) 2 ≠ (crc (msg.take (msg.length - 2))).toNat) :
    classify l (some cmd) msg = .badReply l := by
  have hlen : ((msg.take (msg.length - 2)).drop 5).length = msg.length - 7 := by
    rw [List.length_drop, List.length_take]
    omega
  unfold classify
  dsimp only
  refine if_pos ?_
  rw [hlen]
  simp only [Bool.or_eq_true, decide_eq_true_eq]
  tauto

/-- What a message of this type and payload is that is neither RESEND nor NOT_READY, by the command awaited. -/
def replyTo (l : LaneId) (cmd : Command) (type : Byte) (payload : List Byte) : Instr :=
  match cmd with
  | .ident =>
    if type = 0xA1 ∧ payload.length = 16 then
      .identReply l (BitVec.ofNat 64 (fieldAt payload 0 8)) (BitVec.ofNat 32 (fieldAt payload 8 4))
        (BitVec.ofNat 32 (fieldAt payload 12 4))
    else .badReply l
  | .read _ n =>
    let blocks := ((payload.take n).filter fun c => c = 0 ∨ c = 1).length
    if type = 0xA2 ∧ payload.length = n + 4096 * blocks then
      .readReply l (payload.take n) (splitBlocks blocks (payload.drop n))
    else .badReply l
  | .write _ d => if type = 0xA3 ∧ payload.length = d.length then .writeReply l payload else .badReply l
  | .fill _ _ => if type = 0xA4 ∧ payload.length = 1 then .fillReply l (byteAt payload 0) else .badReply l

/-- What a well-formed message of this type and payload is. -/
def replyOf (l : LaneId) (cmd : Command) (type : Byte) (payload : List Byte) : Instr :=
  if type = 0xAF then if payload.length = 0 then .moduleResend l else .badReply l
  else if type = 0xAE then if payload.length = 0 then .notReady l else .badReply l
  else replyTo l cmd type payload

theorem replyOf_other (l : LaneId) (cmd : Command) {type : Byte} (payload : List Byte) (hAF : type ≠ 0xAF) (hAE : type ≠ 0xAE) :
    replyOf l cmd type payload = replyTo l cmd type payload := (if_neg hAF).trans (if_neg hAE)

theorem messageBytes_length (type : Byte) (payload : List Byte) : (messageBytes type payload).length = payload.length + 7 := by
  simp [messageBytes, leBytes_length]
  omega

/-- A message's bytes without the check code. -/
theorem messageBytes_body (type : Byte) (payload : List Byte) :
    (messageBytes type payload).take ((messageBytes type payload).length - 2) = type :: (leBytes 4 payload.length ++ payload) := by
  have hlen : (messageBytes type payload).length - 2 = (type :: (leBytes 4 payload.length ++ payload)).length := by
    rw [messageBytes_length]
    simp [leBytes_length]
    omega
  rw [hlen]
  exact List.take_left

theorem messageBytes_size (type : Byte) {payload : List Byte} (h : payload.length < 2 ^ 32) :
    fieldAt (messageBytes type payload) 1 4 = payload.length := by
  have hfield : fieldAt (messageBytes type payload) 1 4 = ofLe (leBytes 4 payload.length) := by
    have happ := fieldAt_append [type] (leBytes 4 payload.length)
      (payload ++ leBytes 2 (crc (type :: (leBytes 4 payload.length ++ payload))).toNat)
    rw [leBytes_length] at happ
    rw [← happ]
    simp [messageBytes]
  rw [hfield, ofLe_leBytes, Nat.mod_eq_of_lt (by omega)]

theorem messageBytes_crc (type : Byte) (payload : List Byte) :
    fieldAt (messageBytes type payload) ((messageBytes type payload).length - 2) 2 =
      (crc (type :: (leBytes 4 payload.length ++ payload))).toNat := by
  set body := type :: (leBytes 4 payload.length ++ payload) with hbody
  have hlen : (messageBytes type payload).length - 2 = body.length := by
    rw [messageBytes_length, hbody]
    simp [leBytes_length]
    omega
  have happ := fieldAt_append body (leBytes 2 (crc body).toNat) []
  rw [leBytes_length, List.append_nil, ofLe_leBytes] at happ
  rw [hlen, show messageBytes type payload = body ++ leBytes 2 (crc body).toNat from rfl, happ]
  exact Nat.mod_eq_of_lt (crc body).isLt

/-- A well-formed message is read by its type, its size and the command awaited. -/
theorem classify_message (l : LaneId) (cmd : Command) (type : Byte) {payload : List Byte} (h : payload.length < 2 ^ 32) :
    classify l (some cmd) (messageBytes type payload) = replyOf l cmd type payload := by
  have hpayload : ((messageBytes type payload).take ((messageBytes type payload).length - 2)).drop 5 = payload := by
    rw [messageBytes_body, List.drop_succ_cons]
    exact List.drop_left' (leBytes_length 4 _)
  have htype : byteAt (messageBytes type payload) 0 = type := rfl
  have hok : (decide ((messageBytes type payload).length < 7)
      || decide (fieldAt (messageBytes type payload) ((messageBytes type payload).length - 2) 2 ≠
        (crc ((messageBytes type payload).take ((messageBytes type payload).length - 2))).toNat)
      || decide (fieldAt (messageBytes type payload) 1 4 ≠ payload.length)) = false := by
    rw [messageBytes_crc, messageBytes_body, messageBytes_size type h, messageBytes_length]
    simp
  unfold classify
  dsimp only
  rw [hpayload, hok, htype]
  refine (if_neg Bool.false_ne_true).trans ?_
  simp only [length_filter_carriesData]
  clear hok hpayload htype
  split
  next ht =>
    obtain rfl : type = 0xAF := BitVec.eq_of_toNat_eq ht
    rfl
  next ht =>
    obtain rfl : type = 0xAE := BitVec.eq_of_toNat_eq ht
    rfl
  next ht =>
    obtain rfl : type = 0xA1 := BitVec.eq_of_toNat_eq ht
    rw [replyOf_other l _ payload (by decide) (by decide)]
    simp [replyTo]
  next ht =>
    obtain rfl : type = 0xA2 := BitVec.eq_of_toNat_eq ht
    rw [replyOf_other l _ payload (by decide) (by decide)]
    simp [replyTo]
  next ht =>
    obtain rfl : type = 0xA3 := BitVec.eq_of_toNat_eq ht
    rw [replyOf_other l _ payload (by decide) (by decide)]
    simp [replyTo]
  next ht =>
    obtain rfl : type = 0xA4 := BitVec.eq_of_toNat_eq ht
    rw [replyOf_other l _ payload (by decide) (by decide)]
    simp [replyTo]
  next cmd _ _ hAF hAE hident hread hwrite hfill =>
    have hne : ∀ n : Byte, (type.toNat = n.toNat → False) → type ≠ n := fun n h e => h (e ▸ rfl)
    rw [replyOf_other l cmd payload (hne _ hAF) (hne _ hAE)]
    cases cmd with
    | ident => exact (if_neg fun g => hne 0xA1 (hident rfl) g.1).symm
    | read b n => exact (if_neg fun g => hne 0xA2 (hread b n rfl) g.1).symm
    | write b d => exact (if_neg fun g => hne 0xA3 (hwrite b d rfl) g.1).symm
    | fill b n => exact (if_neg fun g => hne 0xA4 (hfill b n rfl) g.1).symm

/-! ## What the part sends, and the obligation -/

/-- The check code takes one byte more, most significant bit first (R20). -/
theorem crc_append (bs : List Byte) (b : Byte) : crc (bs ++ [b]) =
    (List.range 8).foldl (fun (c : BitVec 16) _ => if c.msb = true then (c <<< 1) ^^^ 0x1021 else c <<< 1)
      (crc bs ^^^ (b.setWidth 16 <<< 8)) := by
  rw [crc, List.foldl_append]
  rfl

theorem sentBytes_write (b : Nat) (d : List Block) : Sent.bytes (.command (.write b d)) =
    messageBytes 0x53 (leBytes 4 b ++ leBytes 4 d.length ++ d.flatMap fullBlock) := by
  rw [List.flatMap_def]
  rfl

/-- Settles O29: each cause ends its handler in `linkFailure`, and `classify` sorts the messages by type and length. -/
theorem causesOfLinkFailures : Obligations.CausesOfLinkFailures := by
  refine ⟨?_, ⟨rfl, crc_append⟩, fun type payload => rfl, fun b n d => ⟨rfl, rfl, rfl, sentBytes_write b d, rfl⟩,
    fun l msg => ⟨rfl, fun cmd h => classify_malformed l cmd h⟩, ?_⟩
  · intro l s t ht hp fails
    have ha := Lane.awaited_of_awaiting ht hp
    obtain ⟨hread, hwrite, hfill, hident⟩ := replies_of_another_kind ha
    have haw : ∀ {c : Command}, t.cmd = c → (s.part.lane l).awaited = some c := fun h => h ▸ ha
    exact ⟨fun hn => State.act_congr (badReplyTaken_fails ht hp hn), fun hn => State.act_congr (notReadyTaken_fails ht hp hn),
      fun codes data h => State.act_congr (hread h codes data), fun codes h => State.act_congr (hwrite h codes),
      fun code h => State.act_congr (hfill h code), fun x c m h => State.act_congr (hident h x c m),
      fun b n codes data h hbad => State.act_congr ((readReplyTaken_bad (haw h) codes data).1 hbad),
      fun b d codes h hbad => State.act_congr ((writeReplyTaken_bad (haw h) codes).1 hbad),
      fun b n codes data h hn hd hc => State.act_congr ((readReplyTaken_bad (haw h) codes data).2 hn hd hc),
      fun b d codes h hn hc => State.act_congr ((writeReplyTaken_bad (haw h) codes).2 hn hc),
      fun b n code h h0 h3 => State.act_congr (fillReplyTaken_bad (haw h) h0 h3)⟩
  · intro l cmd type payload hlen size reply carried fits
    have hreply : reply = replyOf l cmd type payload := classify_message l cmd type hlen
    refine ⟨fun ht hp => ?_, fun ht hp => ?_, fun hf hAF hAE => ?_, fun hf => ⟨fun hc => ?_, fun b n hc => ?_, fun b d hc => ?_,
      fun b n hc => ?_⟩⟩
    · rw [hreply, ht, hp]
      rfl
    · rw [hreply, ht, hp]
      rfl
    · rw [hreply]
      by_cases h1 : type = 0xAF
      · exact (if_pos h1).trans (if_neg fun h => hAF ⟨h1, List.length_eq_zero_iff.1 h⟩)
      by_cases h2 : type = 0xAE
      · exact (if_neg h1).trans ((if_pos h2).trans (if_neg fun h => hAE ⟨h2, List.length_eq_zero_iff.1 h⟩))
      rw [replyOf_other l cmd payload h1 h2]
      cases cmd <;> exact if_neg hf
    · subst hc
      obtain ⟨ht, hs⟩ : type = 0xA1 ∧ size = 16 := hf
      rw [hreply, ht, replyOf_other l _ payload (by decide) (by decide)]
      exact if_pos (And.intro rfl hs)
    · subst hc
      obtain ⟨ht, hs⟩ : type = 0xA2 ∧ size = n + 4096 * carried n := hf
      refine ⟨splitBlocks (carried n) (payload.drop n), ?_, splitBlocks_length .., fun i c hi => ?_⟩
      · rw [hreply, ht, replyOf_other l _ payload (by decide) (by decide)]
        exact if_pos (And.intro rfl hs)
      · rw [splitBlocks_getElem?] at hi
        split at hi
        · exact (Option.some_inj.1 hi).symm
        · cases hi
    · subst hc
      obtain ⟨ht, hs⟩ : type = 0xA3 ∧ size = d.length := hf
      rw [hreply, ht, replyOf_other l _ payload (by decide) (by decide)]
      exact if_pos (And.intro rfl hs)
    · subst hc
      obtain ⟨ht, hs⟩ : type = 0xA4 ∧ size = 1 := hf
      rw [hreply, ht, replyOf_other l _ payload (by decide) (by decide)]
      exact if_pos (And.intro rfl hs)

end Sys2Proof.Machine
end

section
/-!
The record slot READ: the end of an identification, and which slots hold a valid record (R32, R41, R57, 4.2).
-/
namespace Sys2Proof.Machine

/-! ## Identification succeeds outside ATTACHING (R32, R41) -/

/-- The arrival mapping as a table (R41). -/
theorem Lane.arrival_eq (L : Lane) (serial : BitVec 64) : L.arrival serial =
    if L.recorded = .unbound ∨ L.boundSerial ≠ serial then .foreign
    else if L.recorded = .failed then .failed
    else if L.recorded = .offline then .offline
    else .stale := by
  unfold Lane.arrival
  cases L.recorded <;> simp

theorem Lane.arrival_ne_online (L : Lane) (serial : BitVec 64) : L.arrival serial ≠ .online := by
  rw [Lane.arrival_eq]
  split_ifs <;> decide

/-- The lane with the identity that its module gave. -/
def Lane.known (L : Lane) (serial : BitVec 64) (capacity largest : Word) : Lane :=
  { L with
    txn := none, identification := none, identified := true, serial := serial, capacity := capacity, largest := largest }

/-- The committer with a lane's newest valid record and its slot noted (R57). -/
def Committer.noteNewest (c : Committer) (l : LaneId) (newest : Option (RecordSlot × SetRecord)) : Committer :=
  { c with
    slotInUse := c.slotInUse.set l.val (newest.map (·.1))
    newest := c.newest.set l.val (newest.map (·.2)) }

/-- Outside ATTACHING the lane is mapped by its position's recorded state and bound serial. -/
theorem identifySucceeded_mapped {p : Part} {l : LaneId} (ha : p.engine.state ≠ .attaching) (serial : BitVec 64)
    (capacity largest : Word) (a b : Option Block) :
    let q : Part := { p.setLane l ((p.lane l).known serial capacity largest) with
      committer := p.committer.noteNewest l (newestRecord (parseRecord a) (parseRecord b)) }
    identifySucceeded l serial capacity largest a b p =
      changeRuntime l ((p.lane l).arrival serial) .arrival 0 q := by
  intro q
  have hq : identifySucceeded l serial capacity largest a b p =
      identifyEnded l (changeRuntime l ((q.lane l).arrival serial) .arrival 0 q) := by
    simp only [identifySucceeded, Part.modLane_engine, ha, decide_false, Bool.false_and, Bool.false_eq_true, if_false]
    rfl
  have hl : q.lane l = (p.lane l).known serial capacity largest := (Part.lane_setLane p l l _).trans (if_pos rfl)
  rw [hq, hl]
  refine identifyEnded_of_not_attaching ?_
  rw [(grows_changeRuntime l _ .arrival 0 q).engine]
  exact ha

/-- A completed record slot READ hands the two slots' contents on. -/
theorem readCompleted_slots {p : Part} {l : LaneId} {serial : BitVec 64} {capacity largest : Word} {ss : List Status}
    {data : List Block} {a b : Option Block} (hi : (p.lane l).identification = some (.slots serial capacity largest))
    (hc : slotContents ss data = [a, b]) : readCompleted l ss data p =
      identifySucceeded l serial capacity largest a b (p.setLane l { (p.lane l).countRead ss with txn := none }) := by
  set q := p.setLane l { (p.lane l).countRead ss with txn := none } with hq
  have hqi : (q.lane l).identification = some (.slots serial capacity largest) := by
    rw [hq, Part.lane_setLane, if_pos rfl]
    exact hi
  simp only [readCompleted, Part.modLane_eq, ← hq, hqi, hc]

/-- The record slot READ ends an identification outside ATTACHING. -/
theorem exec_slotRead {l : LaneId} {s : State} {serial : BitVec 64} {capacity largest : Word} {codes : List Byte}
    {ss : List Status} {data : List Block} {a b : Option Block} (hr : s.part.atRest) (ha : s.part.engine.state ≠ .attaching)
    (hw : (s.part.lane l).awaited = some (.read 0 2))
    (hi : (s.part.lane l).identification = some (.slots serial capacity largest))
    (hrun : (s.part.lane l).runtime = .identifying) (hd : s.part.derived) (hp : s.part.patrolIdle) (hn : codes.length = 2)
    (hss : readStatuses codes = some ss) (hdata : data.length = (ss.filter Status.readable).length)
    (hc : slotContents ss data = [a, b]) :
    exec (.readReply l codes data) s = .next (s.withPart (passEvent
      (laneStateEvent l .identifying ((s.part.lane l).arrival serial) .arrival 0)
      { s.part.setLane l { ((s.part.lane l).countRead ss).known serial capacity largest with
          runtime := (s.part.lane l).arrival serial } with
        committer := s.part.committer.noteNewest l (newestRecord (parseRecord a) (parseRecord b)) })) := by
  set x : Lane := { (s.part.lane l).countRead ss with txn := none } with hx
  set c := s.part.committer.noteNewest l (newestRecord (parseRecord a) (parseRecord b)) with hcdef
  set q : Part := { s.part.setLane l (x.known serial capacity largest) with committer := c } with hq
  have hxl : (s.part.setLane l x).lane l = x := (Part.lane_setLane s.part l l x).trans (if_pos rfl)
  have hql : q.lane l = x.known serial capacity largest := (Part.lane_setLane s.part l l _).trans (if_pos rfl)
  have hqrun : (q.lane l).runtime = .identifying := by rw [hql]; exact hrun
  have hmapped := identifySucceeded_mapped (p := s.part.setLane l x) (l := l) ha serial capacity largest a b
  rw [hxl, Part.setLane_setLane] at hmapped
  have hf : readReplyTaken l codes data s.part = changeRuntime l (x.arrival serial) .arrival 0 q :=
    (readReplyTaken_statuses hw hn hss hdata).trans ((readCompleted_slots hi hc).trans hmapped)
  have hrest : q.atRest := ⟨hr.1, Part.haltTested_congr (p := s.part) rfl rfl rfl rfl rfl rfl rfl rfl hr.2⟩
  have hder : q.derived :=
    Part.derived_congr (p := s.part.setLane l (x.known serial capacity largest)) (Part.derived_setLane hd Iff.rfl)
      (fun _ => rfl) fun _ => rfl
  refine (State.act_of_changeRuntime hf hrest hder hp (x.arrival_ne_online serial) (by rw [hqrun]; decide) ha).trans ?_
  rw [hqrun, hql, hq]
  refine congrArg (fun z => Host.Outcome.next (s.withPart (passEvent _ z))) ?_
  show ({ (s.part.setLane l _).setLane l _ with committer := c } : Part) = _
  rw [Part.setLane_setLane]
  rfl

/-! ## Fields of a record (4.2) -/

theorem ofLe_lt (bs : List Byte) : ofLe bs < 256 ^ bs.length := by
  induction bs with
  | nil => decide
  | cons b bs ih =>
    have hb := b.isLt
    rw [ofLe, List.length_cons, pow_succ]
    omega

theorem fieldAt_lt (bs : List Byte) (off n : Nat) : fieldAt bs off n < 256 ^ n :=
  lt_of_lt_of_le (ofLe_lt _) (Nat.pow_le_pow_right (by decide) (List.length_take_le ..))

theorem byteAt_toNat (bs : List Byte) (off : Nat) : (byteAt bs off).toNat = fieldAt bs off 1 := by
  unfold byteAt fieldAt
  rw [List.getD_eq_getElem?_getD, ← List.head?_drop]
  cases bs.drop off with
  | nil => rfl
  | cons b rest => simp [ofLe]

theorem toNat_fieldAt (bs : List Byte) (off n w : Nat) (h : 256 ^ n ≤ 2 ^ w) :
    (BitVec.ofNat w (fieldAt bs off n)).toNat = fieldAt bs off n := by
  rw [BitVec.toNat_ofNat, Nat.mod_eq_of_lt (lt_of_lt_of_le (fieldAt_lt bs off n) h)]

theorem volOf_eq_some {b : Byte} {v : VolId} : volOf b = some v ↔ b.toNat = v.val := by
  unfold volOf
  split
  · simp [Fin.ext_iff]
  · have := v.isLt
    simp
    omega

theorem exists_volOf {b : Byte} (h : b.toNat ≤ 7) : ∃ v, volOf b = some v := ⟨⟨b.toNat, by omega⟩, volOf_eq_some.2 rfl⟩

theorem exists_laneOf {b : Byte} (h : b.toNat ≤ 3) : ∃ l, laneOf b = some l := ⟨⟨b.toNat, by omega⟩, laneOf_eq_some.2 rfl⟩

/-- A code of a recorded state names it, and there are no codes above 5. -/
theorem RecordedState.ofCode_eq_some {b : Byte} {st : RecordedState} : RecordedState.ofCode b = some st ↔ b = st.code := by
  unfold RecordedState.ofCode
  split <;> cases st <;> simp_all [RecordedState.code]

theorem RecordedState.exists_ofCode {b : Byte} (h : b.toNat ≤ 5) : ∃ st, RecordedState.ofCode b = some st := by
  have hb : b = 0 ∨ b = 1 ∨ b = 2 ∨ b = 3 ∨ b = 4 ∨ b = 5 := by bv_omega
  rcases hb with rfl | rfl | rfl | rfl | rfl | rfl <;> exact ⟨_, rfl⟩

theorem RecordedState.code_le (st : RecordedState) : st.code.toNat ≤ 5 := by cases st <;> decide

theorem PatrolState.ofCode_eq_some {b : Byte} {st : PatrolState} : PatrolState.ofCode b = some st ↔ b = st.code := by
  unfold PatrolState.ofCode
  split <;> cases st <;> simp_all [PatrolState.code]

theorem PatrolState.exists_ofCode {b : Byte} (h : b.toNat ≤ 5) : ∃ st, PatrolState.ofCode b = some st := by
  have hb : b = 0 ∨ b = 1 ∨ b = 2 ∨ b = 3 ∨ b = 4 ∨ b = 5 := by bv_omega
  rcases hb with rfl | rfl | rfl | rfl | rfl | rfl <;> exact ⟨_, rfl⟩

theorem PatrolState.code_le (st : PatrolState) : st.code.toNat ≤ 5 := by cases st <;> decide

theorem Policy.ofCode_eq_some {b : Byte} {x : Policy} : Policy.ofCode b = some x ↔ b = x.code := by
  unfold Policy.ofCode
  split <;> cases x <;> simp_all [Policy.code]

theorem Policy.exists_ofCode {b : Byte} (h : b.toNat ≤ 1) : ∃ x, Policy.ofCode b = some x := by
  rcases (byte_le_one b).1 h with rfl | rfl <;> exact ⟨_, rfl⟩

theorem Policy.code_le (x : Policy) : x.code.toNat ≤ 1 := by cases x <;> decide

/-! ## Lists of entries -/

theorem distinct_iff (xs : List Nat) : distinct xs = true ↔ xs.Nodup := by
  induction xs with
  | nil => simp [distinct]
  | cons x xs ih => simp [distinct, ih]

theorem allSome_eq_some {α : Type} {xs : List (Option α)} {ys : List α} : allSome xs = some ys ↔ xs = ys.map some := by
  induction xs generalizing ys with
  | nil => cases ys <;> simp [allSome]
  | cons x xs ih =>
    rw [allSome_cons]
    cases x with
    | none => cases ys <;> simp
    | some y =>
      cases ys with
      | nil => simp
      | cons z zs => simp [ih, and_comm, eq_comm]

theorem exists_allSome {α : Type} {xs : List (Option α)} (h : ∀ o ∈ xs, ∃ x, o = some x) : ∃ ys, allSome xs = some ys := by
  induction xs with
  | nil => exact ⟨[], rfl⟩
  | cons o xs ih =>
    obtain ⟨x, rfl⟩ := h o List.mem_cons_self
    obtain ⟨ys, hys⟩ := ih fun o ho => h o (List.mem_cons_of_mem _ ho)
    exact ⟨x :: ys, by rw [allSome_cons, hys]; rfl⟩

section
variable {α : Type} {n : Nat} {f : Nat → Option α} {ys : List α}

/-- A table parses where each of its entries does. -/
theorem exists_allSome_range (h : ∀ i, i < n → ∃ x, f i = some x) : ∃ ys, allSome ((List.range n).map f) = some ys := by
  refine exists_allSome fun o ho => ?_
  obtain ⟨i, hi, rfl⟩ := List.mem_map.1 ho
  exact h i (List.mem_range.1 hi)

theorem length_of_allSome_range (h : allSome ((List.range n).map f) = some ys) : ys.length = n := by
  simpa using (congrArg List.length (allSome_eq_some.1 h)).symm

theorem getElem?_of_allSome_range (h : allSome ((List.range n).map f) = some ys) {i : Nat} {x : α} (hx : ys[i]? = some x) :
    f i = some x := by
  have hi : i < n := length_of_allSome_range h ▸ (List.getElem?_eq_some_iff.1 hx).1
  have hget := congrArg (·[i]?) (allSome_eq_some.1 h)
  simpa only [List.getElem?_map, hx, List.getElem?_range hi, Option.map_some, Option.some_inj] using hget

/-- Where a table parses each of its entries does. -/
theorem allSome_range_some (h : allSome ((List.range n).map f) = some ys) {i : Nat} (hi : i < n) : ∃ x, f i = some x :=
  ⟨_, getElem?_of_allSome_range h (List.getElem?_eq_getElem (length_of_allSome_range h ▸ hi))⟩

end

/-! ## The entries of a record (4.2) -/

section
variable {bs : List Byte} {i : Nat}

theorem parseLaneEntry_some {x : LaneEntry} (h : parseLaneEntry bs i = some x) :
    x.recorded.code.toNat = fieldAt bs (64 + 16 * i) 1 ∧ x.budget = fieldAt bs (65 + 16 * i) 1
    ∧ x.serial.toNat = fieldAt bs (72 + 16 * i) 8 := by
  unfold parseLaneEntry at h
  split at h
  · cases h
  · next st hst =>
    obtain rfl := Option.some_inj.1 h
    refine ⟨?_, rfl, toNat_fieldAt _ _ _ _ (by decide)⟩
    exact (congrArg BitVec.toNat (RecordedState.ofCode_eq_some.1 hst)).symm.trans (byteAt_toNat ..)

theorem exists_parseLaneEntry (h : fieldAt bs (64 + 16 * i) 1 ≤ 5) : ∃ x, parseLaneEntry bs i = some x := by
  rw [← byteAt_toNat] at h
  obtain ⟨st, hst⟩ := RecordedState.exists_ofCode h
  exact ⟨_, by rw [parseLaneEntry, hst]⟩

theorem parseVolumeEntry_some {x : VolumeEntry} (h : parseVolumeEntry bs i = some x) :
    x.number.val = fieldAt bs (128 + 32 * i) 1 ∧ x.members = (byteAt bs (129 + 32 * i)).setWidth 4
    ∧ x.reference.val = fieldAt bs (130 + 32 * i) 1 ∧ x.policy.code.toNat = fieldAt bs (131 + 32 * i) 1
    ∧ x.first = fieldAt bs (132 + 32 * i) 4 ∧ x.length = fieldAt bs (136 + 32 * i) 4
    ∧ x.label = (bs.drop (140 + 32 * i)).take 16 := by
  have hat : ∀ k, 128 + 32 * i + k = 128 + k + 32 * i := fun k => by omega
  simp only [parseVolumeEntry, hat] at h
  split at h
  · next v ref pol hv href hpol =>
    obtain rfl := Option.some_inj.1 h
    refine ⟨?_, rfl, ?_, ?_, rfl, rfl, rfl⟩
    · rw [← byteAt_toNat]
      exact (volOf_eq_some.1 hv).symm
    · rw [← byteAt_toNat]
      exact (laneOf_eq_some.1 href).symm
    · rw [← byteAt_toNat, ← Policy.ofCode_eq_some.1 hpol]
  · cases h

theorem exists_parseVolumeEntry (h : fieldAt bs (128 + 32 * i) 1 ≤ 7 ∧ fieldAt bs (130 + 32 * i) 1 ≤ 3
    ∧ fieldAt bs (131 + 32 * i) 1 ≤ 1) : ∃ x, parseVolumeEntry bs i = some x := by
  have hat : ∀ k, 128 + 32 * i + k = 128 + k + 32 * i := fun k => by omega
  simp only [← byteAt_toNat] at h
  obtain ⟨hv, href, hpol⟩ := h
  obtain ⟨v, hv⟩ := exists_volOf hv
  obtain ⟨ref, href⟩ := exists_laneOf href
  obtain ⟨pol, hpol⟩ := Policy.exists_ofCode hpol
  refine Option.isSome_iff_exists.1 ?_
  simp only [parseVolumeEntry, hat, hv, href, hpol, Option.isSome_some]

theorem parseRecordSpan_some {y : Span} (h : parseRecordSpan bs i = some y) :
    y.volume.val = fieldAt bs (384 + 12 * i) 1 ∧ y.first = fieldAt bs (388 + 12 * i) 4
    ∧ y.count = fieldAt bs (392 + 12 * i) 4 := by
  unfold parseRecordSpan at h
  split at h
  · cases h
  · next v hv =>
    obtain rfl := Option.some_inj.1 h
    refine ⟨?_, rfl, rfl⟩
    rw [← byteAt_toNat]
    exact (volOf_eq_some.1 hv).symm

theorem exists_parseRecordSpan (h : fieldAt bs (384 + 12 * i) 1 ≤ 7) : ∃ y, parseRecordSpan bs i = some y := by
  rw [← byteAt_toNat] at h
  obtain ⟨v, hv⟩ := exists_volOf h
  exact ⟨_, by rw [parseRecordSpan, hv]⟩

end

/-! ## Valid records (R57) -/

/-- The lane blocks of the remap entries of a record, and their spares. -/
def remapKeys (bs : List Byte) : List Nat := (List.range (fieldAt bs 42 2)).map fun i => fieldAt bs (512 + 8 * i) 4

def remapSpares (bs : List Byte) : List Nat := (List.range (fieldAt bs 42 2)).map fun i => fieldAt bs (516 + 8 * i) 2

/-- The tests of R57. -/
def RecordValid (bs : List Byte) : Prop :=
  bs.take 4 = [0x45, 0x5A, 0x52, 0x31] ∧ (crc (bs.take 4094)).toNat = fieldAt bs 4094 2
    ∧ fieldAt bs 4 8 ≠ 0 ∧ fieldAt bs 12 8 ≠ 0 ∧ fieldAt bs 40 1 ≤ 3 ∧ fieldAt bs 21 1 ≤ 8 ∧ fieldAt bs 23 1 ≤ 8
    ∧ (byteAt bs 22 ≠ 0 → 1 ≤ fieldAt bs 23 1)
    ∧ fieldAt bs 42 2 ≤ 256 ∧ fieldAt bs 44 2 ≤ 256 ∧ fieldAt bs 46 2 ≤ 256
    ∧ fieldAt bs 42 2 + fieldAt bs 46 2 = fieldAt bs 44 2 ∧ (remapKeys bs).Nodup ∧ (remapSpares bs).Nodup

/-- Each code names a state, a volume, a lane or a policy (log 11). -/
def RecordNamed (bs : List Byte) : Prop :=
  (∀ i : LaneId, fieldAt bs (64 + 16 * i.val) 1 ≤ 5) ∧ fieldAt bs 29 1 ≤ 5
    ∧ (∀ i, i < fieldAt bs 21 1 →
      fieldAt bs (128 + 32 * i) 1 ≤ 7 ∧ fieldAt bs (130 + 32 * i) 1 ≤ 3 ∧ fieldAt bs (131 + 32 * i) 1 ≤ 1)
    ∧ (byteAt bs 22 ≠ 0 → ∀ i, i < fieldAt bs 23 1 → fieldAt bs (384 + 12 * i) 1 ≤ 7)

/-- The number of spans a record's plan has: none without a plan. -/
def recordSpans (bs : List Byte) : Nat := if byteAt bs 22 ≠ 0 then fieldAt bs 23 1 else 0

theorem parseRemap_eq (bs : List Byte) :
    (List.range (fieldAt bs 42 2)).map (parseRemap bs) = (remapKeys bs).zip (remapSpares bs) :=
  (List.zip_map' ..).symm

theorem parseRemap_keys (bs : List Byte) : ((List.range (fieldAt bs 42 2)).map (parseRemap bs)).map Prod.fst = remapKeys bs :=
  List.map_map ..

theorem parseRemap_spares (bs : List Byte) :
    ((List.range (fieldAt bs 42 2)).map (parseRemap bs)).map Prod.snd = remapSpares bs := List.map_map ..

/-- The record of the fields of 4.2, from its parts that are parsed by themselves. -/
def recordOf (bs : List Byte) (pos : LaneId) (pat : PatrolState) (lanes : Vector LaneEntry 4) (vols : List VolumeEntry)
    (spans : List Span) : SetRecord where
  serial := BitVec.ofNat 64 (fieldAt bs 4 8)
  generation := BitVec.ofNat 64 (fieldAt bs 12 8)
  clean := byteAt bs 20 ≠ 0
  lanes := lanes
  volumes := vols
  plan := if byteAt bs 22 ≠ 0 then some ⟨spans, byteAt bs 24 ≠ 0, fieldAt bs 26 2, fieldAt bs 28 1⟩ else none
  patrol := pat
  checkpoint := ⟨fieldAt bs 30 1, fieldAt bs 32 4, BitVec.ofNat 32 (fieldAt bs 36 4)⟩
  position := pos
  remap := (List.range (fieldAt bs 42 2)).map (parseRemap bs)
  spareNext := fieldAt bs 44 2
  deadSpares := fieldAt bs 46 2

/-- The parts of a record parse. -/
structure RecordParts (bs : List Byte) (pos : LaneId) (pat : PatrolState) (l0 l1 l2 l3 : LaneEntry) (vols : List VolumeEntry)
    (spans : List Span) : Prop where
  position : laneOf (byteAt bs 40) = some pos
  patrol : PatrolState.ofCode (byteAt bs 29) = some pat
  lane0 : parseLaneEntry bs 0 = some l0
  lane1 : parseLaneEntry bs 1 = some l1
  lane2 : parseLaneEntry bs 2 = some l2
  lane3 : parseLaneEntry bs 3 = some l3
  volumes : allSome ((List.range (fieldAt bs 21 1)).map (parseVolumeEntry bs)) = some vols
  spans : allSome ((List.range (recordSpans bs)).map (parseRecordSpan bs)) = some spans

/-- The counts of a record that R57 bounds. -/
theorem recordCounts_iff (bs : List Byte) : (8 < fieldAt bs 21 1 || 8 < fieldAt bs 23 1 || (byteAt bs 22 ≠ 0 && fieldAt bs 23 1 = 0)
      || 256 < fieldAt bs 42 2 || 256 < fieldAt bs 44 2 || 256 < fieldAt bs 46 2
      || fieldAt bs 42 2 + fieldAt bs 46 2 ≠ fieldAt bs 44 2) = false ↔
    fieldAt bs 21 1 ≤ 8 ∧ fieldAt bs 23 1 ≤ 8 ∧ (byteAt bs 22 ≠ 0 → 1 ≤ fieldAt bs 23 1)
      ∧ fieldAt bs 42 2 ≤ 256 ∧ fieldAt bs 44 2 ≤ 256 ∧ fieldAt bs 46 2 ≤ 256
      ∧ fieldAt bs 42 2 + fieldAt bs 46 2 = fieldAt bs 44 2 := by
  simp only [Bool.or_eq_false_iff, Bool.and_eq_false_iff, decide_eq_false_iff_not, not_lt, not_not, and_assoc,
    Nat.one_le_iff_ne_zero, imp_iff_not_or]

theorem recordMark_iff (bs : List Byte) : ¬ bs.take 4 ≠ recordMark ↔ bs.take 4 = [0x45, 0x5A, 0x52, 0x31] := not_not

theorem recordCrc_iff (bs : List Byte) : ¬ crc (bs.take 4094) ≠ BitVec.ofNat 16 (fieldAt bs 4094 2) ↔
    (crc (bs.take 4094)).toNat = fieldAt bs 4094 2 := by
  rw [not_not, ← BitVec.toNat_inj, toNat_fieldAt _ _ _ _ (by decide)]

theorem recordRemap_iff (bs : List Byte) :
    ¬ (!distinct (((List.range (fieldAt bs 42 2)).map (parseRemap bs)).map Prod.fst)
      || !distinct (((List.range (fieldAt bs 42 2)).map (parseRemap bs)).map Prod.snd)) = true ↔
    (remapKeys bs).Nodup ∧ (remapSpares bs).Nodup := by
  rw [parseRemap_keys, parseRemap_spares, ← distinct_iff, ← distinct_iff]
  simp

/-- A slot holds a record exactly where its tests pass and its parts parse. -/
theorem parseRecordBytes_eq_some {bs : List Byte} {r : SetRecord} : parseRecordBytes bs = some r ↔
    RecordValid bs ∧ ∃ pos pat l0 l1 l2 l3 vols spans, RecordParts bs pos pat l0 l1 l2 l3 vols spans
      ∧ r = recordOf bs pos pat #v[l0, l1, l2, l3] vols spans := by
  simp only [parseRecordBytes, Option.ite_none_left_eq_some]
  constructor
  · rintro ⟨hmark, hcrc, hzero, hcounts, hremap, h⟩
    obtain ⟨hvols, hspans, hplan, hremaps, hnext, hdead, hsum⟩ :=
      (recordCounts_iff bs).1 (Bool.not_eq_true _ ▸ hcounts)
    obtain ⟨hserial, hgeneration⟩ : fieldAt bs 4 8 ≠ 0 ∧ fieldAt bs 12 8 ≠ 0 := by simpa using hzero
    split at h
    · next pos pat l0 l1 l2 l3 vols spans hpos hpat h0 h1 h2 h3 hv hs =>
      have hposition : fieldAt bs 40 1 ≤ 3 := by
        rw [← byteAt_toNat, laneOf_eq_some.1 hpos]
        omega
      exact ⟨⟨(recordMark_iff bs).1 hmark, (recordCrc_iff bs).1 hcrc, hserial, hgeneration, hposition, hvols, hspans, hplan,
          hremaps, hnext, hdead, hsum, (recordRemap_iff bs).1 hremap⟩,
        pos, pat, l0, l1, l2, l3, vols, spans, ⟨hpos, hpat, h0, h1, h2, h3, hv, by simpa [recordSpans] using hs⟩,
        (Option.some_inj.1 h).symm⟩
    · cases h
  · rintro ⟨⟨hmark, hcrc, hserial, hgeneration, -, hvols, hspans, hplan, hremaps, hnext, hdead, hsum, hremap⟩,
      pos, pat, l0, l1, l2, l3, vols, spans, ⟨hpos, hpat, h0, h1, h2, h3, hv, hs⟩, rfl⟩
    have hcounts := (recordCounts_iff bs).2 ⟨hvols, hspans, hplan, hremaps, hnext, hdead, hsum⟩
    refine ⟨(recordMark_iff bs).2 hmark, (recordCrc_iff bs).2 hcrc, by simp [hserial, hgeneration],
      by rw [hcounts]; decide, (recordRemap_iff bs).2 hremap, ?_⟩
    have hs : allSome ((List.range (if byteAt bs 22 ≠ 0 then fieldAt bs 23 1 else 0)).map (parseRecordSpan bs)) = some spans := hs
    simp only [hpos, hpat, h0, h1, h2, h3, hv, hs]
    rfl

/-! ## Which slots parse, and as what -/

section
variable {bs : List Byte} {pos : LaneId} {pat : PatrolState} {l0 l1 l2 l3 : LaneEntry} {vols : List VolumeEntry}
  {spans : List Span}

theorem RecordParts.lane (h : RecordParts bs pos pat l0 l1 l2 l3 vols spans) (i : LaneId) :
    parseLaneEntry bs i.val = some #v[l0, l1, l2, l3][i.val] := by
  match i with
  | 0 => exact h.lane0
  | 1 => exact h.lane1
  | 2 => exact h.lane2
  | 3 => exact h.lane3

theorem RecordParts.patrol_code (h : RecordParts bs pos pat l0 l1 l2 l3 vols spans) : pat.code.toNat = fieldAt bs 29 1 := by
  rw [← byteAt_toNat, ← PatrolState.ofCode_eq_some.1 h.patrol]

theorem RecordParts.position_val (h : RecordParts bs pos pat l0 l1 l2 l3 vols spans) : pos.val = fieldAt bs 40 1 := by
  rw [← byteAt_toNat, laneOf_eq_some.1 h.position]

/-- Where the parts of a record parse, each code names something. -/
theorem RecordParts.named (h : RecordParts bs pos pat l0 l1 l2 l3 vols spans) : RecordNamed bs := by
  refine ⟨fun i => ?_, h.patrol_code ▸ pat.code_le, fun i hi => ?_, fun hplanned i hi => ?_⟩
  · obtain ⟨hcode, -, -⟩ := parseLaneEntry_some (h.lane i)
    exact hcode ▸ RecordedState.code_le _
  · obtain ⟨x, hx⟩ := allSome_range_some h.volumes hi
    obtain ⟨hnumber, -, href, hpolicy, -, -, -⟩ := parseVolumeEntry_some hx
    exact ⟨by omega, by omega, hpolicy ▸ x.policy.code_le⟩
  · have hspans : recordSpans bs = fieldAt bs 23 1 := if_pos hplanned
    obtain ⟨y, hy⟩ := allSome_range_some h.spans (hspans ▸ hi)
    obtain ⟨hvolume, -, -⟩ := parseRecordSpan_some hy
    omega

/-- The parts of a valid record parse where each code names something. -/
theorem exists_recordParts (hv : RecordValid bs) (hn : RecordNamed bs) :
    ∃ pos pat l0 l1 l2 l3 vols spans, RecordParts bs pos pat l0 l1 l2 l3 vols spans := by
  obtain ⟨-, -, -, -, hposition, -⟩ := hv
  obtain ⟨hlanes, hpatrol, hvolumes, hspans⟩ := hn
  obtain ⟨pos, hpos⟩ := exists_laneOf (b := byteAt bs 40) (by rwa [byteAt_toNat])
  obtain ⟨pat, hpat⟩ := PatrolState.exists_ofCode (b := byteAt bs 29) (by rwa [byteAt_toNat])
  obtain ⟨l0, h0⟩ := exists_parseLaneEntry (hlanes 0)
  obtain ⟨l1, h1⟩ := exists_parseLaneEntry (hlanes 1)
  obtain ⟨l2, h2⟩ := exists_parseLaneEntry (hlanes 2)
  obtain ⟨l3, h3⟩ := exists_parseLaneEntry (hlanes 3)
  obtain ⟨vols, hvols⟩ := exists_allSome_range fun i hi => exists_parseVolumeEntry (hvolumes i hi)
  have hspan : ∀ i, i < recordSpans bs → ∃ y, parseRecordSpan bs i = some y := by
    intro i hi
    unfold recordSpans at hi
    split_ifs at hi with hplanned
    · exact exists_parseRecordSpan (hspans hplanned i hi)
    · omega
  obtain ⟨spans, hspans⟩ := exists_allSome_range hspan
  exact ⟨pos, pat, l0, l1, l2, l3, vols, spans, hpos, hpat, h0, h1, h2, h3, hvols, hspans⟩

end

/-- A slot that fails a test, or has a code that names nothing, holds no record. -/
theorem parseRecordBytes_none {bs : List Byte} (h : ¬ RecordValid bs ∨ ¬ RecordNamed bs) : parseRecordBytes bs = none := by
  refine Option.eq_none_iff_forall_ne_some.2 fun r hr => ?_
  obtain ⟨hv, _, _, _, _, _, _, _, _, hparts, -⟩ := parseRecordBytes_eq_some.1 hr
  exact h.elim (· hv) (· hparts.named)

/-! ## The obligation -/

/-- The newest record of two slots is the one of the larger generation, slot B's at equal ones (R57). -/
theorem newestRecord_spec (a b : Option SetRecord) :
    (newestRecord a b = none ↔ a = none ∧ b = none)
    ∧ ∀ x y, (newestRecord (some x) none = some (.a, x) ∧ newestRecord none (some y) = some (.b, y))
      ∧ newestRecord (some x) (some y) = if y.generation.toNat < x.generation.toNat then some (.a, x) else some (.b, y) := by
  refine ⟨?_, fun x y => ⟨⟨rfl, rfl⟩, rfl⟩⟩
  rcases a with _ | x <;> rcases b with _ | y
  · simp [newestRecord]
  · simp [newestRecord]
  · simp [newestRecord]
  · simp only [newestRecord]
    split_ifs <;> simp

/-- Settles O24: the step by `exec_slotRead`, the slots' contents by `parseRecordBytes_eq_some`. -/
theorem slotReadEndsIdentification : Obligations.SlotReadEndsIdentification := by
  unfold Obligations.SlotReadEndsIdentification
  refine ⟨?_, ⟨rfl, fun _ => rfl⟩, fun bs => ⟨parseRecordBytes_none (bs := bs), fun hv hn => ?_⟩, newestRecord_spec⟩
  · intro l s serial capacity largest codes ss data a b hr p L newest new ha hw hi hrun hd hp hn hss hdata hc
    have hnew : new = L.arrival serial := (L.arrival_eq serial).symm
    rw [hnew]
    exact exec_slotRead hr ha hw hi hrun hd hp hn hss hdata hc
  · obtain ⟨pos, pat, l0, l1, l2, l3, vols, spans, hparts⟩ := exists_recordParts (bs := bs) hv hn
    refine ⟨_, parseRecordBytes_eq_some.2 ⟨hv, pos, pat, l0, l1, l2, l3, vols, spans, hparts, rfl⟩,
      toNat_fieldAt _ _ _ _ (by decide), toNat_fieldAt _ _ _ _ (by decide), rfl,
      fun i => parseLaneEntry_some (hparts.lane i), length_of_allSome_range hparts.volumes,
      fun i x hx => parseVolumeEntry_some (getElem?_of_allSome_range hparts.volumes hx), fun hplan => if_neg hplan,
      fun hplan => ?_, hparts.patrol_code, rfl, rfl, toNat_fieldAt _ _ _ _ (by decide), hparts.position_val, parseRemap_eq bs,
      rfl, rfl⟩
    exact ⟨_, if_pos hplan, (length_of_allSome_range hparts.spans).trans (if_pos hplan), rfl, rfl, rfl,
      fun i y hy => parseRecordSpan_some (getElem?_of_allSome_range hparts.spans hy)⟩

end Sys2Proof.Machine
end

section
/-!
O59: requests for a commit, its start and its finish, and the records it writes (R46, R56, R58, R59, R62, R63).
-/
namespace Sys2Proof.Machine

/-! ## Issuing changes the lanes and the handed work alone -/

theorem laneChoose_lanes (l : LaneId) (p : Part) : ∃ ls ts, laneChoose l p = { p with lanes := ls, agenda := ts } := by
  rw [laneChoose_eq]
  split
  · exact ⟨_, _, rfl⟩
  · exact ⟨p.lanes, p.agenda, rfl⟩

theorem enqueue_lanes (l : LaneId) (op : LaneOp) (p : Part) : ∃ ls ts, enqueue l op p = { p with lanes := ls, agenda := ts } := by
  unfold enqueue
  dsimp only
  split
  · obtain ⟨ls, ts, h⟩ := laneChoose_lanes l (p.setLane l { p.lane l with queue := (p.lane l).queue ++ [op] })
    exact ⟨ls, ts, h⟩
  · exact ⟨_, p.agenda, rfl⟩

theorem enqueueEach_lanes (ms : List LaneId) (op : LaneId → LaneOp) (p : Part) :
    ∃ ls ts, enqueueEach ms op p = { p with lanes := ls, agenda := ts } := by
  unfold enqueueEach
  induction ms generalizing p with
  | nil => exact ⟨p.lanes, p.agenda, rfl⟩
  | cons m ms ih =>
    obtain ⟨ls, ts, h⟩ := enqueue_lanes m (op m) p
    obtain ⟨ls', ts', h'⟩ := ih (enqueue m (op m) p)
    refine ⟨ls', ts', h'.trans ?_⟩
    rw [h]

/-! ## Marks (R46, R63) -/

theorem WaitMark.bind_eq (m : WaitMark) : m.bind = if m = .waiting then .bound else m := by
  cases m <;> rfl

theorem WaitMark.release_eq (m : WaitMark) : m.release = if m = .bound then .none else m := by
  cases m <;> rfl

theorem Part.entry_mapTable (p : Part) (f : Entry → Entry) (e : EntryId) :
    ({ p with table := p.table.map (Option.map f) } : Part).entry e = (p.entry e).map f := by
  simp [Part.entry]

theorem Part.vol_mapVolumes (p : Part) (f : Volume → Volume) (v : VolId) :
    ({ p with volumes := p.volumes.map f } : Part).vol v = f (p.vol v) := by
  simp [Part.vol]

@[simp] theorem bindMarks_committer (p : Part) : (bindMarks p).committer = p.committer := rfl

theorem bindMarks_hold (p : Part) (v : VolId) :
    ((bindMarks p).vol v).hold = if (p.vol v).hold = .waiting then .bound else (p.vol v).hold := by
  rw [← WaitMark.bind_eq]
  exact congrArg Volume.hold (Part.vol_mapVolumes p Volume.bindHold v)

theorem bindMarks_entry (p : Part) (e : EntryId) : (bindMarks p).entry e = (p.entry e).map Entry.bindMark :=
  Part.entry_mapTable p Entry.bindMark e

/-! ## The start of a commit (R59) -/

theorem Part.has_serviceableMask (p : Part) (l : LaneId) : p.serviceableMask.has l = p.serviceable l := by
  simp [Part.serviceableMask, LaneMask.has_ofList, mem_allLanes]

/-- The generation of the commit that starts. -/
def Committer.nextGeneration (c : Committer) : BitVec 64 :=
  if c.serial = 0 then c.generation else Machine.nextGeneration c.generation

/-- The committer when a commit has started: its targets are the serviceable lanes, and each has its record built. -/
def Part.commitStarted (p : Part) : Committer :=
  { p.committer with
    requested := false
    generation := p.committer.nextGeneration
    inFlight := some ⟨p.committer.nextGeneration, p.committer.clean, p.serviceableMask, .replicate 4 .pending⟩
    buffers := Vector.ofFn fun l : Fin 4 =>
      if p.serviceableMask.has l then some (p.buildRecord p.committer.nextGeneration l).block else none }

/-- With a target, a start binds the marks, sets the committer and issues the record writes. -/
theorem startCommit_eq {p : Part} (h : p.serviceableMask ≠ 0) :
    ∃ ls ts, startCommit p = { bindMarks { p with committer := p.commitStarted } with lanes := ls, agenda := ts } := by
  have hstart : startCommit p = enqueueEach p.serviceableMask.lanes (fun l => recordOp l (p.commitStarted.slotFor l))
      (bindMarks { p with committer := p.commitStarted }) := if_neg h
  rw [hstart]
  exact enqueueEach_lanes ..

theorem startCommit_committer {p : Part} (h : p.serviceableMask ≠ 0) : (startCommit p).committer = p.commitStarted := by
  obtain ⟨ls, ts, hq⟩ := startCommit_eq h
  rw [hq]
  rfl

theorem startCommit_hold {p : Part} (h : p.serviceableMask ≠ 0) (v : VolId) :
    ((startCommit p).vol v).hold = if (p.vol v).hold = .waiting then .bound else (p.vol v).hold := by
  obtain ⟨ls, ts, hq⟩ := startCommit_eq h
  rw [hq]
  exact bindMarks_hold { p with committer := p.commitStarted } v

theorem startCommit_entry {p : Part} (h : p.serviceableMask ≠ 0) (e : EntryId) :
    (startCommit p).entry e = (p.entry e).map Entry.bindMark := by
  obtain ⟨ls, ts, hq⟩ := startCommit_eq h
  rw [hq]
  exact bindMarks_entry { p with committer := p.commitStarted } e

theorem Part.serviceableMask_ne_zero {p : Part} {l : LaneId} (h : p.serviceable l = true) : p.serviceableMask ≠ 0 := by
  intro hz
  rw [← Part.has_serviceableMask, hz] at h
  simp [LaneMask.has] at h

/-! ## Commit requests (R58) -/

/-- In a state that takes commit requests, one starts a commit, or is noted while one is in flight. -/
theorem requestCommit_taken {p : Part} (h : (p.engine.state = .attaching ∧ p.engine.attach = .firstCommits)
    ∨ p.engine.state ∈ [.running, .halting, .halted, .detaching]) :
    requestCommit p = if p.committer.inFlight.isSome then { p with committer := { p.committer with requested := true } }
      else startCommit p := by
  unfold requestCommit
  rcases h with ⟨hs, ha⟩ | hs
  · simp only [hs]
    exact if_pos ha
  · simp only [List.mem_cons, List.not_mem_nil, or_false] at hs
    rcases hs with hs | hs | hs | hs <;> simp only [hs]

theorem requestCommit_attaching {p : Part} (hs : p.engine.state = .attaching) (ha : p.engine.attach ≠ .firstCommits) :
    requestCommit p = p := by
  unfold requestCommit
  simp only [hs]
  exact if_neg ha

/-! ## The records of a commit (R56) -/

theorem Part.mem_volumeEntries {p : Part} {x : VolumeEntry} :
    x ∈ p.volumeEntries ↔ ∃ v, (p.vol v).inUse = true ∧ (p.vol v).state ≠ .filling ∧ x = ⟨v, (p.vol v).members,
      (p.vol v).reference, (p.vol v).policy, (p.vol v).first, (p.vol v).length, (p.vol v).label⟩ := by
  simp only [Part.volumeEntries, List.mem_map, List.mem_filter, mem_allVols, true_and, Part.ready, Bool.and_eq_true,
    decide_eq_true_eq, and_assoc, eq_comm (a := x)]

/-- The volume entries stand in ascending volume number. -/
theorem Part.volumeEntries_ascending (p : Part) : (p.volumeEntries.map (·.number)).Pairwise (· < ·) := by
  have hall : allVols.Pairwise (· < ·) := by decide
  have hnumbers : p.volumeEntries.map (·.number) = allVols.filter p.ready := by
    simp only [Part.volumeEntries, List.map_map]
    exact List.map_id _
  rw [hnumbers]
  exact hall.filter _

/-! ## The block of a record (log 11) -/

/-- A record's block without its check code. -/
def SetRecord.body (r : SetRecord) : List Byte := r.fieldBytes ++ List.replicate (4094 - r.fieldBytes.length) 0

theorem SetRecord.block_eq (r : SetRecord) : r.block = r.body ++ leBytes 2 (crc r.body).toNat := rfl

/-- The layout of the fields begins with the mark. -/
theorem SetRecord.fieldBytes_mark (r : SetRecord) : ∃ rest, r.fieldBytes = recordMark ++ rest := ⟨_, rfl⟩

section
variable {r : SetRecord} (h : r.fieldBytes.length ≤ 4094)
include h

theorem SetRecord.body_length : r.body.length = 4094 := by
  unfold SetRecord.body
  rw [List.length_append, List.length_replicate]
  omega

theorem SetRecord.block_length : r.block.length = 4096 := by
  rw [SetRecord.block_eq, List.length_append, SetRecord.body_length h, leBytes_length]

theorem SetRecord.block_take_body : r.block.take 4094 = r.body := by
  rw [SetRecord.block_eq, ← SetRecord.body_length h]
  exact List.take_left

/-- Past the fields the block holds zeros up to the check code. -/
theorem SetRecord.block_zero {i : Nat} (hi : r.fieldBytes.length ≤ i) (hn : i < 4094) : byteAt r.block i = 0 := by
  have hbody : r.block[i]? = r.body[i]? := by
    rw [← SetRecord.block_take_body h, List.getElem?_take_of_lt hn]
  unfold byteAt
  rw [List.getD_eq_getElem?_getD, hbody, SetRecord.body, List.getElem?_append_right hi, List.getElem?_replicate]
  rw [if_pos (by omega)]
  rfl

theorem SetRecord.block_crc : fieldAt r.block 4094 2 = (crc (r.block.take 4094)).toNat := by
  have happ := fieldAt_append r.body (leBytes 2 (crc r.body).toNat) []
  rw [SetRecord.body_length h, leBytes_length, List.append_nil, ofLe_leBytes] at happ
  rw [SetRecord.block_take_body h, SetRecord.block_eq, happ]
  exact Nat.mod_eq_of_lt (crc r.body).isLt

end

theorem SetRecord.block_take_fields (r : SetRecord) : r.block.take r.fieldBytes.length = r.fieldBytes := by
  rw [SetRecord.block_eq, SetRecord.body, List.append_assoc]
  exact List.take_left

theorem SetRecord.block_take_mark (r : SetRecord) : r.block.take 4 = recordMark := by
  obtain ⟨rest, hrest⟩ := r.fieldBytes_mark
  rw [SetRecord.block_eq, SetRecord.body, hrest, List.append_assoc, List.append_assoc]
  exact List.take_left' rfl

/-! ## The finish of a commit (R61, R62) -/

theorem WriteEnd.settled_eq_false (x : WriteEnd) : x.settled = false ↔ x = .pending ∨ x = .faultAsked := by
  cases x <;> decide

theorem Commit.ended_iff (k : Commit) : k.ended = true ↔
    ∀ l : LaneId, k.targets.has l = true → k.ends[l.val] ≠ .pending ∧ k.ends[l.val] ≠ .faultAsked := by
  simp only [Commit.ended, List.all_eq_true, LaneMask.mem_lanes, ← not_or, ← WriteEnd.settled_eq_false, Bool.not_eq_false]

theorem commitTest_waits {p : Part} {k : Commit} (hk : p.committer.inFlight = some k) (h : k.ended = false) :
    commitTest p = p := by
  simp [commitTest, hk, h]

/-- A commit that has ended is released, and one requested meanwhile starts at once. -/
theorem commitTest_ends {p : Part} {k : Commit} (hk : p.committer.inFlight = some k) (h : k.ended = true) :
    commitTest p = if p.committer.requested then startCommit (releaseCommit p) else releaseCommit p := by
  unfold commitTest
  rw [hk]
  exact if_pos h

theorem releaseCommit_hold (p : Part) (v : VolId) :
    ((releaseCommit p).vol v).hold = if (p.vol v).hold = .bound then .none else (p.vol v).hold := by
  rw [← WaitMark.release_eq]
  exact congrArg Volume.hold (Part.vol_mapVolumes p Volume.releaseHold v)

theorem releaseCommit_entry (p : Part) (e : EntryId) : (releaseCommit p).entry e = (p.entry e).map Entry.releaseMark :=
  Part.entry_mapTable p Entry.releaseMark e

/-- Settles O59: the requests by the engine's state, then the start, the records and their blocks, and the finish. -/
theorem commitRequestsCoalesce : Obligations.CommitRequestsCoalesce := by
  unfold Obligations.CommitRequestsCoalesce
  refine ⟨fun p => ⟨fun hs => ?_, fun hs ha => ?_, fun hs => ?_, fun hs => ⟨fun hn => ?_, fun hn => ?_⟩⟩, fun p hp => ?_,
    fun p l hl => ?_, fun r hr => ?_, fun p k hk => ⟨?_, fun hends => ?_⟩⟩
  · simp only [requestCommit, hs]
  · exact requestCommit_attaching hs ha
  · simp only [requestCommit, hs]
  · rw [requestCommit_taken hs, hn]
    rfl
  · rw [requestCommit_taken hs, if_pos (Option.isSome_iff_ne_none.2 hn)]
  · intro q
    have hq : q.committer = p.commitStarted := startCommit_committer hp
    refine ⟨by rw [hq]; rfl, by rw [hq]; rfl, ?_, startCommit_hold hp, fun e x he => ⟨x.bindMark, ?_, WaitMark.bind_eq _⟩⟩
    · rw [hq]
      refine ⟨_, rfl, rfl, rfl, p.has_serviceableMask, fun l => ?_⟩
      simp
    · rw [startCommit_entry hp, he]
      rfl
  · intro r
    have hq := startCommit_committer (Part.serviceableMask_ne_zero hl)
    refine ⟨?_, rfl, rfl, rfl, fun k => ?_, fun x => Part.mem_volumeEntries, Part.volumeEntries_ascending p, rfl, rfl, rfl, rfl,
      rfl, rfl, rfl⟩
    · simp only [r, hq, Part.commitStarted, Vector.getElem_ofFn, Part.has_serviceableMask, hl, if_true]
    · simp [r, Part.buildRecord, Lane.entryOf, Part.lane]
  · exact ⟨SetRecord.block_length hr, r.block_take_fields, r.block_take_mark, fun i hi hn => SetRecord.block_zero hr hi hn,
      SetRecord.block_crc hr⟩
  · rintro ⟨l, ht, hw⟩
    refine commitTest_waits hk (Bool.eq_false_iff.2 fun he => ?_)
    obtain ⟨h1, h2⟩ := (Commit.ended_iff k).1 he l ht
    exact hw.elim h1 h2
  · have htest := commitTest_ends hk ((Commit.ended_iff k).2 hends)
    refine ⟨fun hr => ?_, fun hr => ?_, rfl, releaseCommit_hold p, fun e x he => ⟨x.releaseMark, ?_, WaitMark.release_eq _⟩⟩
    · rw [htest, if_pos hr]
    · rw [htest, hr]
      rfl
    · rw [releaseCommit_entry, he]
      rfl

end Sys2Proof.Machine
end

section
/-!
LANE ADMIT (R50 to R52, R60, R65): its checks in order, the lane brought into service, and the rebuild begun with its first chunk
(R154, R155).
-/
namespace Sys2Proof.Machine

/-! ## Derivations where no volume names the lane -/

theorem Part.ready_of_volumesOf {p : Part} {l : LaneId} (h : p.volumesOf l = []) {v : VolId}
    (hm : (p.vol v).members.has l = true) : p.ready v = false := by
  have hv : v ∉ p.volumesOf l := by simp [h]
  simp only [Part.volumesOf, List.mem_filter, mem_allVols, true_and, hm, Bool.and_true, Bool.not_eq_true] at hv
  simp [Part.ready, hv]

/-- No volume in use names the lane, so a change of its state derives nothing. -/
theorem deriveVolumes_unnamed {p : Part} {l : LaneId} (h : p.volumesOf l = []) (tag : Word) : deriveVolumes l tag p = p := by
  have hv (v : VolId) : (if (p.vol v).members.has l then deriveVolume (some l) tag p v else p) = p := by
    by_cases hm : (p.vol v).members.has l = true
    · exact (if_pos hm).trans (if_pos (by simp [Part.ready_of_volumesOf h hm]))
    · exact if_neg hm
  have hfold (vs : List VolId) :
      vs.foldl (fun q v => if (q.vol v).members.has l then deriveVolume (some l) tag q v else q) p = p := by
    induction vs with
    | nil => rfl
    | cons v vs ih => rw [List.foldl_cons, hv, ih]
  unfold deriveVolumes
  rw [hfold, ite_self]

/-- A change of state of a lane that no volume names: the state, the event, and a test of patrol's. -/
theorem changeRuntime_unnamed {p : Part} {l : LaneId} (h : p.volumesOf l = []) (ha : p.engine.state ≠ .attaching)
    (new : RuntimeState) (c : LaneCause) (tag : Word) :
    changeRuntime l new c tag p =
      (passEvent (laneStateEvent l (p.lane l).runtime new c tag) (p.setLane l { p.lane l with runtime := new })).push
        [.patrolTry] := by
  set q := p.setLane l { p.lane l with runtime := new }
  obtain ⟨j, hj⟩ := passEvent_eq (laneStateEvent l (p.lane l).runtime new c tag) q
  have hchange : changeRuntime l new c tag p = (deriveVolumes l tag (if p.engine.state = .attaching then q
      else passEvent (laneStateEvent l (p.lane l).runtime new c tag) q)).push [.patrolTry] := rfl
  rw [hchange, if_neg ha, hj, deriveVolumes_unnamed (p := { q with journal := j }) h]

/-! ## The checks (R50, R51) -/

theorem laneFormat_admit {r : Request} (h : r.selector = 1) :
    laneFormat r = if r.parameter.toNat ≤ 15 ∧ r.flags &&& 2 = 0 then laneOf r.target else none := by
  have hformat : laneFormat r =
      if (decide (r.parameter.toNat ≤ 15) && !decide (r.flags &&& flagForce ≠ 0)) = true then laneOf r.target else none := by
    simp only [laneFormat, h]
    rfl
  refine hformat.trans (if_congr ?_ rfl rfl)
  simp only [Bool.and_eq_true, decide_eq_true_eq, Bool.not_eq_true', decide_eq_false_iff_not, not_not]
  exact Iff.rfl

section
variable {e : EntryId} {r : Request} {l : LaneId} {p : Part}

theorem admitReceived_malformed (hf : laneFormat r = none) : admitReceived e r p = refuse e .refusedFormat p := by
  simp only [admitReceived, hf]

theorem admitReceived_refused (hf : laneFormat r = some l) {o : ReqOutcome} (h : admitRefusal l p = some o) :
    admitReceived e r p = refuse e o p := by
  simp only [admitReceived, hf, h]

/-- An ADMIT that passes its checks, before the lane's change of state. -/
def admitLane (l : LaneId) (r : Request) (recorded : RecordedState) (p : Part) : Part :=
  (admitCommitter l p).modLane l (·.admitted r.parameter recorded)

theorem admitCommitter_volumesOf (m : LaneId) : (admitCommitter l p).volumesOf m = p.volumesOf m := by
  unfold admitCommitter
  dsimp only
  split <;> rfl

/-- ADMIT of a lane that no volume in use names: it is ONLINE at once. -/
theorem admitReceived_online (hf : laneFormat r = some l) (h : admitRefusal l p = none) (hv : p.volumesOf l = []) :
    admitReceived e r p = awaitCommit e (BitVec.ofNat 4 (2 ^ l.val))
      (changeRuntime l .online .admitLane r.tag (admitLane l r .online p)) := by
  rw [← LaneMask.ofList_single]
  simp only [admitReceived, hf, h, admitCommitter_volumesOf, hv]
  rfl

/-- ADMIT of a lane that a volume in use names: it is REBUILDING, and its rebuild starts. -/
theorem admitReceived_rebuilds (hf : laneFormat r = some l) (h : admitRefusal l p = none) (hv : p.volumesOf l ≠ []) :
    admitReceived e r p = awaitCommit e (BitVec.ofNat 4 (2 ^ l.val))
      (rebuildStart l (changeRuntime l .rebuilding .admitLane r.tag (admitLane l r .rebuilding p))) := by
  rw [← LaneMask.ofList_single]
  simp only [admitReceived, hf, h, admitCommitter_volumesOf]
  exact if_neg (by simpa using hv)

/-- A lane that passes the checks stands in a state that ADMIT acts on. -/
theorem idle_of_admitRefusal (h : admitRefusal l p = none) : (p.lane l).runtime.idle = true := by
  by_contra hi
  exact absurd ((if_pos (by simp [hi])).symm.trans h) (Option.some_ne_none _)

end

/-! ## The lane in service (R52, R60, R65) -/

/-- The part with lane `l` brought into service: its own state set afresh, its event passed, its fresh mark set, and the serial of
an empty set chosen. -/
def Part.admitting (p : Part) (l : LaneId) (r : Request) (new : RuntimeState) (recorded : RecordedState) : Part :=
  { p.setLane l { (p.lane l).admitted r.parameter recorded with runtime := new } with
    journal := p.journal.take (laneStateEvent l (p.lane l).runtime new .admitLane r.tag)
    committer := { p.committer with
      fresh := p.committer.fresh.set l.val true
      serial := if p.committer.serial = 0 then chooseSerial p else p.committer.serial }
    free := if p.committer.serial = 0 then p.free + 1 else p.free }

theorem Part.takesEvents.not_attaching {p : Part} (h : p.takesEvents) : p.engine.state ≠ .attaching := by
  rcases h with h | h | h <;> rw [h] <;> decide

section
variable {p : Part} {l : LaneId} {r : Request} {recorded : RecordedState}

theorem admitCommitter_eq (l : LaneId) (p : Part) : admitCommitter l p = { p with
    committer := { p.committer with
      fresh := p.committer.fresh.set l.val true
      serial := if p.committer.serial = 0 then chooseSerial p else p.committer.serial }
    free := if p.committer.serial = 0 then p.free + 1 else p.free } := by
  unfold admitCommitter
  split_ifs <;> rfl

theorem admitLane_lane : (admitLane l r recorded p).lane l = (p.lane l).admitted r.parameter recorded := by
  unfold admitLane
  rw [admitCommitter_eq, Part.lane_modLane, if_pos rfl]
  rfl

theorem admitLane_vol (v : VolId) : (admitLane l r recorded p).vol v = p.vol v := by
  unfold admitLane
  rw [admitCommitter_eq]
  rfl

theorem admitLane_engine : (admitLane l r recorded p).engine = p.engine := by
  unfold admitLane
  rw [admitCommitter_eq]
  rfl

theorem admitLane_derived (h : p.derived) : (admitLane l r recorded p).derived := by
  unfold admitLane
  rw [admitCommitter_eq]
  exact Part.derived_setLane (Part.derived_congr h (fun _ => rfl) fun _ => rfl) Iff.rfl

theorem admitLane_volumesOf : (admitLane l r recorded p).volumesOf l = p.volumesOf l := by
  unfold Part.volumesOf
  simp only [admitLane_vol]

/-- The state and the event of the lane admitted, over what the committer and the lane have been given. -/
theorem admitting_eq (h : p.takesEvents) (new : RuntimeState) :
    passEvent (laneStateEvent l ((admitLane l r recorded p).lane l).runtime new .admitLane r.tag)
      ((admitLane l r recorded p).setLane l { (admitLane l r recorded p).lane l with runtime := new }) =
    p.admitting l r new recorded := by
  have hte : ((admitLane l r recorded p).setLane l { (admitLane l r recorded p).lane l with runtime := new }).takesEvents := by
    unfold Part.takesEvents
    rw [Part.setLane_engine, admitLane_engine]
    exact h
  rw [passEvent_journal hte, admitLane_lane]
  unfold admitLane
  rw [admitCommitter_eq, Part.modLane_eq, Part.setLane_setLane]
  rfl

theorem admitLane_online (h : p.takesEvents) (hv : p.volumesOf l = []) :
    changeRuntime l .online .admitLane r.tag (admitLane l r recorded p) =
      (p.admitting l r .online recorded).push [.patrolTry] := by
  rw [changeRuntime_unnamed (by rw [admitLane_volumesOf, hv]) (by rw [admitLane_engine]; exact h.not_attaching), admitting_eq h]

theorem admitLane_rebuilding (h : p.takesEvents) (hd : p.derived) (ho : (p.lane l).runtime ≠ .online) :
    changeRuntime l .rebuilding .admitLane r.tag (admitLane l r recorded p) =
      (p.admitting l r .rebuilding recorded).push [.patrolTry] := by
  rw [changeRuntime_idle .admitLane r.tag (admitLane_derived hd) (by decide) (by rw [admitLane_lane]; exact ho)
    (by rw [admitLane_engine]; exact h.not_attaching), admitting_eq h]

end

/-! ## The rebuild begins (R154, R155) -/

/-- The rebuild unit when a rebuild has started, its cursor at the first volume. -/
def Rebuild.started (l : LaneId) (v : VolId) (rest : List VolId) (chunk : Option RebuildChunk) : Rebuild :=
  ⟨.running, some l, v :: rest, v, 0, false, 0, 0, 0, chunk, false, false⟩

theorem rebuildStart_eq {p : Part} {l : LaneId} {v : VolId} {rest : List VolId} (hv : p.volumesOf l = v :: rest)
    (hp : p.rebuild.paused = false) (hs : p.engine.state ≠ .halting) :
    rebuildStart l p = ({ p with rebuild := .started l v rest none } : Part).push [.rebuildBegin] := by
  have hpaused : (p.rebuild.paused || decide (p.engine.state = .halting)) = false := by simp [hp, hs]
  have hstart : rebuildStart l p = ({ p with rebuild := ⟨.running, some l, p.volumesOf l, (p.volumesOf l).headD 0, 0, false,
      0, 0, 0, none, false, p.rebuild.paused || decide (p.engine.state = .halting)⟩ } : Part).push [.rebuildBegin] := rfl
  rw [hstart, hv, hpaused]
  rfl

section
variable {p : Part} {l : LaneId} (ht : p.rebuild.target = some l) (hs : p.rebuild.state = .running)
  (ha : p.rebuild.aborting = false) (hc : p.rebuild.chunk = none)
include ht hs ha hc

/-- The test of R155 with a rebuild running and no chunk in flight. -/
theorem rebuildBegin_eq : rebuildBegin p =
    if p.rebuild.passed then rebuildComplete l p
    else if p.rebuild.paused then p
    else if p.isLost p.rebuild.cursorVol then (rebuildSkip p.rebuild.skipCause p).push [.rebuildBegin]
    else askLock ⟨.rebuild, p.rebuild.cursorVol, p.rebuild.cursorBlock,
        min 16 ((p.vol p.rebuild.cursorVol).length - p.rebuild.cursorBlock), true⟩
      { p with rebuild := { p.rebuild with chunk := some ⟨p.rebuild.cursorVol, p.rebuild.cursorBlock,
        min 16 ((p.vol p.rebuild.cursorVol).length - p.rebuild.cursorBlock), .lock, [], [], [], 0⟩ } } := by
  unfold rebuildBegin
  dsimp only
  split
  · next h => exact absurd (ht.symm.trans h) (Option.some_ne_none l)
  · next m h =>
    obtain rfl := Option.some.inj (h.symm.trans ht)
    refine if_neg ?_
    simp [hs, ha, hc]

end

/-- The first chunk's lock has to wait: the chunk stands in LOCK behind the other waiters. -/
theorem rebuildBegin_waits {p : Part} {l : LaneId} {v : VolId} {rest : List VolId} (hr : p.rebuild = .started l v rest none)
    (hl : (p.vol v).state ≠ .lost) {k : Lock} (hk : k = ⟨.rebuild, v, 0, min 16 (p.vol v).length, true⟩)
    (hw : (k.clearOf p.locks.granted && k.clearOf p.locks.waiting) = false) :
    rebuildBegin p = { p with
      locks := ⟨p.locks.granted, p.locks.waiting ++ [k]⟩
      rebuild := .started l v rest (some ⟨v, 0, min 16 (p.vol v).length, .lock, [], [], [], 0⟩) } := by
  rw [rebuildBegin_eq (l := l) (by rw [hr]; rfl) (by rw [hr]; rfl) (by rw [hr]; rfl) (by rw [hr]; rfl), hr]
  refine (if_neg Bool.false_ne_true).trans ((if_neg Bool.false_ne_true).trans ((if_neg ?_).trans ?_))
  · exact fun h => hl (of_decide_eq_true h)
  · subst hk
    exact askLock_waits hw

/-! ## ADMIT in one step -/

/-- The part with the ADMIT of entry `e` taken and lane `l` in service, the request waiting for a commit. -/
def Part.admitted (p : Part) (e : EntryId) (x : Entry) (l : LaneId) (new : RuntimeState) (recorded : RecordedState) : Part :=
  let q := (p.taken e (x.await .ok (BitVec.ofNat 4 (2 ^ l.val)) 0 0)).admitting l x.req new recorded
  { q with committer := { q.committer with requested := true } }

section
variable {p : Part} {e : EntryId} {x : Entry} {l : LaneId} {new : RuntimeState} {recorded : RecordedState}

@[simp] theorem Part.admitted_entry :
    (p.admitted e x l new recorded).entry e = some (x.await .ok (BitVec.ofNat 4 (2 ^ l.val)) 0 0) := Part.taken_entry ..

/-- The request waits with the lane in service, whatever was done to the rebuild unit and handed on. -/
theorem awaitCommit_admitting (hc : p.committing) (st : EntryState) (rb : Rebuild) (ts : List Task) :
    awaitCommit e (BitVec.ofNat 4 (2 ^ l.val))
      (({ (p.taken e { x with state := st }).admitting l x.req new recorded with rebuild := rb } : Part).push ts) =
    ({ p.admitted e x l new recorded with rebuild := rb } : Part).push ts := by
  refine (awaitCommit_push_committing
    (p := { (p.taken e { x with state := st }).admitting l x.req new recorded with rebuild := rb })
    (x := { x with state := st }) (Part.taken_entry ..) hc _ ts).trans ?_
  simp only [Part.admitted, Part.admitting, Part.taken, Part.setLane, Vector.set_set]
  rfl

/-- The effect of an ADMIT of a lane that no volume names. -/
theorem admit_online (hc : p.committing) (st : EntryState) (hf : laneFormat x.req = some l) (h : admitRefusal l p = none)
    (hv : p.volumesOf l = []) :
    admitReceived e x.req (p.taken e { x with state := st }) = (p.admitted e x l .online .online).push [.patrolTry] := by
  rw [admitReceived_online (p := p.taken e { x with state := st }) hf h hv,
    admitLane_online (p := p.taken e { x with state := st }) hc.takesEvents hv]
  exact awaitCommit_admitting hc st p.rebuild _

/-- The effect of an ADMIT of a lane that a volume names, while RUNNING. -/
theorem admit_rebuilds (hc : p.committing) (st : EntryState) (hf : laneFormat x.req = some l) (h : admitRefusal l p = none)
    {v : VolId} {rest : List VolId} (hv : p.volumesOf l = v :: rest) (hd : p.derived) (hs : p.engine.state = .running)
    (hp : p.rebuild.paused = false) :
    admitReceived e x.req (p.taken e { x with state := st }) =
      ({ p.admitted e x l .rebuilding .rebuilding with rebuild := .started l v rest none } : Part).push
        [.patrolTry, .rebuildBegin] := by
  rw [admitReceived_rebuilds (p := p.taken e { x with state := st }) hf h
      (fun h0 => List.cons_ne_nil v rest (hv.symm.trans h0)),
    admitLane_rebuilding (p := p.taken e { x with state := st }) hc.takesEvents hd
      (RuntimeState.ne_online_of_idle (idle_of_admitRefusal h)),
    rebuildStart_eq (p := ((p.taken e { x with state := st }).admitting l x.req .rebuilding .rebuilding).push [.patrolTry]) hv hp
      (fun h0 => absurd (hs.symm.trans h0) (by decide))]
  exact (congrArg _ (Part.push_append _ _ _)).trans (awaitCommit_admitting hc st _ _)

end

end Sys2Proof.Machine
end

section
/-!
The rebuild from chunk to chunk (R155 to R162): the ends of its operations, the next source, the write behind the departure hold,
the end of a chunk, a volume skipped, and the completion.
-/
namespace Sys2Proof.Machine

/-! ## The chunk in flight -/

/-- The part with the rebuild unit's chunk as given. -/
def Part.withChunk (p : Part) (k : RebuildChunk) : Part := { p with rebuild := { p.rebuild with chunk := some k } }

theorem Part.modRebuildChunk_eq {p : Part} {k : RebuildChunk} (hk : p.rebuild.chunk = some k) (f : RebuildChunk → RebuildChunk) :
    p.modRebuildChunk f = p.withChunk (f k) := by
  simp only [Part.modRebuildChunk, Part.modRebuild, hk, Option.map_some]
  rfl

/-- The chunk once one of its operations, its first block `at_` blocks into the chunk, has ended. -/
def RebuildChunk.opEnded (k : RebuildChunk) (l : LaneId) (at_ : Nat) (r : OpEnd) : RebuildChunk :=
  { k with
    outstanding := k.outstanding - 1
    blocks := match r with
      | .completed ss _ => if k.phase = .source then mergeTries l at_ ss k.blocks else k.blocks
      | .laneLost => k.blocks }

section
variable {p : Part} {k : RebuildChunk} {op : LaneOp} (ho : op.producer = .rebuild) (hk : p.rebuild.chunk = some k)
  (ha : p.rebuild.aborting = false) (l : LaneId) (r : OpEnd)
include ho hk ha

/-- An operation of the chunk ends with no abort: it is counted off, and the last one leads on from the chunk's phase. -/
theorem operationEnded_rebuild {j : RebuildChunk} (hj : k.opEnded l (op.start - ((p.vol k.volume).first + k.first)) r = j) :
    operationEnded l op r p =
      if j.outstanding ≠ 0 then p.withChunk j
      else if k.phase = .source then rebuildRound j (p.withChunk j)
      else if k.phase = .write then rebuildChunkEnd j (p.withChunk j)
      else p.withChunk j := by
  have ha' (i : RebuildChunk) : (p.withChunk i).rebuild.aborting = false := ha
  subst hj
  simp only [operationEnded, ho, rebuildOpEnded, hk, Part.modRebuildChunk_eq hk, ha', RebuildChunk.opEnded, Part.rebuildStartBlock]
  cases r with
  | laneLost => cases k.phase <;> rfl
  | completed ss b => cases k.phase <;> rfl

end

/-! ## Rounds (R157, R158) -/

theorem rebuildIssue_eq {p : Part} {j : RebuildChunk} (hk : p.rebuild.chunk = some j) (l : LaneId) (kind : OpKind)
    (want : BlockTry → Bool) (k : RebuildChunk) :
    let rounds := runs want 0 k.blocks
    let bufs := (p.pool.bufsOf .rebuild).map BufRef.staging
    rebuildIssue l kind want k p = rounds.foldl
      (fun q y => enqueue l ⟨.background, kind, (p.vol k.volume).first + k.first + y.1, y.2, (bufs.drop y.1).take y.2,
        .rebuild, false⟩ q)
      (p.withChunk { k with outstanding := rounds.length }) := by
  intro rounds bufs
  simp only [rebuildIssue, Part.modRebuildChunk_eq hk]
  rfl

/-- The next source of a chunk: the first lane of its order that is ONLINE and untried. -/
def Part.nextSource (p : Part) (k : RebuildChunk) : Option LaneId := k.order.find? fun m => p.online m && !k.tried.contains m

theorem rebuildRound_issues {k : RebuildChunk} {p : Part} {m : LaneId} (h : ∃ b ∈ k.blocks, b.source = none)
    (hm : p.nextSource k = some m) :
    rebuildRound k p = rebuildIssue m .read BlockTry.unresolved { k with tried := k.tried ++ [m] } p := by
  unfold Part.nextSource at hm
  unfold rebuildRound
  rw [if_neg (by simp [any_unresolved.2 h]), hm]

theorem rebuildRound_settles {k : RebuildChunk} {p : Part}
    (h : (∀ b ∈ k.blocks, b.source ≠ none) ∨ p.nextSource k = none) :
    rebuildRound k p = rebuildSettle k p := by
  unfold Part.nextSource at h
  unfold rebuildRound
  split_ifs with hu
  · rfl
  · rcases h with h | h
    · exact absurd (any_unresolved_eq_false.2 h) (by simpa using hu)
    · rw [h]

theorem rebuildSettle_lost {k : RebuildChunk} {p : Part} (h : p.isLost k.volume = true) :
    rebuildSettle k p = rebuildGoOn (rebuildSkip rebuildSourceLost (rebuildDrop p)) := if_pos h

theorem rebuildSettle_ends {k : RebuildChunk} {p : Part} (h : p.isLost k.volume = false)
    (hb : ∀ b ∈ k.blocks, b.source = none) :
    rebuildSettle k p = rebuildChunkEnd k p := by
  unfold rebuildSettle
  rw [if_neg (by simp [h]), if_pos (by simpa [BlockTry.unresolved] using hb)]

theorem rebuildSettle_holds {k j : RebuildChunk} {p : Part} (hj : p.rebuild.chunk = some j) (h : p.isLost k.volume = false)
    (hb : ∃ b ∈ k.blocks, b.source ≠ none) :
    rebuildSettle k p = rebuildHold (p.withChunk { k with phase := .hold }) := by
  unfold rebuildSettle
  rw [if_neg (by simp [h]), if_neg (by simpa [BlockTry.unresolved, Option.ne_none_iff_exists'] using hb),
    Part.modRebuildChunk_eq hj]

/-! ## The write behind the departure hold (R159) -/

section
variable {p : Part} {k : RebuildChunk} {l : LaneId} (hk : p.rebuild.chunk = some k) (ht : p.rebuild.target = some l)
include hk ht

theorem rebuildHold_waits (h : (p.vol k.volume).hold ≠ .none) : rebuildHold p = p := by
  unfold rebuildHold
  rw [hk, ht]
  exact if_pos (by simp [h])

theorem rebuildHold_writes (h : (p.vol k.volume).hold = .none) (hs : p.serviceable l = true) :
    rebuildHold p = rebuildIssue l .write (fun b => b.source.isSome) { k with phase := .write } p := by
  have hwant : (fun b : BlockTry => !b.unresolved) = fun b => b.source.isSome := by
    funext b
    simp [BlockTry.unresolved]
  have hacc : p.accepts l .write = true := hs
  unfold rebuildHold
  rw [hk, ht, ← hwant]
  exact if_neg (by simp [h, hacc])

end

/-! ## The cursor (R155, log 27) -/

theorem Rebuild.nextVolume_some {u : Rebuild} {w : VolId} (h : u.volumes.find? (fun w => u.cursorVol < w) = some w) :
    u.nextVolume = { u with cursorVol := w, cursorBlock := 0 } := by
  unfold Rebuild.nextVolume
  rw [h]

theorem Rebuild.nextVolume_none {u : Rebuild} (h : u.volumes.find? (fun w => u.cursorVol < w) = none) :
    u.nextVolume = { u with passed := true } := by
  unfold Rebuild.nextVolume
  rw [h]

/-- A skip passes its event, joins the volume's number to the skip list and moves the cursor. -/
theorem rebuildSkip_eq (cause : Byte) (p : Part) :
    let u := p.rebuild
    rebuildSkip cause p =
      { passEvent (rebuildEvent u.target (some u.cursorVol) cause u.cursorBlock
          (BitVec.ofNat 32 ((p.vol u.cursorVol).length - u.cursorBlock)) 0 0) p with
        rebuild := { u with skip := u.skip ||| BitVec.ofNat 8 (2 ^ u.cursorVol.val) }.nextVolume } := by
  intro u
  unfold rebuildSkip Part.modRebuild
  dsimp only
  rw [passEvent_rebuild]

/-! ## The end of a chunk (R160) -/

theorem passEvents_eq (es : List Event) (p : Part) : ∃ j, passEvents es p = { p with journal := j } := by
  unfold passEvents
  induction es generalizing p with
  | nil => exact ⟨p.journal, rfl⟩
  | cons e es ih =>
    obtain ⟨i, hi⟩ := passEvent_eq e p
    obtain ⟨j, hj⟩ := ih (passEvent e p)
    refine ⟨j, hj.trans ?_⟩
    rw [hi]

theorem passEvent_journal_congr {p q : Part} (he : q.engine = p.engine) (hj : q.journal = p.journal) (e : Event) :
    (passEvent e q).journal = (passEvent e p).journal := by
  unfold passEvent
  rw [he]
  split <;> simp [hj]

/-- The journal after events depends on the engine's state and the journal before them alone. -/
theorem passEvents_journal {p q : Part} (he : q.engine = p.engine) (hj : q.journal = p.journal) (es : List Event) :
    (passEvents es q).journal = (passEvents es p).journal := by
  unfold passEvents
  induction es generalizing p q with
  | nil => exact hj
  | cons e es ih =>
    exact ih ((passEvent_engine ..).trans (he.trans (passEvent_engine ..).symm)) (passEvent_journal_congr he hj e)

theorem dropDiscovery_eq (d : Discovery) (p : Part) : ∃ r pa j ts, dropDiscovery d p =
    { p with repair := r, patrol := pa, journal := j, agenda := ts } := by
  unfold dropDiscovery
  dsimp only
  split
  · exact ⟨_, _, _, _, rfl⟩
  · obtain ⟨j, hj⟩ := passEvent_eq (listFullEvent d (satInc p.repair.dropped))
      { p with repair := { p.repair with dropped := satInc p.repair.dropped, episode := true } }
    exact ⟨_, _, _, _, hj⟩

theorem admitDiscovery_eq (d : Discovery) (p : Part) : ∃ r pa j ts, admitDiscovery d p =
    { p with repair := r, patrol := pa, journal := j, agenda := ts } := by
  unfold admitDiscovery
  split
  · exact ⟨_, _, _, _, rfl⟩
  split
  · exact ⟨_, _, _, _, rfl⟩
  split
  · exact ⟨_, _, _, _, rfl⟩
  split
  · unfold holdDiscovery
    dsimp only
    split <;> exact ⟨_, _, _, _, rfl⟩
  · exact dropDiscovery_eq d p

/-- Discoveries change the list, patrol's count, the journal and the handed work alone. -/
theorem handDiscoveries_eq (ds : List Discovery) (p : Part) : ∃ r pa j ts, handDiscoveries ds p =
    { p with repair := r, patrol := pa, journal := j, agenda := ts } := by
  have hone (d : Discovery) (p : Part) : ∃ r pa j ts, handDiscovery p d =
      { p with repair := r, patrol := pa, journal := j, agenda := ts } := by
    unfold handDiscovery
    split
    · exact ⟨_, _, _, _, rfl⟩
    · exact admitDiscovery_eq d p
  unfold handDiscoveries
  induction ds generalizing p with
  | nil => exact ⟨_, _, _, _, rfl⟩
  | cons d ds ih =>
    obtain ⟨r, pa, j, ts, h⟩ := hone d p
    obtain ⟨r', pa', j', ts', h'⟩ := ih (handDiscovery p d)
    refine ⟨r', pa', j', ts', h'.trans ?_⟩
    rw [h]

/-- The part whose chunk has let go and been counted, before its events are passed. -/
def Part.chunkDropped (p : Part) (k : RebuildChunk) : Part :=
  { releaseAll .rebuild p with rebuild := { p.rebuild with
    chunk := none
    copied := satAdd p.rebuild.copied (k.count - (unresolvedAt k.first k.blocks).length)
    unrecoverable := satAdd p.rebuild.unrecoverable (unresolvedAt k.first k.blocks).length } }

/-- The part once the UNRECOVERABLE events of a chunk's end are passed. -/
def Part.chunkTold (p : Part) (k : RebuildChunk) : Part :=
  passEvents ((unresolvedAt k.first k.blocks).map fun i => unrecoverableEvent p.rebuild.target k.volume i .rebuild 0)
    (p.chunkDropped k)

/-- The cursor past `n` blocks of a volume of `length` blocks, in the next volume where this one's end is reached. -/
def Rebuild.advance (u : Rebuild) (length n : Nat) : Rebuild :=
  if length ≤ u.cursorBlock + n then { u with cursorBlock := u.cursorBlock + n }.nextVolume
  else { u with cursorBlock := u.cursorBlock + n }

/-- The unit at the end of a chunk: the counts, the cursor, and the paused flag of a HALT. -/
def Part.chunkEnded (p : Part) (k : RebuildChunk) : Rebuild :=
  let u := (p.chunkDropped k).rebuild.advance (p.vol k.volume).length k.count
  { u with paused := u.paused || decide (p.engine.state = .halting) }

theorem Rebuild.nextVolume_paused (u : Rebuild) (b : Bool) :
    { u.nextVolume with paused := u.nextVolume.paused || b } = ({ u with paused := u.paused || b } : Rebuild).nextVolume := by
  cases h : u.volumes.find? fun w => u.cursorVol < w with
  | some w => rw [Rebuild.nextVolume_some h, Rebuild.nextVolume_some (u := { u with paused := u.paused || b }) h]
  | none => rw [Rebuild.nextVolume_none h, Rebuild.nextVolume_none (u := { u with paused := u.paused || b }) h]

theorem rebuildGoOn_modRebuild (f : Rebuild → Rebuild) (p : Part) : rebuildGoOn (p.modRebuild f) =
    ({ p with rebuild := { f p.rebuild with
      paused := (f p.rebuild).paused || decide (p.engine.state = .halting) } } : Part).push [.rebuildBegin] := rfl

theorem rebuildChunkEnd_handed (k : RebuildChunk) (p : Part) :
    let q := handDiscoveries (tryDiscoveries k.volume .rebuild 0 k.first k.blocks) (p.chunkTold k)
    rebuildChunkEnd k p = rebuildGoOn (q.modRebuild fun u => u.advance (q.vol k.volume).length k.count) := rfl

/-- A chunk's end lets go of the lock and the buffers and sets the rebuild unit as said; `q` is the part with its events passed and
its discoveries handed. -/
theorem rebuildChunkEnd_eq {k : RebuildChunk} {p q : Part}
    (hq : handDiscoveries (tryDiscoveries k.volume .rebuild 0 k.first k.blocks) (p.chunkTold k) = q) :
    rebuildChunkEnd k p = ({ q with rebuild := p.chunkEnded k } : Part).push [.rebuildBegin]
    ∧ q.locks = (releaseAll .rebuild p).locks ∧ q.pool = (releaseAll .rebuild p).pool := by
  obtain ⟨i, htold⟩ := passEvents_eq ((unresolvedAt k.first k.blocks).map fun i =>
    unrecoverableEvent p.rebuild.target k.volume i .rebuild 0) (p.chunkDropped k)
  obtain ⟨r, pa, j, ts, hhand⟩ := handDiscoveries_eq (tryDiscoveries k.volume .rebuild 0 k.first k.blocks) (p.chunkTold k)
  have hqe := hq.symm.trans (hhand.trans (by rw [Part.chunkTold, htold]))
  have hengine : q.engine = p.engine := by rw [hqe]; rfl
  have hvol : q.vol k.volume = p.vol k.volume := by rw [hqe]; rfl
  have hrebuild : q.rebuild = (p.chunkDropped k).rebuild := by rw [hqe]
  refine ⟨?_, by rw [hqe]; rfl, by rw [hqe]; rfl⟩
  rw [rebuildChunkEnd_handed, hq, rebuildGoOn_modRebuild]
  refine congrArg (fun u : Rebuild => ({ q with rebuild := u } : Part).push [.rebuildBegin]) ?_
  rw [hengine, hvol, hrebuild]
  rfl

section
variable {p : Part} {k : RebuildChunk}

/-- The unit's counts at the end of a chunk, its cursor past the chunk's blocks. -/
def Part.chunkCounted (p : Part) (k : RebuildChunk) : Rebuild :=
  { p.rebuild with
    chunk := none
    cursorBlock := p.rebuild.cursorBlock + k.count
    copied := satAdd p.rebuild.copied (k.count - (unresolvedAt k.first k.blocks).length)
    unrecoverable := satAdd p.rebuild.unrecoverable (unresolvedAt k.first k.blocks).length
    paused := p.rebuild.paused || decide (p.engine.state = .halting) }

theorem Part.chunkEnded_within (h : p.rebuild.cursorBlock + k.count < (p.vol k.volume).length) :
    p.chunkEnded k = p.chunkCounted k := by
  have hadv : (p.chunkDropped k).rebuild.advance (p.vol k.volume).length k.count =
      { (p.chunkDropped k).rebuild with cursorBlock := p.rebuild.cursorBlock + k.count } := if_neg (Nat.not_le.2 h)
  unfold Part.chunkEnded
  rw [hadv]
  rfl

theorem Part.chunkEnded_past (h : (p.vol k.volume).length ≤ p.rebuild.cursorBlock + k.count) :
    p.chunkEnded k = (p.chunkCounted k).nextVolume := by
  have hadv : (p.chunkDropped k).rebuild.advance (p.vol k.volume).length k.count =
      ({ (p.chunkDropped k).rebuild with cursorBlock := p.rebuild.cursorBlock + k.count } : Rebuild).nextVolume := if_pos h
  unfold Part.chunkEnded
  rw [hadv]
  exact Rebuild.nextVolume_paused _ _

end

/-- What the events of a chunk's end leave of the journal and of the discrepancy list. -/
theorem chunkTold_journal (p : Part) (k : RebuildChunk) :
    (p.chunkTold k).journal = (passEvents ((unresolvedAt k.first k.blocks).map fun i =>
      unrecoverableEvent p.rebuild.target k.volume i .rebuild 0) p).journal
    ∧ (p.chunkTold k).repair = p.repair := by
  obtain ⟨j, hj⟩ := passEvents_eq ((unresolvedAt k.first k.blocks).map fun i =>
    unrecoverableEvent p.rebuild.target k.volume i .rebuild 0) (p.chunkDropped k)
  exact ⟨passEvents_journal (p := p) (q := p.chunkDropped k) rfl rfl _, by rw [Part.chunkTold, hj]; rfl⟩

/-! ## Completion and skips (R155, R156, R162) -/

theorem rebuildComplete_eq (l : LaneId) (p : Part) :
    let done := passEvent (rebuildEvent (some l) none rebuildDoneCode 0 (p.rebuild.skip.setWidth 32) p.rebuild.unrecoverable 0) p
    rebuildComplete l p = requestCommit ((changeRuntime l .online .rebuildDone 0
      (done.setLane l { p.lane l with recorded := .online })).modRebuild Rebuild.toIdle) := by
  intro done
  have hlane : done.lane l = p.lane l := passEvent_lane ..
  rw [← hlane]
  rfl

/-- A volume with no ONLINE member has no source. -/
theorem Part.sourceOrder_nil {p : Part} {v : VolId} (ho : p.onlineMembers v = [])
    (hr : (p.vol v).reference ∈ (p.vol v).members.lanes) : p.sourceOrder v = [] := by
  have hoff : (p.lane (p.vol v).reference).runtime ≠ .online := fun h =>
    Part.onlineMembers_eq_nil.1 ho _ ⟨LaneMask.mem_lanes.1 hr, h⟩
  unfold Part.sourceOrder
  rw [Part.actingReference_lowest hoff, ho]
  rfl

/-- A chunk whose buffers are granted with no source left: its volume is skipped. -/
theorem rebuildBuffered_skips {p : Part} {k : RebuildChunk} (hk : p.rebuild.chunk = some k) (ha : p.rebuild.aborting = false)
    (hb : k.phase = .buffers) (hs : p.sourceOrder k.volume = []) :
    rebuildBuffered p = rebuildGoOn (rebuildSkip p.rebuild.skipCause (rebuildDrop p)) := by
  unfold rebuildBuffered
  simp only [hk, hs]
  exact if_neg (by simp [ha, hb])

/-! ## O46 -/

section
variable {s : State} {e : EntryId} {x : Entry} {l : LaneId} (ha : s.part.agenda = []) (ht : s.part.takes e x)
  (hg : genericRefusal x.req = none) (hk : x.req.kind = kindLane) (hsel : x.req.selector = 1)
include ht hg hk hsel

theorem requestTaken_admit : requestTaken (laneRequest actionAdmit) admitReceived .done s.part =
    admitReceived e x.req (s.part.taken e { x with state := .received }) :=
  requestTaken_done ht hg (by simp [laneRequest, hk, hsel, actionAdmit]) _

include ha

theorem exec_admit_online (hf : laneFormat x.req = some l) (h : admitRefusal l s.part = none) (hc : s.part.committing)
    (hp : s.part.patrolIdle) (hv : s.part.volumesOf l = []) :
    exec (.admitLane .done) s = .next (s.withPart (s.part.admitted e x l .online .online)) :=
  State.act_of_patrolTry ((requestTaken_admit ht hg hk hsel).trans (admit_online hc _ hf h hv))
    (Part.atRest_of_entry ha Part.admitted_entry) hp

theorem exec_admit_rebuilds (hf : laneFormat x.req = some l) (h : admitRefusal l s.part = none) (hc : s.part.committing)
    (hp : s.part.patrolIdle) {v : VolId} {rest : List VolId} (hv : s.part.volumesOf l = v :: rest) (hd : s.part.derived)
    (hs : s.part.engine.state = .running) (hpaused : s.part.rebuild.paused = false) (hl : (s.part.vol v).state ≠ .lost)
    {k : Lock} (hlock : k = ⟨.rebuild, v, 0, min 16 (s.part.vol v).length, true⟩)
    (hw : (k.clearOf s.part.locks.granted && k.clearOf s.part.locks.waiting) = false) :
    exec (.admitLane .done) s = .next (s.withPart { s.part.admitted e x l .rebuilding .rebuilding with
      locks := ⟨s.part.locks.granted, s.part.locks.waiting ++ [k]⟩
      rebuild := .started l v rest (some ⟨v, 0, min 16 (s.part.vol v).length, .lock, [], [], [], 0⟩) }) := by
  set q : Part := { s.part.admitted e x l .rebuilding .rebuilding with rebuild := .started l v rest none }
  set z : Part := { s.part.admitted e x l .rebuilding .rebuilding with
    locks := ⟨s.part.locks.granted, s.part.locks.waiting ++ [k]⟩
    rebuild := .started l v rest (some ⟨v, 0, min 16 (s.part.vol v).length, .lock, [], [], [], 0⟩) }
  have hpatrol : Taken q [.patrolTry] q := .single (fun us => patrolTry_idle (p := q.push us) hp) ha
  have hbegin : Taken q [.rebuildBegin] z := .single (fun us => rebuildBegin_waits (p := q.push us) rfl hl hlock hw) ha
  have hz : z.entry e = some (x.await .ok (BitVec.ofNat 4 (2 ^ l.val)) 0 0) := Part.taken_entry ..
  have hact := act_taken ((requestTaken_admit ht hg hk hsel).trans (admit_rebuilds hc _ hf h hv hd hs hpaused)) ha (by decide)
    (hpatrol.append hbegin) (Part.haltTested_of_entry hz)
  exact congrArg (fun p => Host.Outcome.next (s.withPart p)) hact

end

/-- Settles O46: the step of an ADMIT by its checks, then the rebuild by the phase of its chunk. -/
theorem admitBringsALaneIntoService : Obligations.AdmitBringsALaneIntoService := by
  unfold Obligations.AdmitBringsALaneIntoService
  refine ⟨?_, ?_, ?_, ?_, ?_, ?_⟩
  · intro e x l s ha ht hk hn hg hkind hsel p L r vs refused formatted check admitted after
    have hgo := requestTaken_admit ht hg hkind hsel
    have hrefused {o : ReqOutcome} (h : admitReceived e x.req (p.taken e { x with state := .received }) =
        refuse e o (p.taken e { x with state := .received })) : exec (.admitLane .done) s = refused o :=
      act_taken_finished ha (hgo.trans (h.trans (refuse_taken x hk hn o)))
    have hafter (hc : p.committing) (runtime : RuntimeState) (recorded : RecordedState) :
        s.part.admitted e x l runtime recorded = after runtime recorded := by
      simp only [after, passEvent_journal (show (p.setLane l (admitted runtime recorded)).takesEvents from hc.takesEvents)]
      rfl
    refine ⟨fun hbad => hrefused (admitReceived_malformed ?_),
      fun hgood htar => ⟨fun o ho => ?_, fun hnone hc hp => ⟨?_, ?_⟩⟩⟩
    · rw [laneFormat_admit hsel]
      split_ifs with h
      · exact laneOf_of_le (Nat.le_of_not_lt fun hlt => hbad ⟨hlt, h⟩)
      · rfl
    all_goals
      have hf : laneFormat x.req = some l :=
        (laneFormat_admit hsel).trans ((if_pos hgood.2).trans (laneOf_eq_some.2 htar))
    · exact hrefused (admitReceived_refused hf ho)
    · intro hv
      rw [← hafter hc]
      exact exec_admit_online ha ht hg hkind hsel hf hnone hc hp hv
    · intro v rest hv hd hs hpaused hl k hw
      rw [← hafter hc, hv]
      exact exec_admit_rebuilds ha ht hg hkind hsel hf hnone hc hp hv hd hs hpaused hl rfl hw
  · intro l op r k p ho hk ha blocks j q source
    have hj : k.opEnded l (op.start - ((p.vol k.volume).first + k.first)) r = j := by cases r <;> rfl
    have hend := operationEnded_rebuild ho hk ha l r hj
    refine ⟨fun hn => ?_, fun hn hph => ?_, fun hn hph => ?_⟩
    · exact hend.trans (if_pos (show k.outstanding - 1 ≠ 0 by omega))
    · exact hend.trans ((if_neg (show ¬ k.outstanding - 1 ≠ 0 by omega)).trans
        ((if_neg (by rw [hph]; decide)).trans (if_pos hph)))
    have hround : operationEnded l op r p = rebuildRound j (q j) :=
      hend.trans ((if_neg (show ¬ k.outstanding - 1 ≠ 0 by omega)).trans (if_pos hph))
    refine ⟨fun m hb hm => hround.trans (rebuildRound_issues hb hm), fun hb => ?_⟩
    have hsettle : operationEnded l op r p = rebuildSettle j (q j) := hround.trans (rebuildRound_settles hb)
    exact ⟨fun hl => hsettle.trans (rebuildSettle_lost hl), fun hl hnone => hsettle.trans (rebuildSettle_ends hl hnone),
      fun hl hsome => hsettle.trans (rebuildSettle_holds (p := q j) rfl hl hsome)⟩
  · intro k l p hk ht
    exact ⟨rebuildHold_waits hk ht, rebuildHold_writes hk ht, fun kind want m => rebuildIssue_eq hk m kind want k⟩
  · intro k p hk t lost ended counted
    obtain ⟨hend, hlocks, hpool⟩ := rebuildChunkEnd_eq (k := k) (p := p) rfl
    have hrebuild : t.rebuild = p.chunkEnded k := congrArg Part.rebuild hend
    refine ⟨(congrArg Part.locks hend).trans hlocks, (congrArg Part.pool hend).trans hpool, fun hlt => ?_,
      fun hle => ⟨fun v hv => ?_, fun hv => ?_⟩, fun hnone => ?_⟩
    · exact hrebuild.trans (Part.chunkEnded_within hlt)
    · exact hrebuild.trans ((Part.chunkEnded_past hle).trans (Rebuild.nextVolume_some (u := counted) hv))
    · exact hrebuild.trans ((Part.chunkEnded_past hle).trans (Rebuild.nextVolume_none (u := counted) hv))
    · obtain ⟨hjournal, hrepair⟩ := chunkTold_journal p k
      have htold : handDiscoveries (tryDiscoveries k.volume .rebuild 0 k.first k.blocks) (p.chunkTold k) = p.chunkTold k := by
        rw [hnone]
        rfl
      have hend' := (rebuildChunkEnd_eq htold).1
      exact ⟨(congrArg Part.journal hend').trans hjournal, (congrArg Part.repair hend').trans hrepair⟩
  · intro l p ht hs ha hc hpassed u done
    rw [rebuildBegin_eq ht hs ha hc, if_pos hpassed]
    exact rebuildComplete_eq l p
  · intro cause p u v told skipped
    refine ⟨fun w hw => ?_, fun hw => ?_, rfl, rfl, fun ht hs ha hc hpassed hpaused hl => ?_, fun k hk ha hb ho hr => ?_⟩
    · rw [rebuildSkip_eq, Rebuild.nextVolume_some (u := skipped) hw]
      rfl
    · rw [rebuildSkip_eq, Rebuild.nextVolume_none (u := skipped) hw]
      rfl
    · obtain ⟨l, hl'⟩ := Option.ne_none_iff_exists'.1 ht
      rw [rebuildBegin_eq hl' hs ha hc]
      exact (if_neg (Bool.eq_false_iff.1 hpassed)).trans ((if_neg (Bool.eq_false_iff.1 hpaused)).trans
        (if_pos (decide_eq_true hl)))
    · exact rebuildBuffered_skips hk ha hb (Part.sourceOrder_nil ho hr)

end Sys2Proof.Machine
end

section
/-!
Record writes (R60, R61): how one begins on its lane, what its reply leads to, and how it ends in its slot.
-/
namespace Sys2Proof.Machine

/-! ## A record write begins on its lane (R60, R79) -/

/-- The service of a record write whose transaction has not begun. -/
def recordDue (l : LaneId) (slot : RecordSlot) : Service :=
  ⟨recordOp l slot, [⟨.write, slot.block, 1, 0⟩], none, [], [], none, [], false, false⟩

/-- The service of a record write whose transaction is outstanding. -/
def recordSent (l : LaneId) (slot : RecordSlot) : Service :=
  ⟨recordOp l slot, [], some ⟨.write, slot.block, 1, 0⟩, [], [], none, [], false, false⟩

/-- The lane with a record write in service whose transaction has not begun. -/
def Lane.recordIssued (L : Lane) (l : LaneId) (slot : RecordSlot) : Lane := { L with service := some (recordDue l slot) }

/-- The lane with the transaction of a record write begun. -/
def Lane.recordBegun (L : Lane) (l : LaneId) (slot : RecordSlot) (data : Block) : Lane :=
  ({ L with service := some (recordSent l slot) } : Lane).begin (.write slot.block [data])

/-- Nothing on the lane keeps an operation issued to it from being sent at once. -/
abbrev Lane.clearToSend (L : Lane) : Prop := L.service = none ∧ L.txn = none ∧ L.hold = false ∧ L.queue = []

theorem Part.serve_record (p : Part) (l : LaneId) (slot : RecordSlot) : p.serve l (recordOp l slot) = recordDue l slot := by
  have htodo : (p.lane l).translate (recordOp l slot) = [⟨.write, slot.block, 1, 0⟩] :=
    Lane.translate_record (p.lane l) rfl (Nat.le_refl 1)
  unfold Part.serve
  rw [htodo]
  rfl

/-- A record write issued to a free lane is in service at once, and its start is handed on. -/
theorem enqueue_record {p : Part} {l : LaneId} (slot : RecordSlot) (hsv : p.serviceable l = true)
    (hclear : (p.lane l).clearToSend) :
    enqueue l (recordOp l slot) p =
      (p.setLane l ((p.lane l).recordIssued l slot)).push [.laneStart l] := by
  obtain ⟨hs, ht, hh, hq⟩ := hclear
  set q := p.setLane l { p.lane l with queue := [recordOp l slot] } with hqdef
  have hql : q.lane l = { p.lane l with queue := [recordOp l slot] } := (Part.lane_setLane p l l _).trans (if_pos rfl)
  have hplaces : (p.lane l).places < Config.queuePlaces := by
    simp [Lane.places, hs, hq, Config.queuePlaces]
  have henqueue : enqueue l (recordOp l slot) p = laneChoose l q := by
    unfold enqueue
    refine (if_pos hplaces).trans ?_
    rw [hq]
    rfl
  have hchooses : q.chooses l = true := by
    have hidle : ((q.lane l).service.isSome || (q.lane l).txn.isSome || (q.lane l).hold) = false := by
      rw [hql]
      exact congrArg₂ or (congrArg₂ or (congrArg Option.isSome hs) (congrArg Option.isSome ht)) hh
    have hsv' : (q.lane l).runtime.serviceable = true := by rw [hql]; exact hsv
    rw [Part.chooses, hidle, hsv']
    rfl
  have hchoose : choose q.engine.share (q.lane l).streak (q.lane l).queue =
      some (recordOp l slot, [], (p.lane l).streak) := by
    rw [hql]
    rfl
  have hqueue (L : Lane) (h : L.queue = []) (sv : Service) :
      ({ L with queue := [], service := some sv } : Lane) = { L with service := some sv } := by rw [← h]
  rw [henqueue, laneChoose_eq, hchooses, hchoose]
  dsimp only
  rw [Part.serve_record, hqdef, Part.setLane_setLane, ← hqdef, hql]
  exact congrArg (fun x => (p.setLane l x).push [.laneStart l]) (hqueue _ hq _)

/-- The transaction of a record write begins, sending the lane's record buffer. -/
theorem laneStart_record {p : Part} {l : LaneId} {slot : RecordSlot} (hs : (p.lane l).service = some (recordDue l slot))
    (ht : (p.lane l).txn = none) (hh : (p.lane l).hold = false) :
    laneStart l p = p.setLane l ((p.lane l).recordBegun l slot (p.refData (.record l))) := by
  have hstart : laneStart l p = serviceNext l p := by
    simp only [laneStart, hs]
    exact if_neg (by simp [ht, hh, recordDue])
  rw [hstart, serviceNext_todo hs rfl rfl rfl]
  rfl

/-! ## The reply to a record write (R61) -/

section
variable {p : Part} {l : LaneId} {slot : RecordSlot} {block : Nat} {sent : Block} {sv : Service} {x : Piece}
  (ha : (p.lane l).awaited = some (.write block [sent])) (hs : (p.lane l).service = some sv) (hop : sv.op = recordOp l slot)
  (ht : sv.trial = none) (hc : sv.cur = some x) (htodo : sv.todo = []) (hz : sv.zeros = []) (hf : sv.faults = [])
  (hres : sv.results = []) (hq : (p.lane l).queue = []) (hw : (p.lane l).waiters = [])
include ha hs hop ht hc

/-- The statuses of a completed record write join the results of its operation. -/
theorem writeReplyTaken_record {code : Byte} {st : Status} (hst : writeStatuses [code] = some [st]) :
    writeReplyTaken l [code] p =
      serviceNext l (p.setLane l ((p.lane l).writeDone [st] { sv with results := sv.results ++ [st], cur := none })) := by
  rw [writeReplyTaken_statuses ha rfl hst]
  set y : Lane := { (p.lane l).countWrite [st] with txn := none } with hy
  set q := p.setLane l y with hqdef
  have hqs : (q.lane l).service = some sv := by rw [hqdef, Part.lane_setLane, if_pos rfl]; exact hs
  have hys : y.service = some sv := hs
  have hcls : sv.op.cls = .record := by rw [hop]; rfl
  simp only [writeCompleted, Part.modLane_eq, ← hy, ← hqdef, hqs, ht, hc]
  rw [if_pos hcls, hqdef, Part.setLane_setLane, Part.lane_setLane, if_pos rfl]
  simp only [Lane.addResults, Lane.modService, hys, Option.map_some]
  rw [ht]
  rfl

include htodo hz hf hres hq hw

/-- The reply ends the record write's operation, and the end is handed to the committer. -/
theorem writeReplyTaken_record_ends {code : Byte} {st : Status} (hst : writeStatuses [code] = some [st]) :
    writeReplyTaken l [code] p = (p.setLane l { p.lane l with
      service := none, txn := none
      counters := { (p.lane l).counters with
        writeFaults := satAdd (p.lane l).counters.writeFaults (countStatus .writeFault [st]) } }).push
      [.opEnded l (recordOp l slot) (.completed [st] sv.remapped)] := by
  rw [writeReplyTaken_record ha hs hop ht hc hst, 
    serviceNext_ends (writeDone_service p l _ _ { sv with results := sv.results ++ [st], cur := none }) hf hz htodo, hop, hres,
    freePlace_push_idle (by rw [Part.lane_setLane, if_pos rfl]; exact hq) (by rw [Part.lane_setLane, if_pos rfl]; exact hw),
    Part.lane_setLane, if_pos rfl, Part.setLane_setLane]
  rfl

theorem writeReplyTaken_record_good : writeReplyTaken l [0] p =
    (p.setLane l { p.lane l with service := none, txn := none }).push
      [.opEnded l (recordOp l slot) (.completed [.good] sv.remapped)] := by
  rw [writeReplyTaken_record_ends ha hs hop ht hc htodo hz hf hres hq hw (writeStatuses_good 1),
    countStatus_writeFault_good (by simp), satAdd_zero]

theorem writeReplyTaken_record_fault : writeReplyTaken l [3] p =
    (p.setLane l { p.lane l with
      service := none, txn := none
      counters := { (p.lane l).counters with writeFaults := satInc (p.lane l).counters.writeFaults } }).push
      [.opEnded l (recordOp l slot) (.completed [.writeFault] sv.remapped)] := by
  rw [writeReplyTaken_record_ends ha hs hop ht hc htodo hz hf hres hq hw (code := 3) (st := .writeFault) rfl,
    show countStatus .writeFault [Status.writeFault] = 1 from rfl, satAdd_one]

end

/-! ## The end of a record write (R60, R61) -/

/-- The committer once a record write of the commit `k` in flight has ended written in a slot. -/
def Committer.wrote (c : Committer) (k : Commit) (l : LaneId) (slot : RecordSlot) : Committer :=
  { c with
    inFlight := some { k with ends := k.ends.set l.val .written }
    slotInUse := c.slotInUse.set l.val (some slot)
    fresh := c.fresh.set l.val false }

section
variable {p : Part} {k : Commit} (hk : p.committer.inFlight = some k) {l : LaneId} {slot : RecordSlot} (remapped : Bool)
include hk

theorem operationEnded_record_written (h : p.committer.fresh[l.val] = false ∨ slot = .b) :
    operationEnded l (recordOp l slot) (.completed [.good] remapped) p =
      ({ p with committer := p.committer.wrote k l slot } : Part).push [.commitTest] := by
  have hgo : ¬ (p.committer.fresh[l.val] && decide (slot.block = 0)) = true := by
    rcases h with h | rfl
    · simp [h]
    · simp [RecordSlot.block]
  have hslot : (if slot.block = 0 then RecordSlot.a else .b) = slot := by cases slot <;> rfl
  have hend : operationEnded l (recordOp l slot) (.completed [.good] remapped) p =
      ({ p with committer := { p.committer.note l .written with
          slotInUse := p.committer.slotInUse.set l.val (some (if slot.block = 0 then .a else .b))
          fresh := p.committer.fresh.set l.val false } } : Part).push [.commitTest] := by
    simp only [operationEnded, recordOp, recordEnded, hk]
    exact (if_neg (by decide)).trans (if_neg hgo)
  rw [hend, hslot]
  simp only [Committer.note, hk, Option.map_some]
  rfl

/-- Slot A of a fresh lane written leads to the write of slot B. -/
theorem operationEnded_record_fresh (h : p.committer.fresh[l.val] = true) (hsv : p.serviceable l = true) :
    operationEnded l (recordOp l .a) (.completed [.good] remapped) p = enqueue l (recordOp l .b) p := by
  simp only [operationEnded, recordOp, recordEnded, hk]
  exact (if_neg (by decide)).trans ((if_pos (by simp [h, RecordSlot.block])).trans (if_pos hsv))

/-- A WRITE_FAULT asks for a departure, which the commit waits for (log 15). -/
theorem operationEnded_record_faulted :
    operationEnded l (recordOp l slot) (.completed [.writeFault] remapped) p = { p with committer := { p.committer with
      inFlight := some { k with ends := k.ends.set l.val .faultAsked } } } := by
  simp only [operationEnded, recordOp, recordEnded, hk]
  refine (if_pos (by decide)).trans ?_
  simp only [Committer.note, hk, Option.map_some]

end

/-- Another target's pending record write keeps the commit from ending. -/
theorem Commit.set_not_ended {k : Commit} {l m : LaneId} (hm : m ≠ l) (ht : k.targets.has m = true)
    (hp : k.ends[m.val] = .pending) (e : WriteEnd) : ({ k with ends := k.ends.set l.val e } : Commit).ended = false := by
  refine Commit.ended_eq_false (m := m) ht ?_
  have hne : l.val ≠ m.val := fun h => hm (Fin.ext h.symm)
  simpa [Vector.getElem_set, hne] using hp

theorem Part.atRest_withCommit {p : Part} {c : Committer} (hr : p.atRest)
    (hc : c.inFlight.isSome = true) (l : LaneId) (x : Lane) : ({ p.setLane l x with committer := c } : Part).atRest := by
  refine ⟨hr.1, fun ⟨_, hd⟩ => ?_⟩
  have hin : c.inFlight.isNone = false := by rw [← Option.not_isSome, hc]; rfl
  simp [Part.drained, hin] at hd

/-- Settles O37, by the reply, and for a GOOD one by whether slot B of a fresh lane is still to be written. -/
theorem recordWritesEndInTheirSlot : Obligations.RecordWritesEndInTheirSlot := by
  intro l m s slot block sent sv x k hr p L ha hs hop ht hc htodo hz hf hres hq hw hk hm hkt hkp
  refine ⟨fun hslot => ?_, fun hfresh hslot hsv hh => ?_, ?_⟩
  · set q := p.setLane l { L with service := none, txn := none } with hqdef
    set z : Part := { q with committer := q.committer.wrote k l slot } with hzdef
    have htest : commitTest z = z := commitTest_waits (p := z) rfl (Commit.set_not_ended hm hkt hkp _)
    exact State.act_of_push_push (z := z) (writeReplyTaken_record_good ha hs hop ht hc htodo hz hf hres hq hw) hr.1
      (operationEnded_record_written (p := q) hk sv.remapped hslot) hr.1 htest (Part.atRest_withCommit hr rfl l _)
  · intro command
    subst hslot
    set q := p.setLane l { L with service := none, txn := none } with hqdef
    have hql : q.lane l = { L with service := none, txn := none } := (Part.lane_setLane p l l _).trans (if_pos rfl)
    have hclear : (q.lane l).clearToSend := by rw [hql]; exact ⟨rfl, rfl, hh, hq⟩
    have hsvq : q.serviceable l = true := by unfold Part.serviceable; rw [hql]; exact hsv
    have hkq : q.committer.inFlight = some k := hk
    set r := q.setLane l ((q.lane l).recordIssued l .b) with hrdef
    have hrl : r.lane l = (q.lane l).recordIssued l .b := (Part.lane_setLane q l l _).trans (if_pos rfl)
    have hstart := laneStart_record (p := r) (l := l) (slot := .b) (by rw [hrl]; rfl) (by rw [hrl]; exact hclear.2.1)
      (by rw [hrl]; exact hclear.2.2.1)
    refine State.act_of_push_push (writeReplyTaken_record_good ha hs hop ht hc htodo hz hf hres hq hw) hr.1
      ((operationEnded_record_fresh hkq sv.remapped hfresh hsvq).trans (enqueue_record .b hsvq hclear)) hr.1 (hstart.trans ?_)
      (Part.atRest_setLane hr l _)
    rw [hrl, hrdef, hqdef, Part.setLane_setLane, Part.setLane_setLane, hql]
    rfl
  · exact State.act_of_push (writeReplyTaken_record_fault ha hs hop ht hc htodo hz hf hres hq hw) hr.1
      (operationEnded_record_faulted (p := p.setLane l _) hk sv.remapped) (Part.atRest_withCommit hr rfl l _)

end Sys2Proof.Machine
end

section
/-!
DETACH (R66, R186, R191): entry into DETACHED with one message, the start of the final commit on the serviceable lanes, and its
finish.
-/
namespace Sys2Proof.Machine

/-! ## Updates of several lanes -/

/-- The part with the lanes of a list changed, each by its own number. -/
def Part.updateLanes (p : Part) (ls : List LaneId) (f : LaneId → Lane → Lane) : Part :=
  { p with lanes := Vector.ofFn fun l : LaneId => if l ∈ ls then f l (p.lane l) else p.lane l }

section
variable (p : Part) (f : LaneId → Lane → Lane)

@[simp] theorem Part.updateLanes_lane (ls : List LaneId) (l : LaneId) :
    (p.updateLanes ls f).lane l = if l ∈ ls then f l (p.lane l) else p.lane l := Vector.getElem_ofFn _

theorem Part.updateLanes_push (ls : List LaneId) (ts : List Task) :
    (p.push ts).updateLanes ls f = (p.updateLanes ls f).push ts := rfl

theorem Part.updateLanes_nil : p.updateLanes [] f = p := by
  have hlanes : (Vector.ofFn fun l : LaneId => if l ∈ [] then f l (p.lane l) else p.lane l) = p.lanes :=
    Vector.ext fun i hi => by simp [Part.lane]
  unfold Part.updateLanes
  rw [hlanes]

/-- The changes of several lanes are made one after another. -/
theorem Part.updateLanes_cons {l : LaneId} {ls : List LaneId} (h : l ∉ ls) :
    p.updateLanes (l :: ls) f = (p.setLane l (f l (p.lane l))).updateLanes ls f := by
  have hlanes : (Vector.ofFn fun k : LaneId => if k ∈ l :: ls then f k (p.lane k) else p.lane k) =
      Vector.ofFn fun k : LaneId => if k ∈ ls then f k ((p.setLane l (f l (p.lane l))).lane k)
        else (p.setLane l (f l (p.lane l))).lane k := by
    congr 1
    funext k
    rw [Part.lane_setLane]
    by_cases hk : l = k
    · subst hk
      rw [if_pos List.mem_cons_self, if_neg h, if_pos rfl]
    · rw [if_neg hk]
      simp [Ne.symm hk]
  unfold Part.updateLanes
  rw [hlanes]
  rfl

end

/-! ## Record writes begin on several lanes -/

/-- Record writes issued to lanes that are free are all in service at once, and their starts are handed on. -/
theorem enqueueEach_record (slot : LaneId → RecordSlot) {ls : List LaneId} (hd : ls.Nodup) {p : Part}
    (h : ∀ l ∈ ls, p.serviceable l = true ∧ (p.lane l).clearToSend) :
    enqueueEach ls (fun l => recordOp l (slot l)) p =
      (p.updateLanes ls fun l L => L.recordIssued l (slot l)).push (ls.map .laneStart) := by
  induction ls generalizing p with
  | nil => rw [Part.updateLanes_nil]; exact (Part.push_nil p).symm
  | cons l ls ih =>
    obtain ⟨hl, hd⟩ := List.nodup_cons.1 hd
    obtain ⟨hsv, hclear⟩ := h l List.mem_cons_self
    set q := p.setLane l ((p.lane l).recordIssued l (slot l)) with hq
    have hother : ∀ k ∈ ls, (q.push [.laneStart l]).serviceable k = true ∧ ((q.push [.laneStart l]).lane k).clearToSend := by
      intro k hk
      have hkl : q.lane k = p.lane k := (Part.lane_setLane p l k _).trans (if_neg fun e : l = k => hl (e ▸ hk))
      rw [Part.push_lane, Part.serviceable, Part.push_lane, hkl]
      exact h k (List.mem_cons_of_mem _ hk)
    have hstep : enqueueEach (l :: ls) (fun l => recordOp l (slot l)) p =
        enqueueEach ls (fun l => recordOp l (slot l)) (q.push [.laneStart l]) :=
      congrArg (enqueueEach ls _) (enqueue_record (slot l) hsv hclear)
    rw [hstep, ih hd hother, Part.updateLanes_cons p _ hl, ← hq, Part.updateLanes_push, Part.push_append]
    rfl

/-- The starts of record writes on several lanes are taken in order, each sending its lane's record buffer. -/
theorem taken_recordStarts (slot : LaneId → RecordSlot) {ls : List LaneId} (hd : ls.Nodup) {q : Part} (ha : q.agenda = [])
    (h : ∀ l ∈ ls, (q.lane l).service = some (recordDue l (slot l)) ∧ (q.lane l).txn = none ∧ (q.lane l).hold = false) :
    Taken q (ls.map .laneStart) (q.updateLanes ls fun l L => L.recordBegun l (slot l) (q.refData (.record l))) := by
  induction ls generalizing q with
  | nil => rw [Part.updateLanes_nil]; exact .nil q
  | cons l ls ih =>
    obtain ⟨hl, hd⟩ := List.nodup_cons.1 hd
    obtain ⟨hs, ht, hh⟩ := h l List.mem_cons_self
    set r := q.setLane l ((q.lane l).recordBegun l (slot l) (q.refData (.record l))) with hr
    have hother : ∀ k ∈ ls,
        (r.lane k).service = some (recordDue k (slot k)) ∧ (r.lane k).txn = none ∧ (r.lane k).hold = false := by
      intro k hk
      have hkl : r.lane k = q.lane k := (Part.lane_setLane q l k _).trans (if_neg fun e : l = k => hl (e ▸ hk))
      rw [hkl]
      exact h k (List.mem_cons_of_mem _ hk)
    rw [Part.updateLanes_cons q _ hl]
    exact .cons (r := r) (fun us => laneStart_record (p := q.push us) hs ht hh) ha (ih hd (q := r) ha hother)

/-! ## Entry into DETACHED with a message (R186, R191) -/

/-- What the entry shows of the part it started from, and of one that differs in no state the entry keeps. -/
theorem detachedWithMessage_of {p q : Part} (hf : q.frozen = p.frozen) (hi : q.interrupt = p.interrupt)
    (hl : ∀ l, (q.lane l).counters = (p.lane l).counters ∧ (q.lane l).present = (p.lane l).present) :
    (detachedWithMessage q).DetachedValues ∧ p.KeepsThroughDetach (detachedWithMessage q)
      ∧ (detachedWithMessage q).interrupt.raised = p.interrupt.raised + 1 := by
  refine ⟨enterDetached_values _, ⟨hf, fun l => ?_⟩, by rw [← hi]; rfl⟩
  have hlane : (detachedWithMessage q).lane l = (q.lane l).detached := by
    simp [Part.lane, detachedWithMessage, enterDetached]
  rw [hlane]
  exact hl l

theorem detachedWithMessage_haltTested (p : Part) : (detachedWithMessage p).haltTested :=
  Part.haltTested_of_state (show EngineState.detached ≠ .halting by decide)

/-! ## The finish of the final commit (R62, R66) -/

/-- The answer to a command by the part that the handed work leads to. -/
theorem State.act_of_settle {f : Part → Part} {s : State} {z : Part} (h : settle Config.stepFuel (f s.part) = z)
    (hz : z.haltTested) : s.act f = .next (s.withPart z) := by
  rw [State.act_eq]
  simp only [Part.act, h, haltTest_of_tested hz]

/-- Tasks that hand on nothing are taken before those behind them. -/
theorem settle_taken_append {q z : Part} {ts : List Task} (h : Taken q ts z) (hq : q.agenda = []) (n : Nat) (us : List Task) :
    settle (n + ts.length) (q.push (ts ++ us)) = settle n (z.push us) := by
  induction h with
  | nil q => rfl
  | cons ht hr _ ih =>
    rw [List.length_cons, ← Nat.add_assoc, List.cons_append, settle_push _ _ _ hq, ht]
    exact ih hr

/-- A step's fuel is enough for the holds of every volume and the test of engine control. -/
theorem stepFuel_ge : 9 ≤ Config.stepFuel := by decide

/-- The part with no request in its table and with no repair and no rebuild chunk: nothing waits for a departure hold. -/
structure Part.NoWork (p : Part) : Prop where
  table : ∀ e, p.entry e = none
  repair : p.repair.work = none
  rebuild : p.rebuild.chunk = none

theorem holdCleared_noWork {p : Part} (h : p.NoWork) (v : VolId) : holdCleared v p = p := by
  have hrequests (es : List EntryId) : es.foldl (requestHoldCleared v) p = p := by
    induction es with
    | nil => rfl
    | cons e es ih =>
      have hrequest : requestHoldCleared v p e = p := by simp only [requestHoldCleared, h.table]
      rw [List.foldl_cons, hrequest, ih]
  have hrepair : repairHoldCleared v p = p := by simp only [repairHoldCleared, h.repair]
  have hrebuild : rebuildHoldCleared v p = p := by simp only [rebuildHoldCleared, h.rebuild]
  simp only [holdCleared, hrequests, hrepair, hrebuild, ite_self]

theorem taken_holdsCleared {p : Part} (h : p.NoWork) (ha : p.agenda = []) (vs : List VolId) :
    Taken p (vs.map .holdCleared) p := by
  induction vs with
  | nil => exact .nil p
  | cons v vs ih => exact .cons (fun us => holdCleared_noWork (p := p.push us) ⟨h.table, h.repair, h.rebuild⟩ v) ha ih

/-- The part with the commit in flight released, before what waited for it goes on. -/
def Part.commitReleased (p : Part) : Part :=
  { p with
    volumes := p.volumes.map Volume.releaseHold
    table := p.table.map (Option.map Entry.releaseMark)
    engine := { p.engine with mark := p.engine.mark.release }
    committer := { p.committer with inFlight := none, buffers := .replicate 4 none } }

/-- With no request bound to it the commit's finish hands on the holds it clears and the test of engine control. -/
theorem releaseCommit_noWork {p : Part} (h : p.NoWork) :
    releaseCommit p = p.commitReleased.push (p.boundVolumes.map .holdCleared ++ [.commitDone]) := by
  have hentries : p.entries = [] := List.eq_nil_iff_forall_not_mem.2 fun ⟨e, x⟩ hx =>
    Option.some_ne_none x ((Part.mem_entries.1 hx).symm.trans (h.table e))
  have hbound : p.boundEntries = [] := by simp [Part.boundEntries, hentries]
  have hrelease : releaseCommit p = p.commitReleased.push
      (p.boundEntries.map .waiterDone ++ p.boundVolumes.map .holdCleared ++ [.commitDone]) := rfl
  rw [hrelease, hbound]
  rfl

/-- The finish of the final commit enters DETACHED: engine control finds nothing left to wait for. -/
theorem settle_finalCommit {p : Part} (ha : p.agenda = []) (h : p.NoWork) (hs : p.engine.state = .detaching)
    (hm : p.engine.mark = .bound) (hr : p.committer.requested = false) {n : Nat} (hn : 9 ≤ n) :
    settle n (releaseCommit p) = detachedWithMessage p := by
  set r := p.commitReleased with hrdef
  have hnoWork : r.NoWork := ⟨fun e => (releaseCommit_entry p e).trans (by rw [h.table]; rfl), h.repair, h.rebuild⟩
  have hdone : commitDone r = detachedWithMessage p := by
    have hwaits : ¬ (r.committer.inFlight.isSome || r.committer.requested || decide (r.engine.mark ≠ .none)) = true := by
      simp [hrdef, Part.commitReleased, hr, hm, WaitMark.release]
    have hstate : r.engine.state = .detaching := hs
    unfold commitDone
    rw [if_neg hwaits]
    simp only [hstate]
    rfl
  have hlength : (p.boundVolumes.map Task.holdCleared).length ≤ 8 := by
    rw [List.length_map]
    exact List.length_filter_le _ _
  obtain ⟨k, hk⟩ : ∃ k, n = k + 1 + (p.boundVolumes.map Task.holdCleared).length :=
    ⟨n - 1 - (p.boundVolumes.map Task.holdCleared).length, by omega⟩
  rw [releaseCommit_noWork h, hk, settle_taken_append (taken_holdsCleared hnoWork ha _) ha,
    settle_push (q := r) _ _ _ ha, Part.push_nil]
  show settle k (commitDone r) = _
  rw [hdone]
  exact settle_nil _ rfl

/-- A record write that ends written ends the commit where every other target has ended its own (R61, R62). -/
theorem Commit.set_written_ended {k : Commit} {l : LaneId}
    (h : ∀ m, m ≠ l → k.targets.has m = true → k.ends[m.val] ∈ [.written, .faulted, .lost]) :
    ({ k with ends := k.ends.set l.val .written } : Commit).ended = true := by
  refine (Commit.ended_iff _).2 fun m hm => ?_
  by_cases hml : m = l
  · subst hml
    simp
  · have hne : l.val ≠ m.val := fun e => hml (Fin.ext e.symm)
    have hend := h m hml hm
    simp only [Vector.getElem_set, if_neg hne]
    constructor <;> intro e <;> rw [e] at hend <;> revert hend <;> decide

/-- The end of the last record write of the final commit is handed on to the commit's finish and enters DETACHED. -/
theorem settle_lastRecordWritten {p : Part} {k : Commit} {l : LaneId} {slot : RecordSlot} (remapped : Bool) (ha : p.agenda = [])
    (h : p.NoWork) (hs : p.engine.state = .detaching) (hm : p.engine.mark = .bound) (hk : p.committer.inFlight = some k)
    (hr : p.committer.requested = false) (hslot : p.committer.fresh[l.val] = false ∨ slot = .b)
    (hends : ∀ m, m ≠ l → k.targets.has m = true → k.ends[m.val] ∈ [.written, .faulted, .lost]) :
    settle Config.stepFuel (p.push [.opEnded l (recordOp l slot) (.completed [.good] remapped)]) =
      detachedWithMessage { p with committer := p.committer.wrote k l slot } := by
  set r : Part := { p with committer := p.committer.wrote k l slot }
  have hwritten : runTask (.opEnded l (recordOp l slot) (.completed [.good] remapped)) p = r.push [.commitTest] :=
    operationEnded_record_written hk remapped hslot
  have hrequested : ¬ r.committer.requested = true := Bool.eq_false_iff.1 hr
  have htest : runTask .commitTest r = releaseCommit r :=
    (commitTest_ends (p := r) rfl (Commit.set_written_ended hends)).trans (if_neg hrequested)
  show settle (65534 + 1 + 1) _ = _
  rw [settle_push _ _ _ ha, Part.push_nil, hwritten, settle_push (q := r) _ _ _ ha, Part.push_nil, htest]
  exact settle_finalCommit (p := r) ha ⟨h.table, h.repair, h.rebuild⟩ hs hm hr (by decide)

/-! ## DETACH from HALTED (R59, R66) -/

/-- The part with DETACH taken in HALTED, before its commit request reaches the committer. -/
def Part.detachBegun (p : Part) : Part :=
  { p with
    engine := { p.engine with refused := false, state := .detaching, mark := .waiting }
    committer := { p.committer with clean := true } }

theorem detach_halted {p : Part} (h : p.engine.state = .halted) : engineCommand 4 detachTaken p =
    if p.committer.inFlight.isSome then
      { p.detachBegun with committer := { p.detachBegun.committer with requested := true } }
    else startCommit p.detachBegun := by
  have hallowed : commandAllowed 4 p.engine.state = true := by rw [h]; rfl
  have htaken : detachTaken p = requestCommit p.detachBegun := if_neg (show p.engine.state ≠ .faulted by rw [h]; decide)
  unfold engineCommand
  rw [if_pos hallowed, htaken]
  exact requestCommit_taken (.inr (show EngineState.detaching ∈ _ by decide))

theorem detach_faulted {p : Part} (h : p.engine.state = .faulted) : engineCommand 4 detachTaken p =
    detachedWithMessage (p.modEngine fun g => { g with refused := false }) := by
  have hallowed : commandAllowed 4 p.engine.state = true := by rw [h]; rfl
  unfold engineCommand
  rw [if_pos hallowed]
  exact if_pos h

/-- The part when a commit has started, before its record writes are issued. -/
def Part.commitBound (p : Part) : Part := bindMarks { p with committer := p.commitStarted }

theorem Part.commitBound_noWork {p : Part} (h : p.NoWork) : p.commitBound.NoWork :=
  ⟨fun e => (bindMarks_entry _ e).trans (congrArg _ (h.table e)), h.repair, h.rebuild⟩

/-- With no lane to write, a commit finishes where it starts (R59). -/
theorem startCommit_noTarget {p : Part} (h : ∀ l, p.serviceable l = false) : startCommit p = releaseCommit p.commitBound := by
  have hmask : p.serviceableMask = 0 := by
    have hnone : allLanes.filter p.serviceable = [] := by simp [h]
    rw [Part.serviceableMask, hnone]
    rfl
  exact if_pos hmask

/-- The part when a commit has started and the record write of each of its targets has begun. -/
def Part.recordsBegun (p : Part) : Part :=
  (p.commitBound.updateLanes p.serviceableMask.lanes fun l L => L.recordIssued l (p.committer.slotFor l)).updateLanes
    p.serviceableMask.lanes fun l L => L.recordBegun l (p.committer.slotFor l) (p.commitBound.refData (.record l))

/-- With free lanes to write, the record writes of a commit begin in the step of its start (R59, R60). -/
theorem act_startCommit {f : Part → Part} {p q : Part} (hf : f p = startCommit q) (ha : q.agenda = [])
    (hs : q.engine.state ≠ .halting) (hne : ∃ l, q.serviceable l = true)
    (hclear : ∀ l, q.serviceable l = true → (q.lane l).clearToSend) : p.act f = q.recordsBegun := by
  obtain ⟨l, hl⟩ := hne
  have htarget : ∀ l ∈ q.serviceableMask.lanes, q.commitBound.serviceable l = true ∧ (q.commitBound.lane l).clearToSend := by
    intro l hl
    have hsv : q.serviceable l = true := by rw [← Part.has_serviceableMask]; exact LaneMask.mem_lanes.1 hl
    exact ⟨hsv, hclear l hsv⟩
  have hnodup : q.serviceableMask.lanes.Nodup := (List.nodup_finRange 4).filter _
  have hstart : startCommit q = enqueueEach q.serviceableMask.lanes (fun l => recordOp l (q.committer.slotFor l)) q.commitBound :=
    if_neg (Part.serviceableMask_ne_zero hl)
  rw [enqueueEach_record (fun l => q.committer.slotFor l) hnodup htarget] at hstart
  refine act_taken (hf.trans hstart) ha ?_ (taken_recordStarts (fun l => q.committer.slotFor l) hnodup ha fun l hl => ?_)
    (Part.haltTested_of_state hs)
  · rw [List.length_map]
    exact (List.length_filter_le _ _).trans (by decide)
  · obtain ⟨-, -, ht, hh, -⟩ := htarget l hl
    rw [Part.updateLanes_lane, if_pos hl]
    exact ⟨rfl, ht, hh⟩

/-- Each target's transaction sends the record built for its lane (R56, R60). -/
theorem Part.recordsBegun_lane {p : Part} {l : LaneId} (h : p.serviceable l = true) : p.recordsBegun.lane l =
    ((p.lane l).recordIssued l (p.committer.slotFor l)).recordBegun l (p.committer.slotFor l)
      (p.buildRecord p.committer.nextGeneration l).block := by
  have hhas : p.serviceableMask.has l = true := by rw [Part.has_serviceableMask]; exact h
  have hdata : p.commitBound.refData (.record l) = (p.buildRecord p.committer.nextGeneration l).block := by
    simp [Part.refData, Part.commitBound, Part.commitStarted, hhas]
  rw [Part.recordsBegun, Part.updateLanes_lane, if_pos (LaneMask.mem_lanes.2 hhas), Part.updateLanes_lane,
    if_pos (LaneMask.mem_lanes.2 hhas), hdata]
  rfl

/-! ## O16 -/

/-- Settles O16, by the state DETACH finds: FAULTED, HALTED with and without a commit in flight, and the end of the last record
write of the final commit. -/
theorem detachEntersDetachedOrDetaching : Obligations.DetachEntersDetachedOrDetaching := by
  intro s
  refine ⟨fun hs => ?_, fun ha hs hin => ?_, fun ha hs hin he hw hc => ⟨fun hnone => ?_, fun hsome hclear => ?_⟩, ?_⟩
  · obtain ⟨hvalues, hkeeps, hraised⟩ := detachedWithMessage_of (p := s.part)
      (q := s.part.modEngine fun g => { g with refused := false }) rfl rfl fun _ => ⟨rfl, rfl⟩
    have hact := State.act_of_settle (s := s) ((congrArg _ (detach_faulted hs)).trans (settle_nil _ rfl))
      (detachedWithMessage_haltTested _)
    exact ⟨_, hact, rfl, hvalues, hkeeps, hraised, rfl, rfl⟩
  · have htaken := (detach_halted hs).trans (if_pos hin)
    refine (State.act_of_rest ?_).trans (congrArg (fun p => Host.Outcome.next (s.withPart p)) htaken)
    rw [htaken]
    exact ⟨ha, Part.haltTested_of_state (show EngineState.detaching ≠ .halting by decide)⟩
  · have htaken := (detach_halted hs).trans (if_neg (by simp [hin]))
    set q := s.part.detachBegun.commitBound with hq
    have hnoWork : q.NoWork := Part.commitBound_noWork ⟨he, hw, hc⟩
    obtain ⟨hvalues, hkeeps, hraised⟩ := detachedWithMessage_of (p := s.part) (q := q) rfl rfl fun _ => ⟨rfl, rfl⟩
    have hstart : engineCommand 4 detachTaken s.part = releaseCommit q := htaken.trans (startCommit_noTarget hnone)
    have hact := State.act_of_settle (s := s)
      ((congrArg _ hstart).trans (settle_finalCommit (p := q) ha hnoWork rfl rfl rfl stepFuel_ge))
      (detachedWithMessage_haltTested _)
    exact ⟨_, hact, rfl, hvalues, hkeeps, hraised, rfl⟩
  · have htaken := (detach_halted hs).trans (if_neg (by simp [hin]))
    set q := s.part.detachBegun with hq
    have hact := act_startCommit htaken ha (show EngineState.detaching ≠ .halting by decide) hsome hclear
    refine ⟨s.withPart q.recordsBegun, _, congrArg (fun p => Host.Outcome.next (s.withPart p)) hact, rfl, rfl, rfl, rfl,
      q.has_serviceableMask, rfl, fun l hl => ?_⟩
    intro slot record
    have hlane := Part.recordsBegun_lane (p := q) hl
    rw [State.withPart_part, hlane]
    exact ⟨⟨_, rfl, rfl⟩, rfl⟩
  · intro l slot block sent sv x k p L ha hs hm he hw hc hawait hservice hop ht hcur htodo hz hf hres hq hwait hk hr hslot hends
    set q := p.setLane l { L with service := none, txn := none } with hqdef
    have hlanes (m : LaneId) : (q.lane m).counters = (p.lane m).counters ∧ (q.lane m).present = (p.lane m).present := by
      rw [hqdef, Part.lane_setLane]
      split_ifs with h
      · subst h
        exact ⟨rfl, rfl⟩
      · exact ⟨rfl, rfl⟩
    obtain ⟨hvalues, hkeeps, hraised⟩ := detachedWithMessage_of (p := p)
      (q := { q with committer := q.committer.wrote k l slot }) rfl rfl hlanes
    have hreply := writeReplyTaken_record_good hawait hservice hop ht hcur htodo hz hf hres hq hwait
    have hsettle := settle_lastRecordWritten (p := q) sv.remapped ha ⟨he, hw, hc⟩ hs hm hk hr hslot hends
    exact ⟨_, State.act_of_settle ((congrArg _ hreply).trans hsettle) (detachedWithMessage_haltTested _), rfl, hvalues, hkeeps,
      hraised⟩

end Sys2Proof.Machine
end

section
/-!
The set serial that the part chooses (R65, log 12).
-/
namespace Sys2Proof.Machine

/-- A search that ends at 0 or at a number seen has met only such numbers. -/
theorem unseen_mem {seen : List (BitVec 64)} {n : Nat} {x : BitVec 64} (h : unseen seen n x ∈ 0 :: seen)
    {i : Nat} (hi : i ≤ n) :
    x + BitVec.ofNat 64 i ∈ 0 :: seen := by
  induction n generalizing x i with
  | zero =>
    obtain rfl : i = 0 := Nat.le_zero.1 hi
    simpa [unseen] using h
  | succ n ih =>
    by_cases hx : x ∈ 0 :: seen
    · have hgo : unseen seen (n + 1) x = unseen seen n (x + 1) := if_pos (by simpa using hx)
      rw [hgo] at h
      cases i with
      | zero => simpa using hx
      | succ i =>
        rw [BitVec.ofNat_add, BitVec.add_comm (BitVec.ofNat 64 i), ← BitVec.add_assoc]
        exact ih h (Nat.le_of_succ_le_succ hi)
    · have hstop : unseen seen (n + 1) x = x := if_neg (by simpa using hx)
      exact absurd (hstop ▸ h) hx

/-- Of as many numbers in a row as there are to avoid, and one more, one is free: the search finds it. -/
theorem unseen_not_mem {seen : List (BitVec 64)} {n : Nat} (hn : seen.length < n) (hsize : n < 2 ^ 64) (x : BitVec 64) :
    unseen seen n x ∉ 0 :: seen := by
  intro h
  set tried := (List.range (n + 1)).map fun i => x + BitVec.ofNat 64 i with htried
  have hdistinct : tried.Nodup := by
    refine List.Nodup.map_on (fun i hi j hj hij => ?_) List.nodup_range
    have hofNat := congrArg BitVec.toNat (BitVec.add_right_inj x |>.1 hij)
    rw [List.mem_range] at hi hj
    simp only [BitVec.toNat_ofNat] at hofNat
    omega
  have hsub : tried ⊆ 0 :: seen := by
    intro y hy
    obtain ⟨i, hi, rfl⟩ := List.mem_map.1 hy
    exact unseen_mem h (Nat.le_of_lt_succ (List.mem_range.1 hi))
  have hlength := (List.subperm_of_subset hdistinct hsub).length_le
  simp only [htried, List.length_map, List.length_range, List.length_cons] at hlength
  omega

/-- Settles O47: the search runs over one number more than there are to avoid. -/
theorem chosenSerialsAreNewAndNotZero : Obligations.ChosenSerialsAreNewAndNotZero := by
  intro p hp
  have hnew : chooseSerial p ∉ 0 :: p.committer.seen :=
    unseen_not_mem (Nat.lt_succ_self _) (by omega) (Config.numberSource p.free)
  exact ⟨List.ne_of_not_mem_cons hnew, List.not_mem_of_not_mem_cons hnew⟩

end Sys2Proof.Machine
end

section
/-!
Every step keeps the laws of the locks, the pool, the list, the backlog and the lane queues (R75, R82, R86, R122, R182).
-/
namespace Sys2Proof.Machine

/-! ## What a command answers with -/

/-- A command that acts on the part keeps the laws where its own effect does: the work it hands on keeps them. -/
theorem kept_of_act {f : Part → Part} {s t : State} (ht : s.act f = .next t) (hf : (f s.part).Kept) : t.part.Kept := by
  rw [State.act_eq, Host.Outcome.next.injEq] at ht
  exact ht ▸ keep_act hf

theorem kept_of_same {s t : State} (hk : s.part.Kept) (ht : Host.Outcome.next s = (.next t : Host.Outcome State Fault Refusal)) :
    t.part.Kept :=
  Host.Outcome.next.inj ht ▸ hk

/-- Both resets: every list is empty. -/
theorem kept_of_reset {s t : State} {levels : LaneMask}
    (ht : Host.Outcome.next (s.afterReset levels) = (.next t : Host.Outcome State Fault Refusal)) : t.part.Kept :=
  Host.Outcome.next.inj ht ▸ kept_reset levels s.part.free s.part.interrupt.afterReset

/-- An AREA write touches the registers alone. -/
theorem execAreaWrite_part {high : Bool} {value : Word} {s t : State} (ht : execAreaWrite high value s = .next t) :
    t.part = s.part := by
  unfold execAreaWrite at ht
  split at ht <;> exact (congrArg State.part (Host.Outcome.next.inj ht)).symm

/-! ## The commands that act under a condition -/

/-- What a command does under a condition keeps the laws where the deed does. -/
theorem keep_ite {c : Prop} [Decidable c] {p q : Part} (hq : q.Kept) (hp : p.Kept) : (if c then q else p).Kept := by
  split
  · exact hq
  · exact hp

/-- Every command keeps the laws. -/
theorem exec_kept {c : Instr} {s t : State} (hk : s.part.Kept) (ht : exec c s = .next t) : t.part.Kept := by
  cases c with
  | attach => exact kept_of_act ht (keep_engineCommand hk _ (keep_attachTaken hk _))
  | halt => exact kept_of_act ht (keep_engineCommand hk _ (keep_haltCommand hk))
  | resume => exact kept_of_act ht (keep_engineCommand hk _ (keep_resumeTaken hk))
  | detach => exact kept_of_act ht (keep_engineCommand hk _ (keep_detachTaken hk))
  | abandon => exact kept_of_act ht (keep_engineCommand hk _ (kept_enterDetached _))
  | engineCommandRefused code => exact kept_of_act ht (keep_engineCommand hk _ (keep_engineTaken hk _ _))
  | nudge value => exact kept_of_act ht (keep_ite (keep_sweepDue hk) hk)
  | areaWrite high value => exact execAreaWrite_part ht ▸ hk
  | powerOnReset levels => exact kept_of_reset ht
  | portReset levels => exact kept_of_reset ht
  | presentLevelChange l level => exact kept_of_act ht (keep_modLane hk l fun places => places)
  | presenceLoss l => exact kept_of_act ht (keep_presenceFell hk l)
  | presenceArrival l => exact kept_of_act ht (keep_presenceRose hk l)
  | identReply l serial capacity largest => exact kept_of_act ht (keep_identReplyTaken hk l serial capacity largest)
  | readReply l codes data => exact kept_of_act ht (keep_readReplyTaken hk l codes data)
  | writeReply l codes => exact kept_of_act ht (keep_writeReplyTaken hk l codes)
  | fillReply l code => exact kept_of_act ht (keep_fillReplyTaken hk l code)
  | moduleResend l => exact kept_of_act ht (keep_moduleResendTaken hk l)
  | notReady l => exact kept_of_act ht (keep_notReadyTaken hk l)
  | badReply l => exact kept_of_act ht (keep_badReplyTaken hk l)
  | unsolicitedMessage l => exact kept_of_same hk ht
  | replyTimeout l => exact kept_of_act ht (keep_replyTimedOut hk l)
  | timeoutHoldEnd l => exact kept_of_act ht (keep_pulseEnded hk .timeout l)
  | departureHoldEnd l => exact kept_of_act ht (keep_pulseEnded hk .departure l)
  | cutHoldEnd l => exact kept_of_act ht (keep_pulseEnded hk .cut l)
  | notReadyWaitEnd l => exact kept_of_act ht (keep_notReadyWaited hk l)
  | lineTestEnd l sensed => exact kept_of_act ht (keep_lineTestEnded hk l sensed)
  | departure l c => exact kept_of_act ht (keep_ite hk (keep_depart hk l c 0))
  | read d => exact kept_of_act ht (keep_requestTaken hk _ (fun e r _ hq => keep_readReceived hq e r) d)
  | write d => exact kept_of_act ht (keep_requestTaken hk _ (fun e r _ hq => keep_writeReceived hq e r) d)
  | verify d => exact kept_of_act ht (keep_requestTaken hk _ (fun e r _ hq => keep_verifyReceived hq e r) d)
  | defineVolume d => exact kept_of_act ht (keep_requestTaken hk _ (fun e r _ hq => keep_defineReceived hq e r) d)
  | deleteVolume d => exact kept_of_act ht (keep_requestTaken hk _ (fun e r _ hq => keep_deleteReceived hq e r) d)
  | freeze d => exact kept_of_act ht (keep_requestTaken hk _ (fun e _ _ hq => keep_freezeReceived hq e) d)
  | admitLane d => exact kept_of_act ht (keep_requestTaken hk _ (fun e r _ hq => keep_admitReceived hq e r) d)
  | retire d => exact kept_of_act ht (keep_requestTaken hk _ (fun e r _ hq => keep_retireReceived hq e r) d)
  | probe d => exact kept_of_act ht (keep_requestTaken hk _ (fun e r _ hq => keep_probeReceived hq e r) d)
  | patrolPlan d => exact kept_of_act ht (keep_requestTaken hk _ (fun e r _ hq => keep_planReceived hq e r) d)
  | patrolControlStart d => exact kept_of_act ht (keep_requestTaken hk _ (fun e r _ hq => keep_startReceived hq e r) d)
  | patrolControlStop d => exact kept_of_act ht (keep_requestTaken hk _ (fun e r _ hq => keep_stopReceived hq e r) d)
  | snapshot d => exact kept_of_act ht (keep_requestTaken hk _ (fun e r _ hq => keep_snapshotReceived hq e r) d)
  | refusedKind d => exact kept_of_act ht (keep_requestTaken hk _ (fun e _ _ hq => keep_refuse hq e .refusedKind) d)
  | defineLabelFetched e label => exact kept_of_act ht (keep_labelFetched hk e label)
  | writeDataFetched e data => exact kept_of_act ht (keep_writeFetched hk e data)
  | readDelivered e d => exact kept_of_act ht (keep_readDelivered hk e d)
  | patrolPlanFetched e plan => exact kept_of_act ht (keep_planFetched hk e plan)
  | snapshotDelivered e d => exact kept_of_act ht (keep_snapshotDelivered hk e d)
  | holdoffExpiry => exact kept_of_act ht (keep_holdoffExpired hk)
  | restExpiry => exact kept_of_act ht (keep_restExpired hk)
  | pollTimerExpiry => exact kept_of_act ht (keep_ite (keep_sweepDue hk) hk)
  | consumedCountRead value => exact kept_of_act ht (keep_consumedRead hk value)
  | slotRead slot => exact kept_of_act ht (keep_slotReadEnded hk slot)
  | outcomeWrite d => exact kept_of_act ht (keep_outcomeWritten hk d)
  | doneWrite d => exact kept_of_act ht (keep_doneWritten hk d)
  | doneTallyWrite d => exact kept_of_act ht (keep_tallyWritten hk d)
  | headerRead header => exact kept_of_act ht (keep_headerRead hk header)
  | attachHeaderWrite d => exact kept_of_act ht (keep_attachHeaderWritten hk d)
  | entryWrite d => exact kept_of_act ht (keep_entryWritten hk d)
  | writtenCountWrite d => exact kept_of_act ht (keep_writtenCountWritten hk d)
  | lostCountWrite d => exact kept_of_act ht (keep_lostCountWritten hk d)
  | reread value => exact kept_of_act ht (keep_rereadEnded hk value)
  | delayTimerExpiry => exact kept_of_act ht (keep_same hk)

/-- Settles O3: a step idles or takes a command, and every command keeps the laws. -/
theorem everyStepKeepsTheLaws : Obligations.EveryStepKeepsTheLaws := by
  intro s t hk ht
  unfold step at ht
  cases hp : s.pending with
  | nil =>
    rw [hp] at ht
    exact kept_of_same hk ht
  | cons c rest =>
    rw [hp] at ht
    exact exec_kept (s := { s with pending := rest }) hk ht

end Sys2Proof.Machine
end

section
/-!
Data requests up to their grants: the wait for the lock, the wait for the buffers, and a WRITE granted both (R82, R85, R86, R96,
R102, R106).
-/
namespace Sys2Proof.Machine

/-! ## The lock of a data request -/

/-- The lock of a data request: SHARED for READ and VERIFY, EXCLUSIVE for WRITE (R96, R102, R106). -/
abbrev Request.dataLock (r : Request) (e : EntryId) (exclusive : Bool) : Lock :=
  ⟨.request e, r.volume, r.first.toNat, r.count.toNat, exclusive⟩

section
variable {p : Part} {e : EntryId} {r : Request} {exclusive : Bool}

/-- A lock in conflict waits behind every waiter (R86). -/
theorem dataLock_waits (y : Entry)
    (h : ((r.dataLock e exclusive).clearOf p.locks.granted && (r.dataLock e exclusive).clearOf p.locks.waiting) = false) :
    dataLock e r exclusive (p.taken e y) = { p.taken e { y with state := .waitLock } with
      locks := ⟨p.locks.granted, p.locks.waiting ++ [r.dataLock e exclusive]⟩ } := by
  unfold Machine.dataLock setEntryState
  rw [Part.taken_modEntry]
  exact askLock_waits h

/-- A lock clear of every other one is granted at once (R86). -/
theorem dataLock_locks (y : Entry)
    (h : ((r.dataLock e exclusive).clearOf p.locks.granted && (r.dataLock e exclusive).clearOf p.locks.waiting) = true) :
    dataLock e r exclusive (p.taken e y) =
      (p.locked e { y with state := .waitLock } (r.dataLock e exclusive)).push [.lockGranted (.request e)] := by
  unfold Machine.dataLock setEntryState
  rw [Part.taken_modEntry]
  exact askLock_granted h

/-- A request locked that finds too few buffers free, or others waiting for theirs, waits (R82). -/
theorem askBuffers_locked_waits (y : Entry) (k : Lock) {n : Nat} (hw : p.pool.headWaits)
    (hn : p.pool.waiting ≠ [] ∨ p.pool.freeCount < n) :
    askBuffers (.request e) n (p.locked e y k) = { p.locked e y k with
      pool := { p.pool with waiting := p.pool.waiting ++ [(.request e, n)] } } :=
  askBuffers_waits (p := p.locked e y k) hw hn

end

/-! ## What each kind does with its lock -/

theorem writeReceived_passes {p : Part} {e : EntryId} {r : Request} (hd : dataRefusal r p = none) (y : Entry) :
    writeReceived e r (p.taken e y) = dataLock e r true (p.taken e y) := by
  have hd' : dataRefusal r (p.taken e y) = none := hd
  simp [writeReceived, hd']

/-- A READ or a WRITE asks for one buffer a block (R96, R102). -/
theorem requestLocked_blocks {p : Part} {e : EntryId} {y : Entry} {k : Lock} (hs : y.state = .waitLock)
    (hk : y.req.kind ≠ kindVerify) (hh : k.holder = .request e) :
    lockGranted (.request e) (p.locked e y k) =
      askBuffers (.request e) y.req.count.toNat (p.locked e { y with state := .waitBuffers } k) := by
  rw [lockGranted_request y hh, ← Part.locked_modEntry p e y k fun y => { y with state := .waitBuffers }]
  simp [requestLocked, hs, hk, setEntryState]

/-- A VERIFY fixes its lanes and asks for one buffer a block and lane (R106). -/
theorem requestLocked_lanes {p : Part} {e : EntryId} {y : Entry} {k : Lock} (hs : y.state = .waitLock)
    (hk : y.req.kind = kindVerify) (hh : k.holder = .request e) (hl : p.isLost y.req.volume = false)
    (hlanes : p.verifyLanes y.req ≠ []) :
    lockGranted (.request e) (p.locked e y k) =
      askBuffers (.request e) (y.req.count.toNat * (p.verifyLanes y.req).length)
        (p.locked e { y with state := .waitBuffers, work := .verify ⟨p.verifyLanes y.req, [], 0, 0⟩ } k) := by
  rw [lockGranted_request y hh, requestLocked_verify (Part.locked_entry p e y k) hs hk]
  refine (if_neg ?_).trans ((if_neg ?_).trans ?_)
  · show ¬ p.isLost y.req.volume = true
    simp [hl]
  · show ¬ (p.verifyLanes y.req).isEmpty = true
    simpa using hlanes
  · rw [setEntryState, setWork, Part.locked_modEntry, Part.locked_modEntry]
    rfl

/-- A WRITE with its buffers fetches its data (R102). -/
theorem requestBuffered_write {p : Part} {e : EntryId} {y : Entry} (h : p.entry e = some y) (hs : y.state = .waitBuffers)
    (hk : y.req.kind = kindWrite) : requestBuffered e p = p.modEntry e fun y => { y with state := .fetching } := by
  have hr : ¬ kindWrite = kindRead := by decide
  have hv : ¬ kindWrite = kindVerify := by decide
  have hn : ¬ kindWrite = kindSnapshot := by decide
  simp [requestBuffered, h, hs, hk, hr, hv, hn, setEntryState]

/-! ## The step in which a data request is received -/

/-- The answer to a command whose effect leaves the part at rest. -/
theorem State.act_of_eq {f : Part → Part} {s : State} {q : Part} (hf : f s.part = q) (hr : q.atRest) :
    s.act f = .next (s.withPart q) := by
  subst hf
  exact State.act_of_rest hr

section
variable {s : State} {e : EntryId} {x : Entry} {exclusive : Bool} {f : Part → Part}
  (ha : s.part.agenda = []) (hf : f s.part = dataLock e x.req exclusive (s.part.taken e { x with state := .received }))
include ha hf

/-- The request's lock is in conflict: it waits. -/
theorem act_data_waits (h : ((x.req.dataLock e exclusive).clearOf s.part.locks.granted
      && (x.req.dataLock e exclusive).clearOf s.part.locks.waiting) = false) :
    s.act f = .next (s.withPart { s.part.taken e { x with state := .waitLock } with
      locks := ⟨s.part.locks.granted, s.part.locks.waiting ++ [x.req.dataLock e exclusive]⟩ }) := by
  have hr : ({ s.part.taken e { x with state := .waitLock } with
      locks := ⟨s.part.locks.granted, s.part.locks.waiting ++ [x.req.dataLock e exclusive]⟩ } : Part).atRest :=
    Part.atRest_of_entry ha (Part.taken_entry s.part e { x with state := .waitLock })
  exact State.act_of_eq (hf.trans (dataLock_waits { x with state := .received } h)) hr

/-- The lock is granted; the request stands as `y` and waits for its `n` buffers. -/
theorem act_data_locked {y : Entry} {n : Nat}
    (h : ((x.req.dataLock e exclusive).clearOf s.part.locks.granted
      && (x.req.dataLock e exclusive).clearOf s.part.locks.waiting) = true)
    (hb : lockGranted (.request e) (s.part.locked e { x with state := .waitLock } (x.req.dataLock e exclusive)) =
      askBuffers (.request e) n (s.part.locked e y (x.req.dataLock e exclusive)))
    (hw : s.part.pool.headWaits) (hn : s.part.pool.waiting ≠ [] ∨ s.part.pool.freeCount < n) :
    s.act f = .next (s.withPart { s.part.taken e y with
      locks := ⟨s.part.locks.granted ++ [x.req.dataLock e exclusive], s.part.locks.waiting⟩
      pool := { s.part.pool with waiting := s.part.pool.waiting ++ [(.request e, n)] } }) :=
  State.act_of_push (hf.trans (dataLock_locks { x with state := .received } h)) ha
    (hb.trans (askBuffers_locked_waits y _ hw hn)) (Part.atRest_of_entry ha (Part.taken_entry s.part e y))

end

/-- A WRITE granted its lock and its buffers in the step in which it is received: its data fetch begins. -/
theorem act_write_granted {s : State} {e : EntryId} {x : Entry} {f : Part → Part} (ha : s.part.agenda = [])
    (hf : f s.part = dataLock e x.req true (s.part.taken e { x with state := .received })) (hk : x.req.kind = kindWrite)
    (h : ((x.req.dataLock e true).clearOf s.part.locks.granted && (x.req.dataLock e true).clearOf s.part.locks.waiting) = true)
    (hw : s.part.pool.waiting = []) (hn : x.req.count.toNat ≤ s.part.pool.freeCount) :
    s.act f = .next (s.withPart (s.part.held e { x with state := .fetching } (x.req.dataLock e true) x.req.count.toNat)) := by
  have hv : x.req.kind ≠ kindVerify := by rw [hk]; decide
  refine State.act_of_push_push (t := .lockGranted (.request e)) (u := .buffersGranted (.request e))
    (r := s.part.held e { x with state := .waitBuffers } (x.req.dataLock e true) x.req.count.toNat)
    (hf.trans (dataLock_locks { x with state := .received } h)) ha ?_ ha ?_ (Part.atRest_of_entry ha (Part.held_entry ..))
  · exact (requestLocked_blocks (y := { x with state := .waitLock }) rfl hv rfl).trans (askBuffers_locked _ _ hw hn)
  · refine (buffersGranted_request { x with state := .waitBuffers } _ _ hw).trans ?_
    rw [requestBuffered_write (y := { x with state := .waitBuffers }) (Part.held_entry ..) rfl hk, Part.held_modEntry]

/-- Settles O41, by the kind: the lock waits, or it is granted and the buffers wait, or both are granted. -/
theorem dataRequestsWaitForLockAndBuffers : Obligations.DataRequestsWaitForLockAndBuffers := by
  intro e x s ha ht hg p r lock free waits locked full hd hw
  refine ⟨fun hk hnamed => ?_, fun hk => ?_, fun hk => ?_⟩
  · have hgo : requestTaken (·.kind = kindRead) readReceived .done p =
        dataLock e r false (p.taken e { x with state := .received }) :=
      (requestTaken_done ht hg (by simpa using hk) _).trans (readReceived_passes hd hnamed _)
    have hv : x.req.kind ≠ kindVerify := by rw [show x.req.kind = kindRead from hk]; decide
    exact ⟨act_data_waits ha hgo, fun h hn =>
      act_data_locked ha hgo h (requestLocked_blocks (y := { x with state := .waitLock }) rfl hv rfl) hw hn⟩
  · have hgo : requestTaken (·.kind = kindWrite) writeReceived .done p =
        dataLock e r true (p.taken e { x with state := .received }) :=
      (requestTaken_done ht hg (by simpa using hk) _).trans (writeReceived_passes hd _)
    have hv : x.req.kind ≠ kindVerify := by rw [show x.req.kind = kindWrite from hk]; decide
    exact ⟨act_data_waits ha hgo, fun h hn =>
      act_data_locked ha hgo h (requestLocked_blocks (y := { x with state := .waitLock }) rfl hv rfl) hw hn,
      act_write_granted ha hgo hk⟩
  · intro lanes
    have hgo : requestTaken (·.kind = kindVerify) verifyReceived .done p =
        dataLock e r false (p.taken e { x with state := .received }) :=
      (requestTaken_done ht hg (by simpa using hk) _).trans (verifyReceived_passes hd _)
    exact ⟨act_data_waits ha hgo, fun h hne hn => act_data_locked ha hgo h
      (requestLocked_lanes (y := { x with state := .waitLock }) rfl hk rfl (dataRefusal_none hd).1 hne) hw hn⟩

end Sys2Proof.Machine
end

section
/-!
A trial's write and its readback, and the remap that a good readback settles (R80, R113, R114, R119).
-/
namespace Sys2Proof.Machine

/-! ## The replies of a trial (R113) -/

theorem Lane.countWrite_good (L : Lane) : L.countWrite [.good] = L := by
  simp only [Lane.countWrite, Lane.count, show countStatus .writeFault [.good] = 0 by decide, satAdd_zero]

theorem Lane.countRead_good (L : Lane) : L.countRead [.good] = L := by
  simp only [Lane.countRead, Lane.count, show countStatus .corrected [.good] = 0 by decide,
    show countStatus .unreadable [.good] = 0 by decide, satAdd_zero]

section
variable {p : Part} {l : LaneId} {sv : Service} {tr : Trial} {block : Nat}
  (hs : (p.lane l).service = some sv) (ht : sv.trial = some tr)
include hs ht

/-- A trial's write of status GOOD is read back. -/
theorem writeReplyTaken_trial {d : Block} (ha : (p.lane l).awaited = some (.write block [d])) :
    writeReplyTaken l [0] p = p.setLane l
      (({ p.lane l with service := some { sv with trial := some { tr with reading := true } } } : Lane).begin
        (.read ((p.lane l).capacity.toNat - 256 + tr.spare) 1)) := by
  rw [writeReplyTaken_statuses (ss := [.good]) ha rfl rfl]
  set q := p.setLane l { p.lane l with txn := none } with hq
  have hql : q.lane l = { p.lane l with txn := none } := by rw [hq, Part.lane_setLane, if_pos rfl]
  have hqs : (q.lane l).service = some sv := by rw [hql]; exact hs
  simp only [writeCompleted, Part.modLane_eq, Lane.countWrite_good, ← hq, hqs, ht, beginTxn, if_true]
  rw [hql, hq]
  simp only [Part.lane_setLane, if_true, Part.setLane_setLane, Lane.modService, hs, Option.map_some]
  rfl

/-- A readback GOOD of equal content settles the spare as good. -/
theorem readReplyTaken_trial {data : Block} (ha : (p.lane l).awaited = some (.read block 1))
    (hi : (p.lane l).identification = none) (hd : sameBlock data tr.data = true) :
    readReplyTaken l [0] [data] p =
      settleGood l tr sv.op (p.setLane l { p.lane l with txn := none, readback := data }) := by
  rw [readReplyTaken_statuses (ss := [.good]) ha rfl rfl rfl]
  set q := p.modLane l fun L => { L.countRead [.good] with txn := none } with hq
  have hql : q.lane l = { (p.lane l).countRead [.good] with txn := none } := by rw [hq, Part.lane_modLane, if_pos rfl]
  have hqs : (q.lane l).service = some sv := by rw [hql]; exact hs
  have hqi : (q.lane l).identification = none := by rw [hql]; exact hi
  have hgood : (decide ([Status.good] = [.good]) && sameBlock ([data].headD zeroBlock) tr.data) = true := hd
  simp only [readCompleted, ← hq, hqi, hqs, ht]
  refine (if_pos hgood).trans ?_
  rw [if_neg (by decide), hq, Part.modLane_modLane]
  show settleGood l tr sv.op (p.setLane l { (p.lane l).countRead [.good] with txn := none, readback := data }) = _
  rw [Lane.countRead_good]

end

/-! ## Spare-next advances (R119) -/

theorem passEvent_setLane (ev : Event) (p : Part) (l : LaneId) (x : Lane) :
    passEvent ev (p.setLane l x) = (passEvent ev p).setLane l x := by
  cases h : p.engine.state <;> simp only [passEvent, Part.setLane_engine, h] <;> rfl

/-- The lane after the advance: SPARES_LOW is marked once spare-next has reached 224. -/
def Lane.advanced (L : Lane) (change : Lane → Lane) : Lane :=
  { change { L with spareNext := L.spareNext + 1 } with
    sparesLow := (change { L with spareNext := L.spareNext + 1 }).sparesLow
      || decide (224 ≤ (change { L with spareNext := L.spareNext + 1 }).spareNext) }

/-- SPARES_LOW passed where the lane `D` after the advance asks for it and has no mark yet. -/
def Part.sparesReported (p : Part) (l : LaneId) (block : Nat) (tag : Word) (D : Lane) : Part :=
  if decide (224 ≤ D.spareNext) && !D.sparesLow then
    passEvent (sparesLowEvent l block D.spareNext D.deadSpares tag) p else p

theorem advanceSpare_eq (l : LaneId) (block : Nat) (tag : Word) (change : Lane → Lane) (p : Part) :
    advanceSpare l block tag change p =
      (p.sparesReported l block tag (change { p.lane l with spareNext := (p.lane l).spareNext + 1 })).setLane l
        ((p.lane l).advanced change) := by
  set D := change { p.lane l with spareNext := (p.lane l).spareNext + 1 } with hD
  have hadv : (p.lane l).advanced change = { D with sparesLow := D.sparesLow || decide (224 ≤ D.spareNext) } := rfl
  have hlane : (p.setLane l D).lane l = D := by rw [Part.lane_setLane, if_pos rfl]
  unfold advanceSpare Part.sparesReported
  rw [hadv, Part.modLane_eq, ← hD]
  dsimp only
  rw [hlane, show Config.sparesLowAt = 224 from rfl]
  by_cases hlow : (decide (224 ≤ D.spareNext) && !D.sparesLow) = true
  · rw [if_pos hlow, if_pos hlow, Part.setLane_setLane, passEvent_setLane]
    rw [Bool.and_eq_true] at hlow
    rw [hlow.1, Bool.or_true]
  · rw [if_neg hlow, if_neg hlow]
    have hmark : (D.sparesLow || decide (224 ≤ D.spareNext)) = D.sparesLow := by
      cases hm : D.sparesLow <;> simp_all
    rw [hmark]

section
variable (p : Part) (l : LaneId) (block : Nat) (tag : Word) (D : Lane)

theorem Part.sparesReported_eq : ∃ j, p.sparesReported l block tag D = { p with journal := j } := by
  unfold Part.sparesReported
  split
  · exact passEvent_eq _ _
  · exact ⟨p.journal, rfl⟩

theorem Part.sparesReported_setLane (x : Lane) :
    (p.setLane l x).sparesReported l block tag D = (p.sparesReported l block tag D).setLane l x := by
  unfold Part.sparesReported
  split
  · exact passEvent_setLane ..
  · rfl

end

/-! ## The remap is settled (R114) -/

/-- A commit request noted while one is in flight (R58). -/
def Part.commitNoted (p : Part) : Part := { p with committer := { p.committer with requested := true } }

theorem Part.pieceCommand_congr {p q : Part} (hp : q.pool = p.pool) (hc : q.committer.buffers = p.committer.buffers) (op : LaneOp)
    (x : Piece) : q.pieceCommand op x = p.pieceCommand op x := by
  have href : q.refData = p.refData := by
    funext b
    cases b <;> simp only [Part.refData, Part.buffer, hp, hc]
  simp only [Part.pieceCommand, Part.opData, href]

/-- The lane with the good spare in its table. -/
def Lane.remapped (L : Lane) (t : Trial) : Lane := L.advanced (Lane.insertRemap t.block t.spare)

/-- The operation in service once its first fault is remapped. -/
def Service.faultRemapped (sv : Service) : Service := { sv with trial := none, faults := sv.faults.tail, remapped := true }

/-- The part with SPARES_LOW passed for a remap where it is due. -/
def Part.remapReported (p : Part) (l : LaneId) (t : Trial) (op : LaneOp) : Part :=
  p.sparesReported l t.block (p.remapTag op)
    (Lane.insertRemap t.block t.spare { p.lane l with spareNext := (p.lane l).spareNext + 1 })

theorem settleGood_eq {p : Part} {l : LaneId} {sv : Service} (hs : (p.lane l).service = some sv) (hc : p.committing) (t : Trial)
    (op : LaneOp) :
    settleGood l t op p = serviceNext l ((p.remapReported l t op).setLane l
      { (p.lane l).remapped t with service := some sv.faultRemapped }).commitNoted := by
  obtain ⟨j, hj⟩ := p.sparesReported_eq l t.block (p.remapTag op)
    (Lane.insertRemap t.block t.spare { p.lane l with spareNext := (p.lane l).spareNext + 1 })
  have hq : ((p.remapReported l t op).setLane l
      { (p.lane l).remapped t with service := some sv.faultRemapped }).committing := by
    unfold Part.remapReported
    rw [hj]
    exact hc
  have hserv : ((p.lane l).remapped t).service = some sv := hs
  unfold settleGood
  simp only [advanceSpare_eq, Part.setLane_modLane]
  refine congrArg (serviceNext l) ((congrArg requestCommit ?_).trans (requestCommit_committing hq))
  show Part.setLane _ l (((p.lane l).remapped t).modService _) = _
  simp only [Lane.modService, hserv, Option.map_some]
  rfl

/-- Settles O34: the write is read back; a good readback is settled, and the operation goes on or ends. -/
theorem trialsThatSucceedAreInserted : Obligations.TrialsThatSucceedAreInserted := by
  intro l s block sv tr hr p L hs ht
  refine ⟨fun d ha => State.act_of_setLane hr ((writeReplyTaken_trial hs ht ha).trans rfl), ?_⟩
  intro data ha hi hd hc hf hz dead low q D after
  set x : Lane := { D with service := some after, txn := none } with hx
  have hafter : sv.faultRemapped = after := by
    simp only [Service.faultRemapped, hf]
    rfl
  have hsettle : readReplyTaken l [0] [data] p = serviceNext l (q.setLane l x).commitNoted := by
    set y : Lane := { L with txn := none, readback := data } with hy
    have hlane : (p.setLane l y).lane l = y := by rw [Part.lane_setLane, if_pos rfl]
    have hys : ((p.setLane l y).lane l).service = some sv := by rw [hlane]; exact hs
    have hgood := settleGood_eq (p := p.setLane l y) hys hc tr sv.op
    refine (readReplyTaken_trial hs ht ha hi hd).trans (hgood.trans ?_)
    rw [hafter, Part.remapReported]
    rw [Part.sparesReported_setLane, Part.setLane_setLane, hlane]
    rfl
  have hlane : (q.setLane l x).commitNoted.lane l = x := (Part.lane_setLane q l l x).trans (if_pos rfl)
  have hserv : ((q.setLane l x).commitNoted.lane l).service = some after := by rw [hlane]
  obtain ⟨j, hj⟩ := p.sparesReported_eq l tr.block (p.remapTag sv.op)
    (Lane.insertRemap tr.block tr.spare { L with spareNext := L.spareNext + 1 })
  have hq : q = { p with journal := j } := hj
  have hnoted : (q.setLane l x).commitNoted =
      { q.setLane l x with committer := { p.committer with requested := true } } := by rw [hq]; rfl
  refine ⟨fun y rest htodo => ?_, fun htodo => ?_⟩
  · have hcmd : (q.setLane l x).commitNoted.pieceCommand after.op y = p.pieceCommand sv.op y := by
      rw [hq]
      exact Part.pieceCommand_congr rfl rfl sv.op y
    have hgo := hsettle.trans (serviceNext_todo hserv rfl hz htodo)
    rw [hcmd, hlane, hnoted] at hgo
    refine State.act_of_eq (hgo.trans (congrArg (fun r : Part => { r with
      committer := { p.committer with requested := true } }) (Part.setLane_setLane q l x _))) ?_
    refine ⟨?_, Part.haltTested_of_state ?_⟩
    · rw [hq]
      exact hr.1
    · rw [hq]
      exact fun h => by rcases hc.2 with h' | h' <;> exact absurd (h'.symm.trans h) (by decide)
  · exact State.opEnds_of (hsettle.trans ((serviceNext_ends hserv rfl hz htodo).trans (by rw [hnoted])))

end Sys2Proof.Machine
end

section
/-!
The places of a lane and the choice of its next operation (R75, R76, R77).
-/
namespace Sys2Proof.Machine

/-! ## The oldest operation of a class -/

theorem takeClass_some {c : OpClass} {ops rest : List LaneOp} {op : LaneOp} (h : takeClass c ops = some (op, rest)) :
    op.cls = c ∧ ∃ xs ys, ops = xs ++ op :: ys ∧ rest = xs ++ ys ∧ ∀ y ∈ xs, y.cls ≠ c := by
  induction ops generalizing rest with
  | nil => simp [takeClass] at h
  | cons o os ih =>
    unfold takeClass at h
    split at h
    · rename_i ho
      obtain ⟨rfl, rfl⟩ : o = op ∧ os = rest := by simpa using h
      exact ⟨ho, [], os, rfl, rfl, by simp⟩
    · rename_i ho
      obtain ⟨⟨op', rest'⟩, htake, heq⟩ := Option.map_eq_some_iff.1 h
      obtain ⟨rfl, rfl⟩ : op' = op ∧ o :: rest' = rest := by simpa using heq
      obtain ⟨hc, xs, ys, rfl, rfl, hxs⟩ := ih htake
      refine ⟨hc, o :: xs, ys, rfl, rfl, ?_⟩
      simpa using ⟨ho, hxs⟩

theorem takeClass_none {c : OpClass} {ops : List LaneOp} : takeClass c ops = none ↔ ∀ y ∈ ops, y.cls ≠ c := by
  induction ops with
  | nil => simp [takeClass]
  | cons o os ih =>
    unfold takeClass
    split
    · rename_i ho
      simp [ho]
    · rename_i ho
      simp [ih, ho]

/-! ## The choice (R77) -/

/-- The streak after an operation of a class is chosen (R77). -/
def OpClass.streakAfter (c : OpClass) (streak : Nat) : Nat :=
  match c with
  | .record => streak
  | .foreground => min 15 (streak + 1)
  | .background => 0

/-- A queue holds an operation of a class. -/
abbrev holdsClass (ops : List LaneOp) (c : OpClass) : Prop := ∃ op ∈ ops, op.cls = c

theorem takeClass_none_iff {c : OpClass} {ops : List LaneOp} : takeClass c ops = none ↔ ¬ holdsClass ops c := by
  rw [takeClass_none]
  simp [holdsClass]

/-- When each class is chosen: RECORD where there is one, else FOREGROUND or BACKGROUND by the streak and the share ratio. -/
theorem choose_some {share streak after : Nat} {ops rest : List LaneOp} {op : LaneOp}
    (h : choose share streak ops = some (op, rest, after)) :
    takeClass op.cls ops = some (op, rest) ∧ after = op.cls.streakAfter streak
      ∧ (op.cls = .record
        ∨ ¬ holdsClass ops .record
          ∧ (op.cls = .foreground ∧ (¬ holdsClass ops .background ∨ streak < share)
            ∨ op.cls = .background ∧ (¬ holdsClass ops .foreground ∨ share ≤ streak))) := by
  unfold choose at h
  cases hr : takeClass .record ops with
  | some r =>
    obtain ⟨rfl, rfl, rfl⟩ : r.1 = op ∧ r.2 = rest ∧ streak = after := by simpa [hr] using h
    have hc := (takeClass_some hr).1
    exact ⟨hc ▸ hr, by rw [hc]; rfl, .inl hc⟩
  | none =>
    rw [hr] at h
    have hnr := takeClass_none_iff.1 hr
    cases hf : takeClass .foreground ops with
    | none =>
      cases hb : takeClass .background ops with
      | none => simp [hf, hb] at h
      | some b =>
        obtain ⟨rfl, rfl, rfl⟩ : b.1 = op ∧ b.2 = rest ∧ 0 = after := by simpa [hf, hb] using h
        have hc := (takeClass_some hb).1
        exact ⟨hc ▸ hb, by rw [hc]; rfl, .inr ⟨hnr, .inr ⟨hc, .inl (takeClass_none_iff.1 hf)⟩⟩⟩
    | some f =>
      have hcf := (takeClass_some hf).1
      cases hb : takeClass .background ops with
      | none =>
        obtain ⟨rfl, rfl, rfl⟩ : f.1 = op ∧ f.2 = rest ∧ min 15 (streak + 1) = after := by simpa [hf, hb] using h
        exact ⟨hcf ▸ hf, by rw [hcf]; rfl, .inr ⟨hnr, .inl ⟨hcf, .inl (takeClass_none_iff.1 hb)⟩⟩⟩
      | some b =>
        have hcb := (takeClass_some hb).1
        by_cases hs : share ≤ streak
        · obtain ⟨rfl, rfl, rfl⟩ : b.1 = op ∧ b.2 = rest ∧ 0 = after := by simpa [hf, hb, hs] using h
          exact ⟨hcb ▸ hb, by rw [hcb]; rfl, .inr ⟨hnr, .inr ⟨hcb, .inr hs⟩⟩⟩
        · obtain ⟨rfl, rfl, rfl⟩ : f.1 = op ∧ f.2 = rest ∧ min 15 (streak + 1) = after := by simpa [hf, hb, hs] using h
          exact ⟨hcf ▸ hf, by rw [hcf]; rfl, .inr ⟨hnr, .inl ⟨hcf, .inr (Nat.lt_of_not_le hs)⟩⟩⟩

/-- Nothing is chosen of an empty queue alone. -/
theorem choose_none {share streak : Nat} {ops : List LaneOp} : choose share streak ops = none ↔ ops = [] := by
  refine ⟨fun h => ?_, fun h => by rw [h]; rfl⟩
  have hall : ∀ c, takeClass c ops = none := by
    unfold choose at h
    cases hr : takeClass .record ops with
    | some r => simp [hr] at h
    | none =>
      cases hf : takeClass .foreground ops with
      | none =>
        cases hb : takeClass .background ops with
        | none => exact fun c => by cases c <;> assumption
        | some b => simp [hr, hf, hb] at h
      | some f =>
        cases hb : takeClass .background ops with
        | none => simp [hr, hf, hb] at h
        | some b =>
          rw [hr, hf, hb] at h
          dsimp only at h
          split at h <;> simp at h
  cases ops with
  | nil => rfl
  | cons o os => exact absurd rfl (takeClass_none.1 (hall o.cls) o List.mem_cons_self)

/-- The one operation of a queue is chosen. -/
theorem choose_single (share streak : Nat) (op : LaneOp) :
    choose share streak [op] = some (op, [], op.cls.streakAfter streak) := by
  cases h : choose share streak [op] with
  | none => exact absurd (choose_none.1 h) (by simp)
  | some r =>
    obtain ⟨op', rest, after⟩ := r
    obtain ⟨htake, rfl, -⟩ := choose_some h
    obtain ⟨-, xs, ys, hq, rfl, -⟩ := takeClass_some htake
    obtain ⟨rfl, rfl, rfl⟩ : xs = [] ∧ op' = op ∧ ys = [] := by
      cases xs <;> simp_all
    rfl

/-- R77 in full: the operation chosen is the oldest of its class, and the class is the one that R77 puts first. -/
theorem choose_spec {share streak after : Nat} {ops rest : List LaneOp} {op : LaneOp}
    (h : choose share streak ops = some (op, rest, after)) :
    (∃ xs ys, ops = xs ++ op :: ys ∧ rest = xs ++ ys ∧ ∀ y ∈ xs, y.cls ≠ op.cls)
    ∧ (holdsClass ops .record → op.cls = .record)
    ∧ (¬ holdsClass ops .record → holdsClass ops .foreground → ¬ holdsClass ops .background ∨ streak < share →
        op.cls = .foreground)
    ∧ (¬ holdsClass ops .record → holdsClass ops .background → ¬ holdsClass ops .foreground ∨ share ≤ streak →
        op.cls = .background)
    ∧ after = op.cls.streakAfter streak := by
  obtain ⟨htake, hafter, hwhen⟩ := choose_some h
  obtain ⟨-, xs, ys, hq, hrest, hxs⟩ := takeClass_some htake
  have hmem : holdsClass ops op.cls := ⟨op, by simp [hq], rfl⟩
  refine ⟨⟨xs, ys, hq, hrest, hxs⟩, fun hr => ?_, fun hr hf hs => ?_, fun hr hb hs => ?_, hafter⟩
  · rcases hwhen with hc | ⟨hnr, -⟩
    · exact hc
    · exact absurd hr hnr
  · rcases hwhen with hc | ⟨-, ⟨hc, -⟩ | ⟨hc, hor⟩⟩
    · exact absurd (hc ▸ hmem) hr
    · exact hc
    · rw [hc] at hmem
      rcases hor with hnf | hle
      · exact absurd hf hnf
      · exact hs.elim (absurd hmem) fun hlt => absurd hle (Nat.not_le.2 hlt)
  · rcases hwhen with hc | ⟨-, ⟨hc, hor⟩ | ⟨hc, -⟩⟩
    · exact absurd (hc ▸ hmem) hr
    · rw [hc] at hmem
      rcases hor with hnb | hlt
      · exact absurd hb hnb
      · exact hs.elim (absurd hmem) fun hle => absurd hle (Nat.not_le.2 hlt)
    · exact hc

/-! ## The lane controller (R76, R77) -/

section
variable {p : Part} {l : LaneId}

/-- While an operation is in service, a transaction is out, HOLD is asserted or the lane is not serviceable nothing is chosen. -/
theorem laneChoose_rests (h : (p.lane l).service ≠ none ∨ (p.lane l).txn ≠ none ∨ (p.lane l).hold = true ∨ p.serviceable l = false) :
    laneChoose l p = p := by
  have hc : p.chooses l = false := by
    unfold Part.chooses
    rcases h with h | h | h | h
    · simp [Option.isSome_iff_ne_none.2 h]
    · simp [Option.isSome_iff_ne_none.2 h]
    · simp [h]
    · simp [show (p.lane l).runtime.serviceable = false from h]
  simp [laneChoose_eq, hc]

/-- The operation chosen becomes IN_SERVICE and is to be begun. -/
theorem laneChoose_serves (hs : (p.lane l).service = none) (ht : (p.lane l).txn = none) (hh : (p.lane l).hold = false)
    (hsv : p.serviceable l = true) {op : LaneOp} {rest : List LaneOp} {after : Nat}
    (hc : choose p.engine.share (p.lane l).streak (p.lane l).queue = some (op, rest, after)) :
    laneChoose l p =
      (p.setLane l { p.lane l with queue := rest, streak := after, service := some (p.serve l op) }).push [.laneStart l] := by
  have hchooses : p.chooses l = true := by
    simp [Part.chooses, hs, ht, hh, show (p.lane l).runtime.serviceable = true from hsv]
  rw [laneChoose_eq, hchooses, hc]

/-- With every place taken the operation waits for one (R76). -/
theorem enqueue_waits (op : LaneOp) (h : 16 ≤ (p.lane l).places) :
    enqueue l op p = p.setLane l { p.lane l with waiters := (p.lane l).waiters ++ [op] } :=
  if_neg (Nat.not_lt.2 h)

/-- With a place free the operation takes it, and the lane chooses. -/
theorem enqueue_placed (op : LaneOp) (h : (p.lane l).places < 16) :
    enqueue l op p = laneChoose l (p.setLane l { p.lane l with queue := (p.lane l).queue ++ [op] }) :=
  if_pos h

/-- A lane that may not choose keeps the operation QUEUED. -/
theorem enqueue_queued (op : LaneOp) (h : (p.lane l).places < 16)
    (hr : (p.lane l).service ≠ none ∨ (p.lane l).txn ≠ none ∨ (p.lane l).hold = true) :
    enqueue l op p = p.setLane l { p.lane l with queue := (p.lane l).queue ++ [op] } := by
  rw [enqueue_placed op h]
  refine laneChoose_rests ?_
  rw [Part.lane_setLane, if_pos rfl]
  rcases hr with hr | hr | hr
  · exact .inl hr
  · exact .inr (.inl hr)
  · exact .inr (.inr (.inl hr))

/-- An idle lane serves the operation at once. -/
theorem enqueue_served (op : LaneOp) (hs : (p.lane l).service = none) (hq : (p.lane l).queue = []) (ht : (p.lane l).txn = none)
    (hh : (p.lane l).hold = false) (hsv : p.serviceable l = true) :
    enqueue l op p = (p.setLane l { p.lane l with
      service := some (p.serve l op), streak := op.cls.streakAfter (p.lane l).streak }).push [.laneStart l] := by
  set q := p.setLane l { p.lane l with queue := (p.lane l).queue ++ [op] } with hqdef
  have hql : q.lane l = { p.lane l with queue := (p.lane l).queue ++ [op] } := by rw [hqdef, Part.lane_setLane, if_pos rfl]
  have hserve : q.serve l op = p.serve l op := by
    unfold Part.serve
    rw [hql]
    rfl
  have hchoose : choose q.engine.share (q.lane l).streak (q.lane l).queue =
      some (op, [], op.cls.streakAfter (p.lane l).streak) := by
    rw [hql, hq]
    exact choose_single _ _ _
  have hplaces : (p.lane l).places < 16 := by simp [Lane.places, hs, hq]
  have hsv' : q.serviceable l = true := by
    unfold Part.serviceable
    rw [hql]
    exact hsv
  rw [enqueue_placed op hplaces, laneChoose_serves (by rw [hql]; exact hs) (by rw [hql]; exact ht) (by rw [hql]; exact hh) hsv' hchoose,
    hserve, hql, hqdef, Part.setLane_setLane, ← hq]

end

end Sys2Proof.Machine
end

section
/-!
The data fetch of a WRITE, the WRITE at the lanes, and its outcome (R94, R102 to R104).
-/
namespace Sys2Proof.Machine

/-! ## The staging buffers filled -/

/-- The part with other contents in the staging buffers. -/
def Part.withData (p : Part) (d : Vector Block 64) : Part := { p with pool := { p.pool with data := d } }

/-- Filling buffers changes the contents of the pool alone. -/
theorem fillBuffers_eq (bufs : List BufId) (ds : List Block) (p : Part) : ∃ d, fillBuffers bufs ds p = p.withData d := by
  unfold fillBuffers
  generalize bufs.zip ds = ys
  induction ys generalizing p with
  | nil => exact ⟨p.pool.data, rfl⟩
  | cons y ys ih =>
    obtain ⟨d, hd⟩ := ih (p.setBuffer y.1 y.2)
    exact ⟨d, hd⟩

/-! ## The end of the data fetch (R102) -/

section
variable {p : Part} {e : EntryId} {x : Entry} (h : p.entry e = some x) (hk : x.req.kind = kindWrite) (hs : x.state = .fetching)
include h hk hs

theorem writeFetched_fault : writeFetched e none p = refuse e .busFault p := by
  simp [writeFetched, h, hk, hs]

/-- The data of every block is at hand: the WRITE comes to its lanes. -/
theorem writeFetched_data {ds : List Block} {d : Vector Block 64} (hl : ds.length = x.req.count.toNat)
    (hd : fillBuffers (p.pool.bufsOf (.request e)) ds p = p.withData d) :
    writeFetched e (some ds) p = writeTest e x.req ((p.withData d).setEntry e (some { x with state := .atLanes })) := by
  have hblocks : (ds ++ List.replicate x.req.count.toNat zeroBlock).take x.req.count.toNat = ds := by
    rw [← hl, List.take_left]
  have hstate : setEntryState e .atLanes (p.withData d) = (p.withData d).setEntry e (some { x with state := .atLanes }) :=
    setEntryState_eq (p := p.withData d) h .atLanes
  rw [← hstate, ← hd]
  simp [writeFetched, h, hk, hs, hblocks]

end

/-! ## The step in which the data fetch ends -/

/-- The part with the WRITE of entry `e`, which stands as `x`, at the lanes with its work. -/
def Part.writing (p : Part) (e : EntryId) (x : Entry) (w : WriteWork) : Part :=
  p.setEntry e (some { x with state := .atLanes, work := .write w })

theorem Part.writing_entry (p : Part) (e : EntryId) (x : Entry) (w : WriteWork) :
    (p.writing e x w).entry e = some { x with state := .atLanes, work := .write w } :=
  Part.entry_withTable_same ..

theorem setWork_writing (p : Part) (e : EntryId) (x : Entry) (w : WriteWork) :
    setWork e (.write w) (p.setEntry e (some { x with state := .atLanes })) = p.writing e x w :=
  setWork_withTable ..

/-- The operation by which a WRITE writes its range to a target (R102). -/
abbrev Part.writeOp (p : Part) (e : EntryId) (r : Request) : LaneOp :=
  ⟨.foreground, .write, (p.vol r.volume).first + r.first.toNat, r.count.toNat, (p.pool.bufsOf (.request e)).map .staging,
    .request e, false⟩

/-- The targets of a WRITE: the ONLINE and REBUILDING members of its volume (R102). -/
abbrev Part.writeTargets (p : Part) (r : Request) : List LaneId := (p.vol r.volume).members.lanes.filter p.serviceable

theorem Part.isLost_iff {p : Part} {v : VolId} : p.isLost v = true ↔ (p.vol v).state = .lost := by
  simp [Part.isLost]

theorem Part.writeTargets_nodup (p : Part) (r : Request) : (p.writeTargets r).Nodup :=
  ((List.nodup_finRange 4).filter _).filter _

section
variable {s : State} {e : EntryId} {x : Entry} {f : Part → Part} {d : Vector Block 64} (ha : s.part.agenda = [])
  (hf : f s.part = writeTest e x.req ((s.part.withData d).setEntry e (some { x with state := .atLanes })))

include ha hf in
/-- On a volume that is LOST the WRITE releases and finishes LOST (R94). -/
theorem act_write_lost (hw : s.part.noWaiters) (hl : (s.part.vol x.req.volume).state = .lost) :
    s.act f = .next (s.withPart (((s.part.withData d).released (.request e)).finished e x .lost 0 0 0)) := by
  set q : Part := (s.part.withData d).setEntry e (some { x with state := .atLanes })
  have hq : f s.part = (q.released (.request e)).finished e { x with state := .atLanes } .lost 0 0 0 :=
    (hf.trans (if_pos ((Part.isLost_iff (p := s.part)).2 hl))).trans
      (finish_noWaiters (p := q) hw (Part.entry_withTable_same (s.part.withData d) ..) .lost 0 0 0)
  have hfin : (q.released (.request e)).finished e { x with state := .atLanes } .lost 0 0 0 =
      ((s.part.withData d).released (.request e)).finished e x .lost 0 0 0 := by
    simp [q, Part.finished, Part.released, Entry.finished, Part.setEntry]
  exact State.act_of_eq (hq.trans hfin) (Part.atRest_finished (p := (s.part.withData d).released (.request e)) ha ..)

include ha hf in
/-- With a departure hold the WRITE waits at the lanes (R102). -/
theorem act_write_held (hl : (s.part.vol x.req.volume).state ≠ .lost) (hh : (s.part.vol x.req.volume).hold ≠ .none) :
    s.act f = .next (s.withPart ((s.part.withData d).writing e x ⟨true, 0, 0, 0⟩)) := by
  have hq : f s.part = setWork e (.write ⟨true, 0, 0, 0⟩)
      ((s.part.withData d).setEntry e (some { x with state := .atLanes })) :=
    (hf.trans (if_neg (mt (Part.isLost_iff (p := s.part)).1 hl))).trans (if_pos hh)
  exact State.act_of_eq (hq.trans (setWork_writing ..)) (Part.atRest_of_entry ha (Part.writing_entry ..))

include hf in
/-- Otherwise one FOREGROUND WRITE of the range is issued to each target (R102). -/
theorem write_issues (hl : (s.part.vol x.req.volume).state ≠ .lost) (hh : (s.part.vol x.req.volume).hold = .none) :
    f s.part = enqueueEach (s.part.writeTargets x.req) (fun _ => s.part.writeOp e x.req)
      ((s.part.withData d).writing e x ⟨false, LaneMask.ofList (s.part.writeTargets x.req), 0, 0⟩) := by
  have hq : f s.part = writeTargets e x.req ((s.part.withData d).setEntry e (some { x with state := .atLanes })) :=
    (hf.trans (if_neg (mt (Part.isLost_iff (p := s.part)).1 hl))).trans (if_neg (not_not.2 hh))
  refine hq.trans ?_
  unfold Machine.writeTargets
  simp only [setWork_writing]
  rfl

include ha hf in
/-- Where each target is busy and has a place free, each queues its operation and nothing else changes. -/
theorem act_write_busy (hl : (s.part.vol x.req.volume).state ≠ .lost) (hh : (s.part.vol x.req.volume).hold = .none)
    (hb : ∀ l ∈ s.part.writeTargets x.req, (s.part.lane l).service ≠ none ∧ (s.part.lane l).places < 16) :
    ∃ lanes : Vector Lane 4,
      let q : Part := { (s.part.withData d).writing e x ⟨false, LaneMask.ofList (s.part.writeTargets x.req), 0, 0⟩ with
        lanes := lanes }
      s.act f = .next (s.withPart q)
      ∧ ∀ l, q.lane l = if l ∈ s.part.writeTargets x.req
          then { s.part.lane l with queue := (s.part.lane l).queue ++ [s.part.writeOp e x.req] } else s.part.lane l := by
  have hd : ((s.part.writeTargets x.req).map id).Nodup := by
    rw [List.map_id]
    exact s.part.writeTargets_nodup x.req
  obtain ⟨hq, hin, hout⟩ := foldl_enqueue_busy (lane := id) (fun _ => s.part.writeOp e x.req) hd
    (p := (s.part.withData d).writing e x ⟨false, LaneMask.ofList (s.part.writeTargets x.req), 0, 0⟩) hb
  set q := (s.part.writeTargets x.req).foldl (fun q l => enqueue (id l) (s.part.writeOp e x.req) q)
    ((s.part.withData d).writing e x ⟨false, LaneMask.ofList (s.part.writeTargets x.req), 0, 0⟩)
  have hrest : q.atRest := by
    rw [hq]
    exact Part.atRest_of_entry (e := e) ha (Part.writing_entry (s.part.withData d) ..)
  refine ⟨q.lanes, (State.act_of_eq (write_issues hf hl hh) hrest).trans
    (congrArg (fun z => Host.Outcome.next (s.withPart z)) hq), fun l => ?_⟩
  split
  case isTrue hm => exact hin l hm
  case isFalse hm => exact hout l (by rwa [List.map_id])

end

/-! ## The end of a target's operation (R103, R104) -/

/-- The work of a WRITE with the end of a target's operation noted. -/
def WriteWork.noted (w : WriteWork) (l : LaneId) : OpEnd → WriteWork
  | .completed _ _ => { w with completed := w.completed.add l }
  | .laneLost => { w with lost := w.lost.add l }

/-- Every target has ended when each has completed or is lost. -/
theorem WriteWork.ended_iff (w : WriteWork) :
    w.ended = true ↔ ∀ m, w.targets.has m = true → w.completed.has m = true ∨ w.lost.has m = true := by
  have hbits : (w.targets &&& ~~~(w.completed ||| w.lost) = 0) ↔
      ∀ m : LaneId, (w.targets &&& ~~~(w.completed ||| w.lost)).getLsbD m.val = false := by
    refine ⟨fun h m => by rw [h]; exact BitVec.getLsbD_zero, fun h => ?_⟩
    exact BitVec.eq_of_getLsbD_eq fun i hi => (h ⟨i, hi⟩).trans BitVec.getLsbD_zero.symm
  unfold WriteWork.ended
  rw [decide_eq_true_iff, hbits]
  refine forall_congr' fun m => ?_
  have hm : m.val < 4 := m.isLt
  simp only [LaneMask.has, BitVec.getLsbD_and, BitVec.getLsbD_not, BitVec.getLsbD_or, hm, decide_true, Bool.true_and]
  cases w.targets.getLsbD m.val <;> cases w.completed.getLsbD m.val <;> simp

section
variable {p : Part} {e : EntryId} {x : Entry} {w : WriteWork}

/-- The part with the work of the WRITE of entry `e` set. -/
def Part.withWrite (p : Part) (e : EntryId) (x : Entry) (w : WriteWork) : Part := p.setEntry e (some { x with work := .write w })

theorem releaseAll_withWrite_entry (p : Part) (e : EntryId) (x : Entry) (w : WriteWork) (h : Holder) :
    (releaseAll h (p.withWrite e x w)).entry e = some { x with work := .write w } :=
  Part.entry_withTable_same p ..

/-- The end of a target's operation is noted; with the last one the WRITE ends. -/
theorem operationEnded_write {op : LaneOp} (ho : op.producer = .request e) (he : p.entry e = some x) (hw : x.work = .write w)
    (l : LaneId) (res : OpEnd) : operationEnded l op res p =
      if (w.noted l res).ended then writeEnd e (w.noted l res) (p.withWrite e x (w.noted l res))
      else p.withWrite e x (w.noted l res) := by
  rw [operationEnded_request ho]
  simp only [requestOpEnded, he, hw, writeOpEnded, setWork_eq he]
  cases res <;> rfl

/-- With no lost target to be committed the WRITE finishes at once (R104). -/
theorem writeEnd_unmarked (hm : x.mark = .none) : writeEnd e w (p.withWrite e x w) =
    complete e (p.writeOutcome w) w.completed (w.targets.setWidth 32) 0 (releaseAll (.request e) (p.withWrite e x w)) := by
  simp only [writeEnd, releaseAll_withWrite_entry]
  exact if_pos hm

/-- With a lost target to be committed the WRITE waits for the commit (R103, R104). -/
theorem writeEnd_marked (hm : x.mark ≠ .none) : writeEnd e w (p.withWrite e x w) =
    { releaseAll (.request e) (p.withWrite e x w) with
      table := p.table.set e.val (some { x with
        state := .waitCommit, work := .none, outcome := p.writeOutcome w, laneMask := w.completed
        detailA := w.targets.setWidth 32, detailB := 0 }) } := by
  have he := releaseAll_withWrite_entry p e x w (.request e)
  have ht : (releaseAll (.request e) (p.withWrite e x w)).table = p.table.set e.val (some { x with work := .write w }) := rfl
  simp only [writeEnd, he]
  refine (if_neg hm).trans ?_
  rw [Part.modEntry_eq he, ht, Vector.set_set]
  rfl

end

/-- Settles O51: the fetch of the data, the places of a lane, the choice of an operation, and the ends of a WRITE's targets. -/
theorem writeDataGoesToTheTargets : Obligations.WriteDataGoesToTheTargets := by
  refine ⟨?_, ?_, ?_, ?_, ?_⟩
  · intro e x s data ha he hk hs hl p r vol bufs filled targets op
    obtain ⟨d, hd⟩ := fillBuffers_eq bufs data p
    have hfilled : filled = s.part.withData d := hd
    have hf := writeFetched_data he hk hs hl hd
    rw [hfilled]
    refine ⟨fun hw => act_finish ha hw he (writeFetched_fault he hk hs), act_write_lost ha hf, fun hv hh =>
      State.act_withPart (g := id) (write_issues hf hv hh), act_write_held ha hf, fun hv hh hb => ?_⟩
    obtain ⟨lanes, hnext, hlanes⟩ := act_write_busy ha hf hv hh hb
    exact ⟨_, hnext, rfl, hlanes, rfl, rfl, rfl, rfl, rfl, rfl, rfl⟩
  · intro l op p L
    exact ⟨enqueue_waits op, enqueue_queued op, enqueue_served op⟩
  · intro share streak queue has
    exact ⟨choose_none, fun op rest after h => choose_spec h⟩
  · intro l p L
    exact ⟨laneChoose_rests, fun hs ht hh hsv => ⟨laneChoose_emptyQueue, fun op rest after => laneChoose_serves hs ht hh hsv⟩,
      rfl, enqueue_placed⟩
  · intro e x w l op res p ho he hw completed lost noted outcome
    have hop := operationEnded_write ho he hw l res
    have hwork : w.noted l res = { w with completed := completed, lost := lost } := by cases res <;> rfl
    rw [hwork] at hop
    have hended := WriteWork.ended_iff { w with completed := completed, lost := lost }
    refine ⟨fun ⟨m, ht, hc, hm⟩ => hop.trans (if_neg fun hall => ?_), fun hall => ?_⟩
    · simpa [hc, hm] using hended.1 hall m ht
    · rw [hop, if_pos (hended.2 hall)]
      exact ⟨writeEnd_unmarked, writeEnd_marked⟩

end Sys2Proof.Machine
end

section
/-!
The checks of READ, WRITE and VERIFY, in their order (R92, R93).
-/
namespace Sys2Proof.Machine

theorem kindRead_ne_kindWrite : kindRead ≠ kindWrite := by decide

theorem kindRead_ne_kindVerify : kindRead ≠ kindVerify := by decide

theorem kindWrite_ne_kindVerify : kindWrite ≠ kindVerify := by decide

/-! ## The format check (R92, check 2) -/

/-- The copy selects of a READ: a lane number, or 0Fh for the policy (R92). -/
theorem copySelect_iff (b : Byte) : (b.toNat ≤ 3 ∨ b = 0x0F) ↔ b ∈ [0, 1, 2, 3, 0x0F] := by
  simp only [List.mem_cons, List.not_mem_nil, or_false]
  bv_omega

theorem LaneMask.eq_zero_iff (m : LaneMask) : m = 0 ↔ ∀ l, m.has l = false := by
  refine ⟨fun h l => by rw [h]; exact BitVec.getLsbD_zero, fun h => ?_⟩
  exact BitVec.eq_of_getLsbD_eq fun i hi => (h ⟨i, hi⟩).trans BitVec.getLsbD_zero.symm

/-- A lane mask goes outside the members of a volume when it names a lane that is none. -/
theorem LaneMask.outside_iff (mask : Byte) (members : LaneMask) :
    (mask.setWidth 4 : LaneMask) &&& ~~~members ≠ 0 ↔
      (allLanes.any fun l => mask.getLsbD l.val && !members.has l) = true := by
  have hhas : ∀ l, LaneMask.has ((mask.setWidth 4 : LaneMask) &&& ~~~members) l
      = (mask.getLsbD l.val && !members.has l) := fun l => by
    simp [LaneMask.has, l.isLt]
  rw [ne_eq, LaneMask.eq_zero_iff, List.any_eq_true]
  simp only [hhas, mem_allLanes, true_and, not_forall, Bool.not_eq_false]

/-- The format check of the three kinds: the alignment is READ's and WRITE's, the copy select READ's, the lane mask VERIFY's. -/
theorem dataMalformed_eq {r : Request} (members : LaneMask)
    (hk : r.kind = kindRead ∨ r.kind = kindWrite ∨ r.kind = kindVerify) :
    dataMalformed r members =
      (r.count = 0 || 16 < r.count.toNat || (r.kind ≠ kindVerify && decide (r.address.toNat % 64 ≠ 0))
        || (r.kind = kindRead && decide (r.selector ∉ [0, 1, 2, 3, 0x0F]))
        || (r.kind = kindVerify && (16 ≤ r.selector.toNat
          || allLanes.any fun l => r.selector.getLsbD l.val && !members.has l))) := by
  have hselect : (decide (r.selector.toNat ≤ 3) || decide (r.selector = 0x0F)) = decide (r.selector ∈ [0, 1, 2, 3, 0x0F]) := by
    rw [← Bool.decide_or]
    exact decide_eq_decide.2 (copySelect_iff r.selector)
  have hmask : decide ((r.selector.setWidth 4 : LaneMask) &&& ~~~members ≠ 0) =
      allLanes.any fun l => r.selector.getLsbD l.val && !members.has l := by
    rw [Bool.eq_iff_iff, decide_eq_true_iff]
    exact LaneMask.outside_iff ..
  rw [dataMalformed, aligned64, hselect, hmask]
  rcases hk with hk | hk | hk
  · simp [hk, kindRead_ne_kindVerify]
  · simp [hk, kindRead_ne_kindWrite.symm, kindWrite_ne_kindVerify]
  · simp [hk, kindRead_ne_kindVerify.symm, kindWrite_ne_kindVerify.symm, Nat.succ_le_iff]

/-! ## The checks in order -/

/-- The checks of R92: the target, the format, the range, and the volume's state; a later check counts when they pass. -/
theorem dataRefusal_or (r : Request) (p : Part) (later : Option ReqOutcome) :
    (dataRefusal r p).or later =
      if 8 ≤ r.target.toNat || !(p.vol r.volume).inUse || (p.vol r.volume).state = .filling then some .refusedVolume
      else if dataMalformed r (p.vol r.volume).members then some .refusedFormat
      else if (p.vol r.volume).length < r.first.toNat + r.count.toNat then some .refusedRange
      else if (p.vol r.volume).state = .lost then some .lost
      else later := by
  by_cases ht : r.target.toNat < 8
  · have hv := volOf_of_lt ht
    have hvol : r.volume = ⟨r.target.toNat, ht⟩ := by simp [Request.volume, hv]
    have hready : (!p.ready r.volume) =
        (decide (8 ≤ r.target.toNat) || !(p.vol r.volume).inUse || (p.vol r.volume).state = .filling) := by
      simp [Part.ready, Nat.not_le.2 ht]
    rw [dataRefusal, hv]
    simp only [← hvol, hready, Part.isLost_iff]
    split_ifs <;> rfl
  · have hv : volOf r.target = none := dif_neg ht
    simp [dataRefusal, hv, Nat.not_lt.1 ht]

/-- The check of R93: a copy select that names a lane names an ONLINE member. -/
theorem namedRefusal_eq (r : Request) (p : Part) :
    namedRefusal r p =
      if r.selector.toNat ≤ 3
          && !(allLanes.any fun l => l.val = r.selector.toNat && (p.vol r.volume).members.has l && p.online l) then
        some .refusedLane
      else none := by
  unfold namedRefusal Request.namedLane
  cases hl : laneOf r.selector with
  | none =>
    have hgt : ¬ r.selector.toNat < 4 := by
      simpa [laneOf] using hl
    simp [show ¬ r.selector.toNat ≤ 3 by omega]
  | some k =>
    have hk : r.selector.toNat = k.val := laneOf_eq_some.1 hl
    have hany : (allLanes.any fun l => l.val = r.selector.toNat && (p.vol r.volume).members.has l && p.online l) =
        p.onlineMember r.volume k := by
      rw [Bool.eq_iff_iff]
      simp [hk, mem_allLanes, Part.onlineMember, ← Fin.ext_iff]
    rw [hany]
    cases hon : p.onlineMember r.volume k <;> simp [hk, hon, Nat.le_of_lt_succ k.isLt]

/-! ## A data request that a check refuses -/

section
variable {p : Part} {e : EntryId} {r : Request} {o : ReqOutcome}

theorem readReceived_refused (h : (dataRefusal r p).or (namedRefusal r p) = some o) (y : Entry) :
    readReceived e r (p.taken e y) = refuse e o (p.taken e y) := by
  have h' : (dataRefusal r (p.taken e y)).or (namedRefusal r (p.taken e y)) = some o := h
  rw [readReceived, h']

theorem writeReceived_refused (h : dataRefusal r p = some o) (y : Entry) :
    writeReceived e r (p.taken e y) = refuse e o (p.taken e y) := by
  have h' : dataRefusal r (p.taken e y) = some o := h
  rw [writeReceived, h']

theorem verifyReceived_refused (h : dataRefusal r p = some o) (y : Entry) :
    verifyReceived e r (p.taken e y) = refuse e o (p.taken e y) := by
  have h' : dataRefusal r (p.taken e y) = some o := h
  rw [verifyReceived, h']

end

/-- The checks of a data request: those of R92 and then, of a READ, that of R93. -/
def Part.dataChecks (p : Part) (r : Request) : Option ReqOutcome :=
  (dataRefusal r p).or (if r.kind = kindRead then namedRefusal r p else none)

/-- The row of each kind makes that kind's checks, and finishes a request of which one fails. -/
theorem exec_takenRow_refused {s : State} {e : EntryId} {x : Entry} {o : ReqOutcome} (ha : s.part.agenda = [])
    (ht : s.part.takes e x) (hkept : s.part.Kept) (hn : s.part.holdsNothing (.request e)) (hg : genericRefusal x.req = none)
    (hk : x.req.kind = kindRead ∨ x.req.kind = kindWrite ∨ x.req.kind = kindVerify)
    (ho : s.part.dataChecks x.req = some o) :
    exec (takenRow x.req .done) s = .next (s.withPart ((s.part.taken e x).finished e x o 0 0 0)) := by
  have hrefuse := refuse_taken x hkept hn o
  rcases hk with hk | hk | hk
  · have hrow : takenRow x.req .done = .read .done := if_pos hk
    have hchecks : (dataRefusal x.req s.part).or (namedRefusal x.req s.part) = some o := by
      simpa [Part.dataChecks, hk] using ho
    have hgo := requestTaken_done ht hg (mine := (·.kind = kindRead)) (by simpa using hk) readReceived
    rw [hrow]
    exact act_taken_finished ha (hgo.trans ((readReceived_refused hchecks _).trans hrefuse))
  · have hrow : takenRow x.req .done = .write .done := by simp [takenRow, hk, kindRead_ne_kindWrite.symm]
    have hchecks : dataRefusal x.req s.part = some o := by
      simpa [Part.dataChecks, hk, kindRead_ne_kindWrite.symm] using ho
    have hgo := requestTaken_done ht hg (mine := (·.kind = kindWrite)) (by simpa using hk) writeReceived
    rw [hrow]
    exact act_taken_finished ha (hgo.trans ((writeReceived_refused hchecks _).trans hrefuse))
  · have hrow : takenRow x.req .done = .verify .done := by
      simp [takenRow, hk, kindRead_ne_kindVerify.symm, kindWrite_ne_kindVerify.symm]
    have hchecks : dataRefusal x.req s.part = some o := by
      simpa [Part.dataChecks, hk, kindRead_ne_kindVerify.symm] using ho
    have hgo := requestTaken_done ht hg (mine := (·.kind = kindVerify)) (by simpa using hk) verifyReceived
    rw [hrow]
    exact act_taken_finished ha (hgo.trans ((verifyReceived_refused hchecks _).trans hrefuse))

/-- Settles O40: the statement's checks are the row's, and the first that fails refuses the request. -/
theorem dataRequestsAreCheckedInOrder : Obligations.DataRequestsAreCheckedInOrder := by
  intro e x s o ha ht hkept hn hg hk p r vol malformed check hcheck
  refine exec_takenRow_refused ha ht hkept hn hg hk (Eq.trans ?_ hcheck)
  have hnamed : (if r.kind = kindRead then namedRefusal r p else none) = if r.kind = kindRead && r.selector.toNat ≤ 3
      && !(allLanes.any fun l => l.val = r.selector.toNat && vol.members.has l && p.online l) then some .refusedLane
      else none := by
    by_cases hr : r.kind = kindRead
    · simpa only [hr, if_true, decide_true, Bool.true_and] using namedRefusal_eq r p
    · simp [hr]
  rw [Part.dataChecks, dataRefusal_or, dataMalformed_eq _ hk, hnamed]

end Sys2Proof.Machine
end

section
/-!
A trial that fails: the spare is dead, and the next one is tried or the lane departs (R113, R115, R116, R119).
-/
namespace Sys2Proof.Machine

/-! ## The counters of a trial's reply (R29, R37) -/

theorem Lane.countWrite_writeFault (L : Lane) : L.countWrite [.writeFault] =
    { L with counters := { L.counters with writeFaults := satInc L.counters.writeFaults } } := by
  simp only [Lane.countWrite, Lane.count, show countStatus .writeFault [.writeFault] = 1 by decide, satAdd_one]

theorem Lane.countRead_unreadable (L : Lane) : L.countRead [.unreadable] =
    { L with counters := { L.counters with unreadable := satInc L.counters.unreadable } } := by
  simp only [Lane.countRead, Lane.count, show countStatus .corrected [.unreadable] = 0 by decide,
    show countStatus .unreadable [.unreadable] = 1 by decide, satAdd_zero, satAdd_one]

theorem Lane.countRead_corrected (L : Lane) : L.countRead [.corrected] =
    { L with counters := { L.counters with corrected := satInc L.counters.corrected } } := by
  simp only [Lane.countRead, Lane.count, show countStatus .corrected [.corrected] = 1 by decide,
    show countStatus .unreadable [.corrected] = 0 by decide, satAdd_zero, satAdd_one]

/-! ## The replies by which a trial fails (R113, R115) -/

/-- The lane with a completed readback of a trial counted; a readable block stands in the readback buffer. -/
def Lane.readBack (L : Lane) (st : Status) (data : List Block) : Lane :=
  { L.countRead [st] with readback := if st = .unreadable then L.readback else data.headD zeroBlock }

section
variable {p : Part} {l : LaneId} {sv : Service} {tr : Trial} {block : Nat}
  (hs : (p.lane l).service = some sv) (ht : sv.trial = some tr)
include hs ht

/-- A trial's write of status WRITE_FAULT settles the spare as dead. -/
theorem writeReplyTaken_deadTrial {d : Block} (ha : (p.lane l).awaited = some (.write block [d])) :
    writeReplyTaken l [3] p =
      settleDead l tr sv.op (p.setLane l { (p.lane l).countWrite [.writeFault] with txn := none }) := by
  rw [writeReplyTaken_statuses (ss := [.writeFault]) ha rfl rfl]
  set q := p.setLane l { (p.lane l).countWrite [.writeFault] with txn := none } with hq
  have hqs : (q.lane l).service = some sv := by rw [hq, Part.lane_setLane, if_pos rfl]; exact hs
  simp only [writeCompleted, Part.modLane_eq, ← hq, hqs, ht]
  exact if_neg (by decide)

/-- A readback that is not GOOD, or GOOD of other content, settles the spare as dead. -/
theorem readReplyTaken_deadTrial {codes : List Byte} {st : Status} {data : List Block}
    (ha : (p.lane l).awaited = some (.read block 1)) (hi : (p.lane l).identification = none) (hn : codes.length = 1)
    (hst : readStatuses codes = some [st]) (hdata : data.length = ([st].filter Status.readable).length)
    (hbad : st = .good → sameBlock (data.headD zeroBlock) tr.data = false) :
    readReplyTaken l codes data p =
      settleDead l tr sv.op (p.setLane l { (p.lane l).readBack st data with txn := none }) := by
  rw [readReplyTaken_statuses ha hn hst hdata]
  set q := p.modLane l fun L => { L.countRead [st] with txn := none } with hq
  have hql : q.lane l = { (p.lane l).countRead [st] with txn := none } := by rw [hq, Part.lane_modLane, if_pos rfl]
  have hqs : (q.lane l).service = some sv := by rw [hql]; exact hs
  have hqi : (q.lane l).identification = none := by rw [hql]; exact hi
  have hfails : ¬ (decide ([st] = [Status.good]) && sameBlock (data.headD zeroBlock) tr.data) = true := by
    rw [Bool.and_eq_true, decide_eq_true_iff, List.singleton_inj]
    exact fun h => Bool.false_ne_true ((hbad h.1).symm.trans h.2)
  simp only [readCompleted, ← hq, hqi, hqs, ht]
  refine (if_neg hfails).trans (congrArg (settleDead l tr sv.op) ?_)
  by_cases hu : st = .unreadable
  · subst hu
    rfl
  · rw [if_neg (by simpa using hu), hq, Part.modLane_modLane, Lane.readBack, if_neg hu]
    rfl

end

/-! ## The spare is dead (R115, R119) -/

/-- Spare-next advances over a dead spare. -/
def Lane.spareDied (L : Lane) : Lane := L.advanced fun L => { L with deadSpares := L.deadSpares + 1 }

/-- The part with SPARES_LOW passed where the death of a spare of lane `x` asks for it. -/
def Part.deathReported (p : Part) (l : LaneId) (t : Trial) (op : LaneOp) (x : Lane) : Part :=
  p.sparesReported l t.block (p.remapTag op) { x with spareNext := x.spareNext + 1, deadSpares := x.deadSpares + 1 }

theorem Part.deathReported_eq (p : Part) (l : LaneId) (t : Trial) (op : LaneOp) (x : Lane) :
    ∃ j, p.deathReported l t op x = { p with journal := j } := p.sparesReported_eq ..

theorem settleDead_setLane {p : Part} (l : LaneId) (x : Lane) (hc : p.committing) (t : Trial) (op : LaneOp) :
    settleDead l t op (p.setLane l x) =
      startTrial l t.block t.data ((p.deathReported l t op x).setLane l x.spareDied).commitNoted := by
  obtain ⟨j, hj⟩ := p.deathReported_eq l t op x
  have hq : ((p.deathReported l t op x).setLane l x.spareDied).committing := by rw [hj]; exact hc
  have hlane : (p.setLane l x).lane l = x := (Part.lane_setLane p l l x).trans (if_pos rfl)
  unfold settleDead
  simp only [advanceSpare_eq, hlane, Part.sparesReported_setLane, Part.setLane_setLane]
  exact congrArg (startTrial l t.block t.data) (requestCommit_committing hq)

/-- The reply that failed the trial has changed the counters and the readback buffer of the lane, and nothing of its spares. -/
theorem settleDead_counted {p : Part} {l : LaneId} {K : Lane}
    (hK : K = { p.lane l with readback := K.readback, counters := K.counters }) (hc : p.committing) (t : Trial) (op : LaneOp) :
    settleDead l t op (p.setLane l { K with txn := none }) =
      startTrial l t.block t.data ((p.deathReported l t op (p.lane l)).setLane l { K with
        spareNext := (p.lane l).spareNext + 1, deadSpares := (p.lane l).deadSpares + 1
        sparesLow := (p.lane l).sparesLow || decide (224 ≤ (p.lane l).spareNext + 1), txn := none }).commitNoted := by
  have hnext : K.spareNext = (p.lane l).spareNext := by rw [hK]
  have hcount : K.deadSpares = (p.lane l).deadSpares := by rw [hK]
  have hmark : K.sparesLow = (p.lane l).sparesLow := by rw [hK]
  have hreport : p.deathReported l t op { K with txn := none } = p.deathReported l t op (p.lane l) := by
    simp only [Part.deathReported, Part.sparesReported, hnext, hcount, hmark]
  rw [settleDead_setLane l _ hc, hreport, ← hnext, ← hcount, ← hmark]
  rfl

/-- With every spare used up the trial is given up and the lane departs (R116). -/
theorem startTrial_exhausted {p : Part} {l : LaneId} {sv : Service} (hs : (p.lane l).service = some sv) (b : Nat) (d : Block)
    (h : 256 ≤ (p.lane l).spareNext) :
    startTrial l b d p =
      depart l .sparesExhausted 0 (p.setLane l { p.lane l with service := some { sv with trial := none } }) := by
  have hgo : Config.spareCount ≤ (p.lane l).spareNext := h
  unfold startTrial
  refine (if_pos hgo).trans ?_
  simp only [Part.modLane_eq, Lane.modService, hs, Option.map_some]

theorem Part.committing.ne_faulted {p : Part} (h : p.committing) : p.engine.state ≠ .faulted := fun hf => by
  rcases h.2 with h | h <;> exact absurd (h.symm.trans hf) (by decide)

theorem Part.committing.ne_halting {p : Part} (h : p.committing) : p.engine.state ≠ .halting := fun hf => by
  rcases h.2 with h | h <;> exact absurd (h.symm.trans hf) (by decide)

/-- A command whose effect ends in a departure is answered as the departure of the lane it leaves. -/
theorem State.act_departs {f : Part → Part} {s : State} {q : Part} {l : LaneId} {c : DepartureCause}
    (hf : f s.part = depart l c 0 q) (hq : q.engine.state ≠ .faulted) :
    s.act f = exec (.departure l c) (s.withPart q) :=
  State.act_withPart (g := fun p => if p.engine.state = .faulted && c ≠ .presenceLost then p else depart l c 0 p)
    (hf.trans (if_neg fun h => hq (of_decide_eq_true (Bool.and_eq_true_iff.1 h).1)).symm)

/-- Settles O35: each reply that fails the trial settles the spare as dead, and spare-next says whether another is tried. -/
theorem trialsThatFailTryTheNextSpare : Obligations.TrialsThatFailTryTheNextSpare := by
  intro l s block sent data sv tr c K hr p L failure low event q D command hs ht hi hc hfail
  obtain ⟨f, hexec, hdead, hK⟩ : ∃ f : Part → Part, exec c s = s.act f
      ∧ f p = settleDead l tr sv.op (p.setLane l { K with txn := none })
      ∧ K = { L with readback := K.readback, counters := K.counters } := by
    rcases hfail with ⟨ha, rfl, rfl⟩ | ⟨ha, rfl, rfl⟩ | ⟨ha, rfl, rfl⟩ | ⟨ha, rfl, hd, rfl⟩
    · refine ⟨_, rfl, (writeReplyTaken_deadTrial hs ht ha).trans ?_, rfl⟩
      rw [Lane.countWrite_writeFault]
    · refine ⟨_, rfl, (readReplyTaken_deadTrial (st := .unreadable) hs ht ha hi rfl rfl rfl nofun).trans ?_, rfl⟩
      rw [Lane.readBack, Lane.countRead_unreadable]
      rfl
    · refine ⟨_, rfl, (readReplyTaken_deadTrial (st := .corrected) hs ht ha hi rfl rfl rfl nofun).trans ?_, rfl⟩
      rw [Lane.readBack, Lane.countRead_corrected]
      rfl
    · have hgo := readReplyTaken_deadTrial (codes := [0]) (st := .good) (data := [data]) hs ht ha hi rfl rfl rfl fun _ => hd
      refine ⟨_, rfl, hgo.trans ?_, rfl⟩
      rw [Lane.readBack, Lane.countRead_good]
      rfl
  set x : Lane := { D with txn := none } with hx
  obtain ⟨j, hj⟩ := p.deathReported_eq l tr sv.op L
  have hq : q = { p with journal := j, committer := { p.committer with requested := true } } :=
    congrArg (fun r : Part => { r with committer := { p.committer with requested := true } }) hj
  have htrial : f p = startTrial l tr.block tr.data (q.setLane l x) := by
    rw [hdead, settleDead_counted hK hc, hj, hq]
    rfl
  have hlane : (q.setLane l x).lane l = x := (Part.lane_setLane q l l x).trans (if_pos rfl)
  have hserv : ((q.setLane l x).lane l).service = some sv := by
    rw [hlane]
    exact (show K.service = L.service by rw [hK]).trans hs
  have hcommand : Command.write (x.capacity.toNat - 256 + x.spareNext) [tr.data] = command := by
    rw [show x.capacity = L.capacity from show K.capacity = L.capacity by rw [hK]]
  have hstate : q.engine.state = p.engine.state := by rw [hq]
  rw [hexec]
  refine ⟨fun hmore => ?_, fun hnone => ?_⟩
  · have hrest : q.atRest := ⟨by rw [hq]; exact hr.1, Part.haltTested_of_state (hstate ▸ hc.ne_halting)⟩
    refine State.act_of_eq (htrial.trans ((startTrial_begins hserv _ _ (by rw [hlane]; exact hmore)).trans ?_))
      (Part.atRest_setLane hrest _ _)
    rw [hlane, Part.setLane_setLane, hcommand]
    rfl
  · refine State.act_departs (htrial.trans ?_) (hstate ▸ hc.ne_faulted)
    rw [startTrial_exhausted hserv _ _ (by rw [hlane]; exact hnone), hlane, Part.setLane_setLane]

end Sys2Proof.Machine
end

section
/-!
The admission of a discovery (R122, R124 to R126) and the repair of an entry to its end (R129 to R134; log 35).
-/
namespace Sys2Proof.Machine

/-! ## The tests of R124 -/

theorem DiscEntry.sameKey_iff {x : DiscEntry} {d : Discovery} :
    x.sameKey d = true ↔ x.lane = d.lane ∧ x.volume = d.volume ∧ x.block = d.block := by
  simp [DiscEntry.sameKey, and_assoc]

theorem Origin.held_iff {o : Origin} : o.held = true ↔ o = .patrol ∨ o = .recovery := by
  cases o <;> decide

/-- The lane or the volume of the discovery is gone (R124, test 1). -/
abbrev Part.goneFor (p : Part) (d : Discovery) : Prop :=
  p.online d.lane = false ∨ (p.vol d.volume).inUse = false ∨ (p.vol d.volume).state = .filling

theorem Part.goneFor_iff {p : Part} {d : Discovery} : p.goneFor d ↔ (!p.online d.lane || !p.ready d.volume) = true := by
  simp [Part.ready]

section
variable {p : Part} {d : Discovery}

theorem admitDiscovery_gone (h : p.goneFor d) : admitDiscovery d p = p := if_pos (Part.goneFor_iff.1 h)

theorem admitDiscovery_merges (hg : ¬ p.goneFor d)
    (hk : ∃ x ∈ p.repair.list, x.lane = d.lane ∧ x.volume = d.volume ∧ x.block = d.block) :
    admitDiscovery d p = { p with repair := p.repair.merge d } := by
  have hany : p.repair.list.any (·.sameKey d) = true := by
    simpa only [List.any_eq_true, DiscEntry.sameKey_iff] using hk
  unfold admitDiscovery
  rw [if_neg (mt Part.goneFor_iff.2 hg), if_pos hany]

variable (hg : ¬ p.goneFor d) (hk : ∀ x ∈ p.repair.list, ¬ (x.lane = d.lane ∧ x.volume = d.volume ∧ x.block = d.block))
include hg hk

/-- A discovery with a key of its own goes on to the test for room (R124, test 3). -/
theorem admitDiscovery_newKey : admitDiscovery d p =
    if p.repair.list.length < Config.listSize then
      ({ p with
        repair := p.repair.place d
        patrol := if d.origin.held then { p.patrol with made := satInc p.patrol.made } else p.patrol } : Part).push
          [.repairTake, .patrolTry]
    else if d.origin.held then holdDiscovery d p
    else dropDiscovery d p := by
  have hany : ¬ p.repair.list.any (·.sameKey d) = true := by
    simpa only [List.any_eq_true, DiscEntry.sameKey_iff, not_exists, not_and] using hk
  unfold admitDiscovery
  rw [if_neg (mt Part.goneFor_iff.2 hg), if_neg hany]

theorem admitDiscovery_places (hl : p.repair.list.length < Config.listSize) : admitDiscovery d p =
    ({ p with
      repair := p.repair.place d
      patrol := if d.origin = .patrol ∨ d.origin = .recovery then { p.patrol with made := satInc p.patrol.made }
        else p.patrol } : Part).push [.repairTake, .patrolTry] := by
  rw [admitDiscovery_newKey hg hk, if_pos hl]
  simp only [Origin.held_iff]

theorem admitDiscovery_holds (hl : Config.listSize ≤ p.repair.list.length) (ho : d.origin = .patrol ∨ d.origin = .recovery)
    (he : p.engine.state ≠ .halting) :
    admitDiscovery d p = { p with repair := { p.repair with waiter := p.repair.waiter ++ [d] } } := by
  rw [admitDiscovery_newKey hg hk, if_neg (Nat.not_lt.2 hl), if_pos (Origin.held_iff.2 ho)]
  exact if_neg he

theorem admitDiscovery_drops (hl : Config.listSize ≤ p.repair.list.length) (ho : ¬ (d.origin = .patrol ∨ d.origin = .recovery)) :
    admitDiscovery d p = dropDiscovery d p := by
  rw [admitDiscovery_newKey hg hk, if_neg (Nat.not_lt.2 hl), if_neg (mt Origin.held_iff.1 ho)]

end

theorem dropDiscovery_withinEpisode {p : Part} (d : Discovery) (h : p.repair.episode = true) :
    dropDiscovery d p = { p with repair := { p.repair with dropped := satInc p.repair.dropped } } := by
  refine (if_pos h).trans ?_
  rw [← h]

theorem dropDiscovery_beginsEpisode {p : Part} (d : Discovery) (h : p.repair.episode = false) :
    dropDiscovery d p = passEvent (listFullEvent d (satInc p.repair.dropped))
      { p with repair := { p.repair with dropped := satInc p.repair.dropped, episode := true } } :=
  if_neg (by rw [h]; decide)

/-! ## The unit's work -/

/-- The part with this work in the repair unit's hand. -/
def Part.withRepair (p : Part) (w : RepairWork) : Part := { p with repair := { p.repair with work := some w } }

theorem Part.modWork_eq {p : Part} {w : RepairWork} (h : p.repair.work = some w) (f : RepairWork → RepairWork) :
    p.modWork f = p.withRepair (f w) := by
  rw [Part.modWork, h]
  rfl

/-- An operation is issued on the block of the work: nothing else of the work changes than that one is outstanding. -/
theorem repairIssue_eq {p : Part} {w : RepairWork} (h : p.repair.work = some w) (l : LaneId) (k : OpKind) (b : BufId)
    (call : Bool) (v : RepairWork) : repairIssue l k b call v p =
      enqueue l ⟨.background, k, p.repairBlock v, 1, [.staging b], .repair, call⟩ (p.withRepair { w with outstanding := true }) := by
  rw [repairIssue, Part.modWork_eq h]

/-! ## The ends of the work (R133, R134) -/

/-- The unit idle, its lock and buffers released. -/
abbrev Part.repairReleased (p : Part) : Part := releaseAll .repair { p with repair := { p.repair with work := none } }

theorem repairGone_eq {p : Part} {w : RepairWork} (h : p.repair.work = some w) :
    repairGone p = p.repairReleased.push [.repairTake] := by
  rw [repairGone, Part.modWork_eq h]
  rfl

/-! ## The departure hold (R132, R133) -/

section
variable {p : Part} {w : RepairWork} (h : p.repair.work = some w)
include h

theorem repairHold_waits (hv : (p.vol w.volume).hold ≠ .none) : repairHold p = p := by
  simp only [repairHold, h, if_pos hv]

theorem repairHold_gone (hv : (p.vol w.volume).hold = .none) (ho : p.online w.lane = false) :
    repairHold p = repairGone p := by
  simp [repairHold, h, hv, ho]

/-- The rewrite in HOLD and the remap call in REMAP are the same write, the call marked as such. -/
theorem repairHold_writes (hp : w.phase = .hold ∨ w.phase = .remap) (hv : (p.vol w.volume).hold = .none)
    (ho : p.online w.lane = true) : repairHold p =
      enqueue w.lane ⟨.background, .write, p.repairBlock w, 1, [.staging p.bufA], .repair, decide (w.phase = .remap)⟩
        (p.withRepair { w with outstanding := true, phase := if w.phase = .hold then .rewrite else .remap }) := by
  rcases hp with hp | hp
  · have hi : repairHold p = repairIssue w.lane .write p.bufA false w (p.modWork fun w => { w with phase := .rewrite }) := by
      simp [repairHold, h, hv, ho, hp]
    rw [hi, Part.modWork_eq h, repairIssue_eq rfl, if_pos hp, hp]
    rfl
  · have hi : repairHold p = repairIssue w.lane .write p.bufA true w p := by
      simp [repairHold, h, hv, ho, hp]
    rw [hi, repairIssue_eq h, if_neg (by simp [hp]), decide_eq_true hp, ← hp]

theorem repairToHold_eq : repairToHold p = repairHold (p.withRepair { w with phase := .hold }) := by
  rw [repairToHold, Part.modWork_eq h]

end

/-! ## The judgement of the revote (R131) -/

/-- The verdict on the copies as the revote placed them. -/
abbrev RepairWork.verdict (w : RepairWork) (p : Part) : Verdict := agree (p.actingReference w.volume) w.copies

/-- The verdict is against the lane: its copy is outvoted or weak. -/
abbrev Verdict.against (v : Verdict) (l : LaneId) : Prop := v.outvoted.has l = true ∨ v.weak.has l = true

section
variable {p : Part} {w : RepairWork}

theorem repairJudge_gone (hv : ∀ x ∈ w.votes, x.lane ≠ w.lane) : repairJudge w p = repairGone p :=
  if_pos (by simpa using hv)

variable (hv : ∃ x ∈ w.votes, x.lane = w.lane)
include hv

theorem repairJudge_lost (hg : (w.verdict p).group = none) :
    repairJudge w p = repairLost w p := by
  refine (if_neg (by simpa using hv)).trans ?_
  rw [hg]

variable {g : LaneId} (hg : (w.verdict p).group = some g)
include hg

/-- The lane of the entry agrees and is not weak: nothing is left to repair. -/
theorem repairJudge_resolved (hb : ¬ (w.verdict p).against w.lane) : repairJudge w p = repairDone w methodResolved p := by
  refine (if_neg (by simpa using hv)).trans ?_
  simp only [hg]
  exact if_pos (by simpa using hb)

variable (hb : (w.verdict p).against w.lane)
include hb

/-- The lane of the entry is to be rewritten: with the group's content in A at once, else after a read of it. -/
theorem repairJudge_bad : repairJudge w p =
    if w.aGroup = some g then repairToHold p
    else match (w.verdict p).authority.lanes.head? with
      | none => p
      | some l =>
        if p.online l then
          repairIssue l .read p.bufA false w (p.modWork fun w => { w with phase := .content, current := some l })
        else (p.modWork fun w => { w.dropVote l with phase := .content }).push [.repairGo] := by
  refine (if_neg (by simpa using hv)).trans ?_
  simp only [hg]
  refine (if_neg ?_).trans rfl
  rcases hb with hb | hb <;> simp [hb]

theorem repairJudge_holds (h : p.repair.work = some w) (ha : w.aGroup = some g) :
    repairJudge w p = repairHold (p.withRepair { w with phase := .hold }) := by
  rw [repairJudge_bad hv hg hb, if_pos ha, repairToHold_eq h]

theorem repairJudge_reads (h : p.repair.work = some w) (ha : w.aGroup ≠ some g) {m : LaneId} {rest : List LaneId}
    (hm : (w.verdict p).authority.lanes = m :: rest) (ho : p.online m = true) :
    repairJudge w p = enqueue m ⟨.background, .read, p.repairBlock w, 1, [.staging p.bufA], .repair, false⟩
      (p.withRepair { w with phase := .content, current := some m, outstanding := true }) := by
  rw [repairJudge_bad hv hg hb, if_neg ha, hm]
  refine (if_pos ho).trans ?_
  rw [Part.modWork_eq h, repairIssue_eq rfl]
  rfl

end

/-! ## The passes of the revote (R129, R130) -/

theorem RepairWork.mem_unplaced {w : RepairWork} {l : LaneId} :
    l ∈ w.unplaced ↔ ∃ x ∈ w.votes, (x.status = .readable ∧ x.group = none) ∧ x.lane = l := by
  simp [RepairWork.unplaced, and_assoc]

/-- A lane left alone makes a group of its own (R130). -/
abbrev RepairWork.alone (w : RepairWork) (m : LaneId) : RepairWork := w.modVote m fun x => { x with group := some m }

theorem RepairWork.unplaced_alone {w : RepairWork} {m : LaneId} (h : w.unplaced = [m]) : (w.alone m).unplaced = [] := by
  refine List.eq_nil_iff_forall_not_mem.2 fun l hl => ?_
  obtain ⟨x, hx, ⟨hs, hn⟩, -⟩ := RepairWork.mem_unplaced.1 hl
  obtain ⟨y, hy, rfl⟩ := List.mem_map.1 hx
  by_cases hm : y.lane = m
  · simp [hm] at hn
  · rw [if_neg hm] at hs hn
    have hmem : y.lane ∈ w.unplaced := RepairWork.mem_unplaced.2 ⟨y, hy, ⟨hs, hn⟩, rfl⟩
    exact hm (List.mem_singleton.1 (h ▸ hmem))

section
variable {p : Part} {w : RepairWork} (h : p.repair.work = some w) (hg : w.gone = false) (ho : w.outstanding = false)
include h hg ho

theorem repairGo_revote (hp : w.phase = .revote) : repairGo p = repairRevote w p := by
  simp [repairGo, h, hg, ho, hp]

theorem repairGo_judges (hp : (w.phase = .revote ∧ w.todo = [] ∧ w.unplaced = []) ∨ w.phase = .content) :
    repairGo p = repairJudge w p := by
  rcases hp with ⟨hp, ht, hu⟩ | hp
  · rw [repairGo_revote h hg ho hp]
    simp only [repairRevote, ht, hu]
  · simp [repairGo, h, hg, ho, hp]

theorem repairGo_furtherPass (hp : w.phase = .revote) (ht : w.todo = []) (hu : 2 ≤ w.unplaced.length) :
    repairGo p = (p.withRepair { w with todo := w.unplaced, rep := none }).push [.repairGo] := by
  rw [repairGo_revote h hg ho hp, repairRevote, ht]
  cases hs : w.unplaced with
  | nil => simp [hs] at hu
  | cons a as =>
    cases as with
    | nil => simp [hs] at hu
    | cons b bs => simp only [Part.modWork_eq h]

theorem repairGo_alone (hp : w.phase = .revote) (ht : w.todo = []) {m : LaneId} (hu : w.unplaced = [m]) :
    repairGo p = repairGo (p.withRepair (w.alone m)) := by
  have hrest : (w.alone m).unplaced = [] := RepairWork.unplaced_alone hu
  rw [repairGo_judges (p := p.withRepair (w.alone m)) rfl hg ho (.inl ⟨hp, ht, hrest⟩), repairGo_revote h hg ho hp]
  simp only [repairRevote, ht, hu, Part.modWork_eq h]

variable {m : LaneId} {rest : List LaneId} (hp : w.phase = .revote) (ht : w.todo = m :: rest)
include hp ht

theorem repairGo_skips (hm : p.online m = false) :
    repairGo p = (p.withRepair { w.dropVote m with todo := rest }).push [.repairGo] := by
  rw [repairGo_revote h hg ho hp, repairRevote, ht]
  refine (if_neg (by simp [hm])).trans ?_
  rw [Part.modWork_eq h]

theorem repairGo_reads (hm : p.online m = true) : repairGo p =
    enqueue m ⟨.background, .read, p.repairBlock w, 1, [.staging (if w.rep = none then p.bufA else p.bufB)], .repair, false⟩
      (p.withRepair { w with todo := rest, current := some m, outstanding := true }) := by
  rw [repairGo_revote h hg ho hp, repairRevote, ht]
  refine (if_pos hm).trans ?_
  rw [Part.modWork_eq h, repairIssue_eq rfl]
  simp only [Option.isNone_iff_eq_none]
  rfl

end

/-! ## What a read of the revote tells (R129, R130) -/

section
variable {w : RepairWork} {st : Status}

theorem RepairWork.readEnded_failed (hs : st.readable = false) (l : LaneId) (a b : Block) :
    w.readEnded l st a b = w.modVote l fun x => { x with status := .failed, group := none } :=
  if_pos (by rw [hs]; rfl)

theorem RepairWork.readEnded_first (hs : st.readable = true) (hr : w.rep = none) (l : LaneId) (a b : Block) :
    w.readEnded l st a b = { w.modVote l fun x => { x with
      status := .readable, weak := x.weak || decide (st = .corrected), group := some l } with
        rep := some l, aGroup := some l } := by
  refine (if_neg (by simp [hs])).trans ?_
  rw [hr]

theorem RepairWork.readEnded_compared (hs : st.readable = true) {m : LaneId} (hr : w.rep = some m) (l : LaneId) (a b : Block) :
    w.readEnded l st a b = w.modVote l fun x => { x with
      status := .readable, weak := x.weak || decide (st = .corrected), group := if sameBlock a b then some m else none } := by
  refine (if_neg (by simp [hs])).trans ?_
  rw [hr]

end

/-! ## The ends of the unit's operations (R129 to R134) -/

/-- The work with its operation ended. -/
def RepairWork.rested (w : RepairWork) : RepairWork := { w with outstanding := false, current := none }

theorem operationEnded_repair {op : LaneOp} (hop : op.producer = .repair) (l : LaneId) (r : OpEnd) (p : Part) :
    operationEnded l op r p = repairOpEnded l r p := by
  simp only [operationEnded, hop]

section
variable {l : LaneId} {r : OpEnd} {w : RepairWork} {p : Part} (h : p.repair.work = some w)
include h

theorem Part.modWork_rested : (p.modWork fun w => { w with outstanding := false, current := none }) = p.withRepair w.rested :=
  Part.modWork_eq h _

theorem repairOpEnded_gone (hg : w.gone = true) : repairOpEnded l r p = repairLeave (p.withRepair w.rested) := by
  simp only [repairOpEnded, h, Part.modWork_rested h, hg, if_true]

variable (hg : w.gone = false)
include hg

/-- A lane lost to the revote leaves the lane list, and the unit goes on. -/
theorem repairOpEnded_drops (hr : r = .laneLost) (hp : w.phase = .revote ∨ w.phase = .content) :
    repairOpEnded l r p = (p.withRepair (w.rested.dropVote l)).push [.repairGo] := by
  subst hr
  simp only [repairOpEnded, h, Part.modWork_rested h, hg]
  rcases hp with hp | hp <;> rw [hp] <;> rfl

/-- With the lane of the entry lost the repair ends. -/
theorem repairOpEnded_leaves (hr : r = .laneLost) (hp : w.phase = .rewrite ∨ w.phase = .readback ∨ w.phase = .remap) :
    repairOpEnded l r p = repairGone (p.withRepair w.rested) := by
  subst hr
  simp only [repairOpEnded, h, Part.modWork_rested h, hg]
  rcases hp with hp | hp | hp <;> rw [hp] <;> rfl

theorem repairOpEnded_completed {st : Status} {ss : List Status} {remapped : Bool} (hr : r = .completed (st :: ss) remapped) :
    repairOpEnded l r p = repairCompleted w l st remapped (p.withRepair w.rested) := by
  subst hr
  simp only [repairOpEnded, h, Part.modWork_rested h, hg]
  rfl

end

section
variable (p : Part) {w : RepairWork} (u : RepairWork) (l : LaneId) (st : Status) (remapped : Bool)

theorem repairCompleted_revote (hp : w.phase = .revote) : repairCompleted w l st remapped (p.withRepair u) =
    (p.withRepair (u.readEnded l st (p.buffer p.bufA) (p.buffer p.bufB))).push [.repairGo] := by
  simp only [repairCompleted, hp]
  rfl

theorem repairCompleted_content_failed (hp : w.phase = .content) (hs : st.readable = false) :
    repairCompleted w l st remapped (p.withRepair u) =
      (p.withRepair (u.modVote l fun x => { x with status := .failed, group := none })).push [.repairGo] := by
  simp only [repairCompleted, hp, hs]
  rfl

theorem repairCompleted_content_read (hp : w.phase = .content) (hs : st.readable = true) :
    repairCompleted w l st remapped (p.withRepair u) =
      repairHold (p.withRepair { u.modVote l (fun x => { x with weak := x.weak || decide (st = .corrected) }) with
        aGroup := (w.votes.find? fun x => x.lane = l).bind (·.group), phase := .hold }) := by
  simp only [repairCompleted, hp, hs]
  rfl

theorem repairCompleted_rewrite_gone (hp : w.phase = .rewrite) (ho : p.online w.lane = false) :
    repairCompleted w l st remapped (p.withRepair u) = repairGone (p.withRepair u) := by
  simp only [repairCompleted, hp]
  exact if_neg (by rw [show (p.withRepair u).online w.lane = false from ho]; decide)

theorem repairCompleted_rewrite (hp : w.phase = .rewrite) (ho : p.online w.lane = true) :
    repairCompleted w l st remapped (p.withRepair u) =
      enqueue w.lane ⟨.background, .read, p.repairBlock w, 1, [.staging p.bufB], .repair, false⟩
        (p.withRepair { u with phase := .readback, remapped := remapped, outstanding := true }) := by
  simp only [repairCompleted, hp]
  exact if_pos ho

theorem repairCompleted_readback_good (hp : w.phase = .readback) (hs : st = .good)
    (hb : sameBlock (p.buffer p.bufA) (p.buffer p.bufB) = true) :
    repairCompleted w l st remapped (p.withRepair u) =
      repairDone w (if w.remapped then methodRemap else methodRewrite) (p.withRepair u) := by
  simp only [repairCompleted, hp]
  exact if_pos (Bool.and_eq_true_iff.2 ⟨decide_eq_true hs, hb⟩)

theorem repairCompleted_readback_bad (hp : w.phase = .readback)
    (hb : st ≠ .good ∨ sameBlock (p.buffer p.bufA) (p.buffer p.bufB) = false) :
    repairCompleted w l st remapped (p.withRepair u) = repairHold (p.withRepair { u with phase := .remap }) := by
  have hbad : ¬ (decide (st = .good) && sameBlock (p.buffer p.bufA) (p.buffer p.bufB)) = true := by
    rcases hb with hb | hb <;> simp [hb]
  simp only [repairCompleted, hp]
  exact if_neg hbad

theorem repairCompleted_remap (hp : w.phase = .remap) :
    repairCompleted w l st remapped (p.withRepair u) = repairDone w methodRemap (p.withRepair u) := by
  simp only [repairCompleted, hp]

end

/-- Settles O60: the tests of an admission one by one, then the repair by the ends of its operations, its next steps, what a
read of the revote tells, and its ends. -/
theorem discoveriesAreAdmittedInOrder : Obligations.DiscoveriesAreAdmittedInOrder := by
  refine ⟨fun d p => ⟨admitDiscovery_gone, admitDiscovery_merges, fun hg hk => ?_⟩, fun l op r w p hop h => ?_,
    fun w p h hg ho => ?_, fun w l st a b => ?_, fun w p h => ⟨fun _ => rfl, rfl, fun _ => repairGone_eq h⟩⟩
  · refine ⟨admitDiscovery_places hg hk, admitDiscovery_holds hg hk, fun hl hn => ?_⟩
    rw [admitDiscovery_drops hg hk hl hn]
    exact ⟨dropDiscovery_withinEpisode d, dropDiscovery_beginsEpisode d⟩
  · rw [operationEnded_repair hop]
    refine ⟨repairOpEnded_gone h, fun hg hr => ⟨repairOpEnded_drops h hg hr, repairOpEnded_leaves h hg hr⟩,
      fun st ss remapped hg hr => ?_⟩
    rw [repairOpEnded_completed h hg hr]
    exact ⟨repairCompleted_revote p w.rested l st remapped, repairCompleted_content_failed p w.rested l st remapped,
      repairCompleted_content_read p w.rested l st remapped, repairCompleted_rewrite_gone p w.rested l st remapped,
      repairCompleted_rewrite p w.rested l st remapped, repairCompleted_readback_good p w.rested l st remapped,
      repairCompleted_readback_bad p w.rested l st remapped, repairCompleted_remap p w.rested l st remapped⟩
  · refine ⟨rfl, fun hp ht => ⟨repairGo_furtherPass h hg ho hp ht, fun m => repairGo_alone h hg ho hp ht⟩,
      fun hp m rest ht => ⟨repairGo_skips h hg ho hp ht, repairGo_reads h hg ho hp ht⟩, fun hp => ?_,
      fun hp => ⟨repairHold_waits h, repairHold_gone h, repairHold_writes h hp⟩⟩
    rw [repairGo_judges h hg ho hp]
    exact ⟨repairJudge_gone, fun hv => ⟨repairJudge_lost hv, fun g hgr => ⟨repairJudge_resolved hv hgr,
      fun hb => repairJudge_holds hv hgr hb h, fun m rest hb ha => repairJudge_reads hv hgr hb h ha⟩⟩⟩
  · exact ⟨fun hs => RepairWork.readEnded_failed hs l a b, fun hs hr => RepairWork.readEnded_first hs hr l a b,
      fun m hs hr => RepairWork.readEnded_compared hs hr l a b⟩

end Sys2Proof.Machine
end

section
/-!
PATROL CONTROL received (R140 to R142): the timed states of patrol, START and STOP.
-/
namespace Sys2Proof.Machine

/-! ## Patrol's timed states (R141) -/

theorem Part.planRuns_iff {p : Part} :
    p.planRuns = true ↔ p.engine.state = .running ∧ p.patrol.paused = false ∧ p.patrol.marker = false := by
  simp [Part.planRuns, Part.patrolRuns, Part.running, and_assoc]

theorem patrolTimers_notRuns {p : Part} (h : p.planRuns = false) : patrolTimers p = p := by
  simp [patrolTimers, h]

theorem patrolTimers_notTimed {p : Part} (hh : p.patrol.state ≠ .holdoff) (hr : p.patrol.state ≠ .resting) :
    patrolTimers p = p := by
  unfold patrolTimers
  split
  · rfl
  · cases hs : p.patrol.state <;> simp_all

theorem patrolTimers_holdoffLeft {p : Part} (hs : p.patrol.state = .holdoff) (hh : p.patrol.holdoff ≠ 0) :
    patrolTimers p = p := by
  simp [patrolTimers, hs, hh]

/-- The holdoff of plan work that runs is over: patrol is RUNNING and tests for a chunk. -/
theorem patrolTimers_holdoffOver {p : Part} (hr : p.planRuns = true) (hs : p.patrol.state = .holdoff)
    (hh : p.patrol.holdoff = 0) :
    patrolTimers p = (p.modPatrol fun q => { q with state := .running }).push [.patrolTry] := by
  simp [patrolTimers, hr, hs, hh]

/-- The rest of plan work that runs is over: patrol begins a new pass and tests for a chunk. -/
theorem patrolTimers_restOver {p : Part} (hr : p.planRuns = true) (hs : p.patrol.state = .resting)
    (hh : p.patrol.rest = 0) : patrolTimers p = (p.modPatrol Patrol.newPass).push [.patrolTry] := by
  simp [patrolTimers, hr, hs, hh]

/-! ## The checks of START and STOP -/

theorem Patrol.active_iff {q : Patrol} : q.active = true ↔ q.state ≠ .idle ∧ q.state ≠ .done := by
  simp [Patrol.active]

/-- The row of a code takes the requests of that code and those of no known code (log 21). -/
theorem controlRequest_iff {code : Byte} {r : Request} (hk : r.kind = kindControl) :
    controlRequest code r = true ↔ r.selector = code ∨ r.selector ≠ 1 ∧ r.selector ≠ 2 := by
  simp [controlRequest, hk, controlStart, controlStop]

section
variable {p : Part} {e : EntryId} {r : Request}

theorem startReceived_unknown (h : r.selector ≠ 1) : startReceived e r p = refuse e .refusedFormat p := if_pos h

theorem startReceived_busy (hs : r.selector = 1) (h : p.patrol.marker = true ∨ p.patrol.active = true) :
    startReceived e r p = refuse e .refusedBusy p :=
  (if_neg (not_not.2 hs)).trans (if_pos (Bool.or_eq_true_iff.2 h))

theorem startReceived_noPlan (hs : r.selector = 1) (hm : p.patrol.marker = false) (ha : p.patrol.active = false)
    (hp : p.patrol.plan = none) : startReceived e r p = refuse e .refusedFormat p := by
  refine (if_neg (not_not.2 hs)).trans ((if_neg ?_).trans (if_pos ?_))
  · simp [hm, ha]
  · simp [hp]

theorem startReceived_passes (hs : r.selector = 1) (hm : p.patrol.marker = false) (ha : p.patrol.active = false)
    {plan : Plan} (hp : p.patrol.plan = some plan) :
    startReceived e r p = patrolTimers (awaitCommit e 0 (p.modPatrol Patrol.start)) := by
  refine (if_neg (not_not.2 hs)).trans ((if_neg ?_).trans (if_neg ?_))
  · simp [hm, ha]
  · simp [hp]

theorem stopReceived_unknown (h : r.selector ≠ 2) : stopReceived e r p = refuse e .refusedFormat p := if_pos h

theorem stopReceived_busy (hs : r.selector = 2) (h : p.patrol.marker = true) :
    stopReceived e r p = refuse e .refusedBusy p := (if_neg (not_not.2 hs)).trans (if_pos h)

theorem stopReceived_inactive (hs : r.selector = 2) (hm : p.patrol.marker = false) (ha : p.patrol.active = false) :
    stopReceived e r p = finish e .ok 0 0 0 p :=
  (if_neg (not_not.2 hs)).trans ((if_neg (by simp [hm])).trans (if_pos (by simp [ha])))

theorem stopReceived_active (hs : r.selector = 2) (hm : p.patrol.marker = false) (ha : p.patrol.active = true) :
    (p.patrol.chunk ≠ none → stopReceived e r p =
      setEntryState e .atLanes (p.modPatrol fun q => { q with stops := q.stops ++ [e] }))
    ∧ (p.patrol.chunk = none → stopReceived e r p =
      awaitCommit e 0 (p.modPatrol fun q => { q with state := .idle, holdoff := 0, rest := 0 })) := by
  have hgo : stopReceived e r p = if p.patrol.chunk.isSome then
      setEntryState e .atLanes (p.modPatrol fun q => { q with stops := q.stops ++ [e] })
    else awaitCommit e 0 (p.modPatrol fun q => { q with state := .idle, holdoff := 0, rest := 0 }) :=
    (if_neg (not_not.2 hs)).trans ((if_neg (by simp [hm])).trans (if_neg (by simp [ha])))
  exact ⟨fun h => hgo.trans (if_pos (Option.isSome_iff_ne_none.2 h)), fun h => hgo.trans (if_neg (by simp [h]))⟩

end

/-! ## The effects of START and STOP -/

/-- A taken request changes patrol and waits for a commit, one being in flight. -/
theorem awaitCommit_taken_modPatrol {p : Part} (e : EntryId) (x : Entry) (f : Patrol → Patrol) (hc : p.committing) :
    awaitCommit e 0 ((p.taken e { x with state := .received }).modPatrol f) =
      { p.taken e (x.await .ok 0 0 0) with
        patrol := f p.patrol, committer := { p.committer with requested := true } } := by
  rw [awaitCommit_committing (x := { x with state := .received })]
  · simp [Part.taken, Part.modPatrol, Entry.await]
  · exact Part.taken_entry ..
  · exact hc

/-- A taken request of START begins the pass of the plan. -/
theorem start_taken {p : Part} {e : EntryId} {x : Entry} {plan : Plan} (hs : x.req.selector = 1)
    (hm : p.patrol.marker = false) (ha : p.patrol.active = false) (hp : p.patrol.plan = some plan) (hc : p.committing) :
    startReceived e x.req (p.taken e { x with state := .received }) =
      patrolTimers { p.taken e (x.await .ok 0 0 0) with
        patrol := p.patrol.start, committer := { p.committer with requested := true } } := by
  rw [startReceived_passes (p := p.taken e { x with state := .received }) hs hm ha hp, awaitCommit_taken_modPatrol e x _ hc]

theorem Patrol.start_eq {q : Patrol} {plan : Plan} (hp : q.plan = some plan) : q.start = { q with
    state := .holdoff, span := 0, offset := 0, pass := q.pass + 1, checked := 0, made := 0, unrecoverable := 0
    sinceCheckpoint := 0, checkpoint := ⟨0, 0, q.pass + 1⟩, holdoff := plan.holdoff } := by
  simp only [Patrol.start, hp, Option.map_some, Option.getD_some]

/-- Settles O50: the unknown codes, then START's checks and its two effects, then STOP's cases. -/
theorem patrolControlStartsAndStops : Obligations.PatrolControlStartsAndStops := by
  intro e x s ha ht hk hn hg hkind p q refused active waits
  have hstart (h : x.req.selector = 1 ∨ x.req.selector ≠ 1 ∧ x.req.selector ≠ 2) :
      requestTaken (controlRequest controlStart) startReceived .done s.part =
        startReceived e x.req (s.part.taken e { x with state := .received }) :=
    requestTaken_done ht hg ((controlRequest_iff hkind).2 h) _
  have hstop (h : x.req.selector = 2 ∨ x.req.selector ≠ 1 ∧ x.req.selector ≠ 2) :
      requestTaken (controlRequest controlStop) stopReceived .done s.part =
        stopReceived e x.req (s.part.taken e { x with state := .received }) :=
    requestTaken_done ht hg ((controlRequest_iff hkind).2 h) _
  let received := s.part.taken e { x with state := .received }
  have hrefuse (o : ReqOutcome) := refuse_taken (p := s.part) x hk hn o
  have hactive : active → q.active = true := Patrol.active_iff.2
  have hinactive : ¬ active → q.active = false := fun h => Bool.eq_false_iff.2 (mt Patrol.active_iff.1 h)
  have hrest (q' : Patrol) : ({ s.part.taken e (x.await .ok 0 0 0) with
      patrol := q', committer := { s.part.committer with requested := true } } : Part).atRest :=
    Part.atRest_of_entry ha (Part.taken_entry s.part e (x.await .ok 0 0 0))
  refine ⟨fun h1 h2 => ⟨?_, ?_⟩, fun hs => ⟨fun hb => ?_, fun hm hac hp => ?_, fun plan hm hac hp hc => ?_⟩,
    fun hs => ⟨fun hm => ?_, fun hm hac => ?_, fun hm hac hch => ?_, fun hm hac hch hc => ?_⟩⟩
  · exact act_taken_finished ha ((hstart (.inr ⟨h1, h2⟩)).trans ((startReceived_unknown h1).trans (hrefuse _)))
  · exact act_taken_finished ha ((hstop (.inr ⟨h1, h2⟩)).trans ((stopReceived_unknown h2).trans (hrefuse _)))
  · exact act_taken_finished ha ((hstart (.inl hs)).trans
      ((startReceived_busy (p := received) hs (hb.imp_right hactive)).trans (hrefuse _)))
  · exact act_taken_finished ha ((hstart (.inl hs)).trans
      ((startReceived_noPlan (p := received) hs hm (hinactive hac) hp).trans (hrefuse _)))
  · intro started
    have hgo := (hstart (.inl hs)).trans (start_taken hs hm (hinactive hac) hp hc)
    rw [Patrol.start_eq (q := s.part.patrol) hp] at hgo
    refine ⟨fun hwait => State.act_of_eq (hgo.trans ?_) (hrest started), fun hh hr hpaused =>
      State.act_withPart (g := id) (hgo.trans ((patrolTimers_holdoffOver ?_ rfl hh).trans ?_))⟩
    · by_cases hh : plan.holdoff = 0
      · refine patrolTimers_notRuns (Bool.eq_false_iff.2 fun hruns => ?_)
        obtain ⟨hr, hpaused, -⟩ := Part.planRuns_iff.1 hruns
        rcases hwait with h | h | h
        · omega
        · exact h hr
        · exact Bool.eq_false_iff.1 hpaused h
      · exact patrolTimers_holdoffLeft rfl hh
    · exact Part.planRuns_iff.2 ⟨hr, hpaused, hm⟩
    · exact congrArg (fun ts => ({ s.part.taken e (x.await .ok 0 0 0) with
        patrol := { started with state := .running }, committer := { s.part.committer with requested := true }
        agenda := ts ++ [.patrolTry] } : Part)) ha
  · exact act_taken_finished ha ((hstop (.inl hs)).trans ((stopReceived_busy (p := received) hs hm).trans (hrefuse _)))
  · exact act_taken_finished ha ((hstop (.inl hs)).trans
      ((stopReceived_inactive (p := received) hs hm (hinactive hac)).trans (hrefuse .ok)))
  · have hgo := (hstop (.inl hs)).trans ((stopReceived_active (p := received) hs hm (hactive hac)).1 hch)
    refine State.act_of_eq (hgo.trans ?_) (Part.atRest_of_entry ha (Part.taken_entry s.part e { x with state := .atLanes }))
    exact congrArg (fun z : Part => z.modPatrol fun q => { q with stops := q.stops ++ [e] })
      (Part.taken_modEntry s.part e { x with state := .received } fun y => { y with state := .atLanes })
  · have hgo := (hstop (.inl hs)).trans ((stopReceived_active (p := received) hs hm (hactive hac)).2 hch)
    exact State.act_of_eq (hgo.trans (awaitCommit_taken_modPatrol e x _ hc)) (hrest _)

end Sys2Proof.Machine
end

section
/-!
Patrol's chunk: the holdoff and the rest run out, a chunk is begun, its reads are issued and their ends judged (R83, R141,
R143 to R145).
-/
namespace Sys2Proof.Machine

/-! ## The test for the next chunk (R143) -/

/-- Patrol may begin a chunk: the engine is RUNNING, patrol is not paused, has no chunk in flight, and is RUNNING, WAITING or
in its recovery pass. -/
abbrev Part.patrolTests (p : Part) : Prop :=
  p.engine.state = .running ∧ p.patrol.paused = false ∧ p.patrol.chunk = none
    ∧ (p.patrol.marker = true ∨ p.patrol.state = .running ∨ p.patrol.state = .waiting)

theorem Part.skips_iff {p : Part} {sp : Span} : p.skips sp = true ↔
    (p.vol sp.volume).inUse = false ∨ (p.vol sp.volume).state = .filling ∨ (p.vol sp.volume).state = .lost
      ∨ (p.vol sp.volume).length < sp.first + sp.count := by
  simp [Part.skips, Part.ready, Part.isLost, or_assoc]

section
variable {p : Part} {sp : Span} (h : p.patrolTests) (hs : p.currentSpan = some sp)
include h hs

/-- What the test for the next chunk does at a span. -/
theorem patrolTry_tests : patrolTry p =
    if p.skips sp then patrolGoOn (skipSpan sp.volume p).2 (skipSpan sp.volume p).1
    else if min 8 (sp.count - p.patrol.offset) * ((p.onlineMembers sp.volume).length - 1) ≤ p.repair.room then
      patrolChunkBegin sp (min 8 (sp.count - p.patrol.offset)) p
    else if p.patrol.marker then p
    else p.modPatrol fun q => { q with state := .waiting } := by
  obtain ⟨hr, hp, hc, ht⟩ := h
  have hgo : ¬ (!p.patrolRuns || p.patrol.chunk.isSome
      || !(p.patrol.marker || p.patrol.state = .running || p.patrol.state = .waiting)) = true := by
    have hready : (p.patrol.marker || decide (p.patrol.state = .running) || decide (p.patrol.state = .waiting)) = true := by
      simpa [or_assoc] using ht
    simp [Part.patrolRuns, Part.running, hr, hp, hc, hready]
  unfold patrolTry
  refine (if_neg hgo).trans ?_
  simp only [hs]
  rfl

theorem patrolTry_skips (hv : p.skips sp = true) :
    patrolTry p = patrolGoOn (skipSpan sp.volume p).2 (skipSpan sp.volume p).1 :=
  (patrolTry_tests h hs).trans (if_pos hv)

theorem patrolTry_begins (hv : p.skips sp = false)
    (hroom : min 8 (sp.count - p.patrol.offset) * ((p.onlineMembers sp.volume).length - 1) ≤ p.repair.room) :
    patrolTry p = patrolChunkBegin sp (min 8 (sp.count - p.patrol.offset)) p :=
  (patrolTry_tests h hs).trans ((if_neg (by simp [hv])).trans (if_pos hroom))

theorem patrolTry_waits (hv : p.skips sp = false) (hm : p.patrol.marker = false)
    (hroom : p.repair.room < min 8 (sp.count - p.patrol.offset) * ((p.onlineMembers sp.volume).length - 1)) :
    patrolTry p = p.modPatrol fun q => { q with state := .waiting } :=
  (patrolTry_tests h hs).trans ((if_neg (by simp [hv])).trans ((if_neg (by omega)).trans (if_neg (by simp [hm]))))

end

/-- A chunk of plan work whose lock is in conflict waits for it. -/
theorem patrolChunkBegin_waits {p : Part} {sp : Span} {n : Nat} (hm : p.patrol.marker = false)
    (hr : p.patrol.state = .running)
    (h : let k : Lock := ⟨.patrol, sp.volume, sp.first + p.patrol.offset, n, false⟩
      (k.clearOf p.locks.granted && k.clearOf p.locks.waiting) = false) :
    patrolChunkBegin sp n p = { p with
      patrol := { p.patrol with chunk := some ⟨sp.volume, sp.first + p.patrol.offset, n, .lock, [], [], 0, 0⟩ }
      locks := ⟨p.locks.granted, p.locks.waiting ++ [⟨.patrol, sp.volume, sp.first + p.patrol.offset, n, false⟩]⟩ } := by
  have hstate : (if p.patrol.marker then p.patrol.state else .running) = p.patrol.state := by rw [hm, hr]; rfl
  refine (askLock_waits (p := p.modPatrol _) h).trans ?_
  simp only [Part.modPatrol, hstate]

/-! ## The expiry of a timer (R141) -/

/-- Patrol once its holdoff, or its rest, has run out. -/
def Patrol.expired (q : Patrol) (c : Instr) : Patrol :=
  if c = .holdoffExpiry then { q with holdoff := 0, state := .running } else q.newPass

theorem Patrol.expired_keeps (q : Patrol) (c : Instr) :
    (q.expired c).state = .running ∧ (q.expired c).marker = q.marker ∧ (q.expired c).paused = q.paused
      ∧ (q.expired c).chunk = q.chunk ∧ (q.expired c).plan = q.plan := by
  unfold Patrol.expired
  split <;> exact ⟨rfl, rfl, rfl, rfl, rfl⟩

theorem holdoffExpired_idle {p : Part} (h : p.patrol.state ≠ .holdoff) : holdoffExpired p = p :=
  if_neg (by simp [h])

theorem restExpired_idle {p : Part} (h : p.patrol.state ≠ .resting) : restExpired p = p :=
  if_neg (by simp [h])

/-- The timer's expiry while plan work runs: patrol is RUNNING and tests for a chunk. -/
theorem exec_expiry {s : State} {c : Instr} (hr : s.part.planRuns = true)
    (hc : (c = .holdoffExpiry ∧ s.part.patrol.state = .holdoff) ∨ (c = .restExpiry ∧ s.part.patrol.state = .resting)) :
    ∃ f : Part → Part, exec c s = s.act f
      ∧ f s.part = ({ s.part with patrol := s.part.patrol.expired c } : Part).push [.patrolTry] := by
  rcases hc with ⟨rfl, hs⟩ | ⟨rfl, hs⟩
  · refine ⟨holdoffExpired, rfl, (if_pos (by simp [hr, hs])).trans ?_⟩
    rw [patrolTimers_holdoffOver (p := s.part.modPatrol fun q => { q with holdoff := 0 }) hr hs rfl, Patrol.expired,
      if_pos rfl]
    rfl
  · refine ⟨restExpired, rfl, (if_pos (by simp [hr, hs])).trans ?_⟩
    rw [patrolTimers_restOver (p := s.part.modPatrol fun q => { q with rest := 0 }) hr hs rfl, Patrol.expired,
      if_neg (by simp)]
    rfl

section
variable {s : State} {c : Instr} {sp : Span} (hagenda : s.part.agenda = []) (hr : s.part.planRuns = true)
  (hchunk : s.part.patrol.chunk = none)
  (hc : (c = .holdoffExpiry ∧ s.part.patrol.state = .holdoff) ∨ (c = .restExpiry ∧ s.part.patrol.state = .resting))
  (hsp : (s.part.patrol.plan.bind fun pl => pl.spans[(s.part.patrol.expired c).span]?) = some sp)

include hr hchunk hsp in
/-- Once the timer has run out patrol tests at the span of its cursor. -/
theorem patrolTests_expired : let q : Part := { s.part with patrol := s.part.patrol.expired c }
    q.patrolTests ∧ q.currentSpan = some sp := by
  intro q
  obtain ⟨hrun, hpaused, hmarker⟩ := Part.planRuns_iff.1 hr
  obtain ⟨hstate, hm, hp, hch, hplan⟩ := s.part.patrol.expired_keeps c
  have hqm : ¬ q.patrol.marker = true := Bool.eq_false_iff.1 (hm.trans hmarker)
  refine ⟨⟨hrun, hp.trans hpaused, hch.trans hchunk, .inr (.inl hstate)⟩, (if_neg hqm).trans ?_⟩
  rw [show q.patrol.plan = s.part.patrol.plan from hplan]
  exact hsp

include hagenda hr hchunk hc hsp

/-- The next chunk is begun in the step of the expiry, its lock being in conflict. -/
theorem exec_expiry_begins (hv : s.part.skips sp = false) :
    let u := s.part.patrol.expired c
    let n := min 8 (sp.count - u.offset)
    let k : Lock := ⟨.patrol, sp.volume, sp.first + u.offset, n, false⟩
    n * ((s.part.onlineMembers sp.volume).length - 1) ≤ s.part.repair.room →
    (k.clearOf s.part.locks.granted && k.clearOf s.part.locks.waiting) = false →
    exec c s = .next (s.withPart { s.part with
      patrol := { u with chunk := some ⟨sp.volume, sp.first + u.offset, n, .lock, [], [], 0, 0⟩ }
      locks := ⟨s.part.locks.granted, s.part.locks.waiting ++ [k]⟩ }) := by
  intro u n k hroom hk
  obtain ⟨hrun, -, hmarker⟩ := Part.planRuns_iff.1 hr
  obtain ⟨f, hf, hpush⟩ := exec_expiry hr hc
  obtain ⟨htests, hspan⟩ := patrolTests_expired hr hchunk hsp
  obtain ⟨hstate, hm, -⟩ := s.part.patrol.expired_keeps c
  refine hf.trans (State.act_of_push hpush hagenda ?_ ⟨hagenda, Part.haltTested_of_state ?_⟩)
  · exact (patrolTry_begins htests hspan hv hroom).trans (patrolChunkBegin_waits (hm.trans hmarker) hstate hk)
  · rw [show _ = EngineState.running from hrun]
    decide

/-- Patrol waits in the step of the expiry when the list has too little room. -/
theorem exec_expiry_waits (hv : s.part.skips sp = false) :
    let u := s.part.patrol.expired c
    s.part.repair.room < min 8 (sp.count - u.offset) * ((s.part.onlineMembers sp.volume).length - 1) →
    exec c s = .next (s.withPart { s.part with patrol := { u with state := .waiting } }) := by
  intro u hroom
  obtain ⟨hrun, -, hmarker⟩ := Part.planRuns_iff.1 hr
  obtain ⟨f, hf, hpush⟩ := exec_expiry hr hc
  obtain ⟨htests, hspan⟩ := patrolTests_expired hr hchunk hsp
  obtain ⟨-, hm, -⟩ := s.part.patrol.expired_keeps c
  refine hf.trans (State.act_of_push hpush hagenda ?_ ⟨hagenda, Part.haltTested_of_state ?_⟩)
  · exact patrolTry_waits htests hspan hv (hm.trans hmarker) hroom
  · rw [show _ = EngineState.running from hrun]
    decide

end

/-! ## The reads of a chunk (R83, R144) -/

theorem laneChoose_withPatrol (p : Part) (u : Patrol) (l : LaneId) :
    laneChoose l { p with patrol := u } = { laneChoose l p with patrol := u } := by
  have hc : ({ p with patrol := u } : Part).chooses l = p.chooses l := rfl
  rw [laneChoose_eq, laneChoose_eq, hc]
  simp only [Part.lane_mk]
  cases p.chooses l
  · rfl
  · cases choose p.engine.share (p.lane l).streak (p.lane l).queue <;> rfl

/-- Issuing does not see or change the patrol unit. -/
theorem enqueue_withPatrol (p : Part) (u : Patrol) (l : LaneId) (op : LaneOp) :
    enqueue l op { p with patrol := u } = { enqueue l op p with patrol := u } := by
  by_cases h : (p.lane l).places < Config.queuePlaces
  · have he : ∀ q : Part, (q.lane l).places < Config.queuePlaces →
        enqueue l op q = laneChoose l (q.setLane l { q.lane l with queue := (q.lane l).queue ++ [op] }) := fun q hq => if_pos hq
    rw [he p h, he { p with patrol := u } h]
    exact laneChoose_withPatrol (p.setLane l { p.lane l with queue := (p.lane l).queue ++ [op] }) u l
  · have he : ∀ q : Part, ¬ (q.lane l).places < Config.queuePlaces →
        enqueue l op q = q.setLane l { q.lane l with waiters := (q.lane l).waiters ++ [op] } := fun q hq => if_neg hq
    rw [he p h, he { p with patrol := u } h]
    rfl

theorem foldl_enqueue_withPatrol {α : Type} (lane : α → LaneId) (op : α → LaneOp) (ys : List α) (p : Part) (u : Patrol) :
    ys.foldl (fun q y => enqueue (lane y) (op y) q) { p with patrol := u } =
      { ys.foldl (fun q y => enqueue (lane y) (op y) q) p with patrol := u } := by
  induction ys generalizing p with
  | nil => rfl
  | cons y ys ih => rw [List.foldl_cons, enqueue_withPatrol, ih, List.foldl_cons]

theorem foldl_enqueue_patrol {α : Type} (lane : α → LaneId) (op : α → LaneOp) (ys : List α) (p : Part) :
    (ys.foldl (fun q y => enqueue (lane y) (op y) q) p).patrol = p.patrol := by
  have h := congrArg Part.patrol (foldl_enqueue_withPatrol lane op ys p p.patrol)
  exact h

/-- The part with a chunk in flight. -/
def Part.withPatrolChunk (p : Part) (c : PatrolChunk) : Part := { p with patrol := { p.patrol with chunk := some c } }

/-- The chunk's reads issued to the lanes of `read`, which gives each its share of the buffers. -/
def issueChunk (start n : Nat) (bufs : List BufId) (read : List (LaneId × Nat)) (p : Part) : Part :=
  read.foldl (fun q y => enqueue y.1
    ⟨.background, .read, start, n, ((bufs.drop (y.2 * n)).take n).map .staging, .patrol, false⟩ q) p

/-- A chunk with its buffers issues its reads, and is judged at once where there is no lane to read. -/
theorem patrolBuffered_eq {p : Part} {c : PatrolChunk} (hc : p.patrol.chunk = some c) :
    let read := sharesRead c.gone p 0 c.lanes
    let d : PatrolChunk := { c with phase := .reads, outstanding := read.length }
    let issued := issueChunk ((p.vol c.volume).first + c.first) c.count (p.pool.bufsOf .patrol) read (p.withPatrolChunk d)
    patrolBuffered p = if read.length = 0 then patrolJudge d issued else issued := by
  intro read d issued
  have hissued : issued = (issueChunk ((p.vol c.volume).first + c.first) c.count (p.pool.bufsOf .patrol) read p).modPatrol
      fun q => { q with chunk := some d } := by
    refine (foldl_enqueue_withPatrol Prod.fst _ read p _).trans ?_
    unfold Part.modPatrol issueChunk
    rw [foldl_enqueue_patrol Prod.fst _ read p]
  unfold patrolBuffered
  simp only [hc, issueShares_eq]
  rw [hissued]
  rfl

theorem patrolDepart_buffers {p : Part} {c : PatrolChunk} (hc : p.patrol.chunk = some c) (hp : c.phase = .buffers)
    (l : LaneId) : patrolDepart l p = p.withPatrolChunk { c with gone := c.gone.add l } := by
  simp only [patrolDepart, hc, Option.map_some, PatrolChunk.depart, hp, if_true]
  rfl

/-! ## The judgement of a chunk (R145) -/

/-- The judgements do not see the patrol unit. -/
theorem Part.judgements_withPatrolChunk (p : Part) (d : PatrolChunk) (ho : Holder) (v : VolId) (n : Nat) (lanes : List LaneId)
    (got : List (LaneId × List Status)) : (p.withPatrolChunk d).judgements ho v n lanes got = p.judgements ho v n lanes got := by
  unfold Part.judgements
  simp only [Part.readsOf_congr (p := p) (q := p.withPatrolChunk d) rfl]
  rfl

section
variable {p : Part} {d : PatrolChunk}

theorem patrolJudge_lost (hl : p.isLost d.volume = true) : patrolJudge d (p.withPatrolChunk d) =
    let skipped := skipSpan d.volume (patrolDrop (p.withPatrolChunk d))
    patrolGoOn skipped.2 skipped.1 :=
  if_pos hl

theorem patrolJudge_unread (hl : p.isLost d.volume = false) (hg : d.got = []) :
    patrolJudge d (p.withPatrolChunk d) = patrolGoOn false (patrolDrop (p.withPatrolChunk d)) := by
  have hl' : ¬ (p.withPatrolChunk d).isLost d.volume = true := Bool.eq_false_iff.1 hl
  exact (if_neg hl').trans (if_pos (by simp [hg]))

/-- The blocks read are judged: the release, the counts, the events, then the discoveries, which the chunk waits for. -/
theorem patrolJudge_read (hl : p.isLost d.volume = false) (hg : d.got ≠ []) {js : List (Nat × List Copy × Verdict)}
    (hjs : p.judgements .patrol d.volume d.count d.lanes d.got = js) :
    let o : Origin := if p.patrol.marker then .recovery else .patrol
    patrolJudge d (p.withPatrolChunk d) = (handDiscoveries (judgedDiscoveries d.volume d.first o 0 js)
      (passEvents ((judgedLost js).map fun i => unrecoverableEvent none d.volume (d.first + i) o 0)
        { releaseAll .patrol p with patrol := { p.patrol with
          chunk := some { d with phase := .settle }
          checked := satAdd p.patrol.checked d.count
          sinceCheckpoint := p.patrol.sinceCheckpoint + d.count
          unrecoverable := satAdd p.patrol.unrecoverable (judgedLost js).length } })).push [.patrolSettle] := by
  have hl' : ¬ (p.withPatrolChunk d).isLost d.volume = true := Bool.eq_false_iff.1 hl
  have hsettle : releaseAll .patrol ((p.withPatrolChunk d).modChunk fun c => { c with phase := .settle }) =
      { releaseAll .patrol p with patrol := { p.patrol with chunk := some { d with phase := .settle } } } := rfl
  unfold patrolJudge
  simp only [if_neg hl', if_neg (show ¬ d.got.isEmpty = true by simpa using hg), Part.judgements_withPatrolChunk, hjs, hsettle]
  rfl

end

/-- The chunk with the end of one of its reads noted (R144). -/
def PatrolChunk.ended (c : PatrolChunk) (l : LaneId) : OpEnd → PatrolChunk
  | .completed ss _ => { c with outstanding := c.outstanding - 1, got := c.got ++ [(l, ss)] }
  | .laneLost => { c with outstanding := c.outstanding - 1 }

/-- The end of a chunk's read is noted; with the last one the chunk is judged. -/
theorem operationEnded_patrol {p : Part} {c : PatrolChunk} {op : LaneOp} (hop : op.producer = .patrol)
    (hc : p.patrol.chunk = some c) (l : LaneId) (r : OpEnd) : operationEnded l op r p =
      if c.outstanding - 1 = 0 then patrolJudge (c.ended l r) (p.withPatrolChunk (c.ended l r))
      else p.withPatrolChunk (c.ended l r) := by
  simp only [operationEnded, hop, patrolOpEnded, hc]
  cases r <;> rfl

end Sys2Proof.Machine
end

section
/-!
Patrol's cursor: the ends of spans and passes, skips, and what follows a chunk (R142, R143, R146 to R148, R150, R151), and
the statement about patrol's timers and chunks.
-/
namespace Sys2Proof.Machine

/-! ## Events of patrol -/

/-- Passing an event does not see or change the patrol unit. -/
theorem passEvent_withPatrol (ev : Event) (p : Part) (u : Patrol) :
    passEvent ev { p with patrol := u } = { passEvent ev p with patrol := u } := by
  unfold passEvent
  dsimp only
  split <;> rfl

theorem spanSkippedEvent_eq (v : VolId) (u : Patrol) :
    spanSkippedEvent v u.offset u.pass (if u.marker then 0 else u.span) =
      ⟨.patrol, none, some v, 1, 0, 0, BitVec.ofNat 32 u.offset, u.pass, if u.marker then 0 else BitVec.ofNat 32 u.span, 0⟩ := by
  cases h : u.marker <;> rfl

/-! ## The end of a span (R146 to R148, R150, R151) -/

section
variable {p : Part} {u : Patrol} (hu : p.patrol = u)
include hu

/-- The end of a span of the plan that is not its last. -/
theorem spanEnd_nextSpan (hm : u.marker = false) {plan : Plan} (hp : u.plan = some plan)
    (hl : u.span + 1 < plan.spans.length) : spanEnd p =
      ({ p with patrol := { u with
        span := u.span + 1, offset := 0, sinceCheckpoint := 0, checkpoint := ⟨u.span + 1, 0, u.pass⟩ } }, true) := by
  subst hu
  have hlast : ¬ plan.spans.length ≤ p.patrol.span + 1 := by omega
  simp [spanEnd, hm, Patrol.spanCount, hp, hlast, Part.modPatrol]

/-- The end of the plan's last span ends the pass. -/
theorem spanEnd_passEnd (hm : u.marker = false) {plan : Plan} (hp : u.plan = some plan)
    (hl : plan.spans.length ≤ u.span + 1) : spanEnd p =
      ({ passEvent (passEndEvent patrolPassEnd u.pass u.checked u.made u.unrecoverable) p with patrol := { u with
        span := 0, offset := 0, sinceCheckpoint := 0, checkpoint := ⟨0, 0, u.pass⟩
        state := if plan.repeats then .resting else .done
        rest := if plan.repeats then plan.rest else u.rest } }, true) := by
  subst hu
  cases hr : plan.repeats <;>
    simp [spanEnd, hm, Patrol.spanCount, hp, hl, Part.modPatrol, passEnd, passEvent_withPatrol, hr]

/-- The end of a volume of the recovery pass, which takes no checkpoint. -/
theorem spanEnd_nextVolume (hm : u.marker = true) {v : VolId} {rest : List VolId} (hv : u.recovery = v :: rest)
    (hr : rest ≠ []) : spanEnd p = ({ p with patrol := { u with recovery := rest, offset := 0 } }, false) := by
  subst hu
  simp [spanEnd, hm, hv, hr, Part.modPatrol]

/-- The end of its last volume ends the recovery pass. -/
theorem spanEnd_recoveryEnd (hm : u.marker = true) {v : VolId} (hv : u.recovery = [v]) : spanEnd p =
    ({ passEvent (passEndEvent patrolRecoveryEnd 0 u.checked u.made u.unrecoverable) p with patrol := { u with
      recovery := [], marker := false, checked := 0, made := 0, unrecoverable := 0, sinceCheckpoint := 0
      span := u.resumeSpan, offset := u.resumeOffset } }, false) := by
  subst hu
  simp [spanEnd, hm, hv, Part.modPatrol, recoveryEnd, passEvent_withPatrol]

end

/-! ## The end of a settled chunk (R146) -/

theorem patrolSettle_waits {p : Part} (h : p.repair.waiter ≠ []) : patrolSettle p = p := by
  unfold patrolSettle
  cases p.patrol.chunk with
  | none => rfl
  | some c => exact if_pos (by simp [h])

/-- The part once the chunk `c` is no longer in flight and the cursor has passed its blocks. -/
def Part.chunkPassed (p : Part) (c : PatrolChunk) : Part :=
  { p with patrol := { p.patrol with chunk := none, offset := p.patrol.offset + c.count } }

section
variable {p : Part} {c : PatrolChunk} {sp : Span} (hc : p.patrol.chunk = some c) (hph : c.phase = .settle)
  (hs : p.currentSpan = some sp) (hw : p.repair.waiter = [])
include hc hph hs hw

/-- A settled chunk ends: at its span's end, at a checkpoint, or otherwise. -/
theorem patrolSettle_eq : patrolSettle p =
    if sp.count ≤ p.patrol.offset + c.count then
      patrolGoOn (spanEnd (p.chunkPassed c)).2 (spanEnd (p.chunkPassed c)).1
    else if p.patrol.marker = false ∧ 4096 ≤ p.patrol.sinceCheckpoint then
      patrolGoOn true ((p.chunkPassed c).modPatrol fun q =>
        { q with checkpoint := ⟨q.span, q.offset, q.pass⟩, sinceCheckpoint := 0 })
    else patrolGoOn false (p.chunkPassed c) := by
  have hcheck : (!p.patrol.marker && decide (Config.checkpointEvery ≤ p.patrol.sinceCheckpoint)) = true ↔
      p.patrol.marker = false ∧ 4096 ≤ p.patrol.sinceCheckpoint := by
    rw [Bool.and_eq_true_iff, Bool.not_eq_true', decide_eq_true_iff]
    rfl
  unfold patrolSettle
  simp only [hc]
  refine (if_neg (by simp [hph, hw])).trans ?_
  simp only [hs]
  by_cases hend : sp.count ≤ p.patrol.offset + c.count
  · rw [if_pos hend]
    exact if_pos (decide_eq_true hend)
  · rw [if_neg hend]
    exact (if_neg (by simpa using hend)).trans (if_congr hcheck rfl rfl)

theorem patrolSettle_spanEnd (hend : sp.count ≤ p.patrol.offset + c.count) {q : Part} {commit : Bool}
    (hq : spanEnd (p.chunkPassed c) = (q, commit)) : patrolSettle p = patrolGoOn commit q := by
  rw [patrolSettle_eq hc hph hs hw, if_pos hend, hq]

end

/-! ## A skipped span (R147) -/

/-- A skip is the end of the span after its event. -/
theorem skipSpan_eq (v : VolId) (p : Part) : skipSpan v p = spanEnd (passEvent ⟨.patrol, none, some v, 1, 0, 0,
    BitVec.ofNat 32 p.patrol.offset, p.patrol.pass, if p.patrol.marker then 0 else BitVec.ofNat 32 p.patrol.span, 0⟩ p) := by
  rw [← spanSkippedEvent_eq]
  rfl

/-! ## What follows a chunk or a skip (R142, R143) -/

section
variable {p : Part} (he : p.engine.state ≠ .halting)
include he

/-- With no STOP pending and no timer running, patrol tests for the next chunk. -/
theorem patrolGoOn_tests (hs : p.patrol.stops = []) (hh : p.patrol.state ≠ .holdoff) (hr : p.patrol.state ≠ .resting) :
    patrolGoOn false p = p.push [.patrolTry] := by
  simp [patrolGoOn, hs, he, hr, patrolTimers_notTimed hh hr]

/-- The same after an end that asks for a commit. -/
theorem patrolGoOn_commits (hs : p.patrol.stops = []) (hh : p.patrol.state ≠ .holdoff) (hr : p.patrol.state ≠ .resting)
    (hc : p.committing) : patrolGoOn true p =
      ({ p with committer := { p.committer with requested := true } } : Part).push [.patrolTry] := by
  have ht := patrolTimers_notTimed (p := { p with committer := { p.committer with requested := true } }) hh hr
  simp [patrolGoOn, hs, he, hr, requestCommit_committing hc, ht]

/-- A pending STOP is taken: patrol is IDLE, and the STOP waits for a commit. -/
theorem patrolGoOn_stops {e : EntryId} {x : Entry} (hs : p.patrol.stops = [e]) (hx : p.entry e = some x) (hc : p.committing)
    (commit : Bool) : patrolGoOn commit p = ({ p with
      table := p.table.set e.val (some (x.await .ok 0 0 0))
      patrol := { p.patrol with stops := [], state := .idle, holdoff := 0, rest := 0 }
      committer := { p.committer with requested := true } } : Part).push [.patrolTry] := by
  set q : Part := { p with
    table := p.table.set e.val (some (x.await .ok 0 0 0))
    patrol := { p.patrol with stops := [], state := .idle, holdoff := 0, rest := 0 } } with hq
  have hstopped : (p.modEntry e (Entry.await .ok 0 0 0)).modPatrol
      (fun q => { q with stops := [], state := .idle, holdoff := 0, rest := 0 }) = q := by
    rw [Part.modEntry_eq hx]
    rfl
  have hcommit : requestCommit q = { q with committer := { p.committer with requested := true } } :=
    requestCommit_committing (p := q) hc
  have ht : patrolTimers { q with committer := { p.committer with requested := true } } =
      { q with committer := { p.committer with requested := true } } := patrolTimers_notTimed (by simp [hq]) (by simp [hq])
  simp only [patrolGoOn, hs, List.foldl_cons, List.foldl_nil, List.isEmpty_cons, Bool.false_eq_true, if_false, hstopped,
    Bool.not_false, Bool.or_true, if_true, hcommit]
  rw [if_neg (show q.engine.state ≠ .halting from he), if_neg (by simp [hq])]
  exact congrArg (fun z : Part => z.push [.patrolTry]) ht

end

/-- Settles O54: the timers, then a chunk with its buffers, its reads' ends, its settling, what follows it, and the skips. -/
theorem holdoffAndRestBeginPatrol : Obligations.HoldoffAndRestBeginPatrol := by
  refine ⟨?_, ?_, ?_, ?_, ?_, fun _ _ _ _ _ => rfl, ?_, ?_⟩
  · intro c s sp hrest p q started n k
    refine ⟨fun h => State.act_of_eq (holdoffExpired_idle h) hrest, fun h => State.act_of_eq (restExpired_idle h) hrest,
      fun hrun hpaused hm hch hc hsp hready hlost hlen => ?_⟩
    have hr : s.part.planRuns = true := Part.planRuns_iff.2 ⟨hrun, hpaused, hm⟩
    have hv : s.part.skips sp = false := by
      have hready' : s.part.ready sp.volume = true := hready
      have hlost' : s.part.isLost sp.volume = false := hlost
      simpa [Part.skips, hready', hlost'] using hlen
    exact ⟨exec_expiry_begins hrest.1 hr hch hc hsp hv, exec_expiry_waits hrest.1 hr hch hc hsp hv⟩
  · intro c p hc hph hg start bufs read has skipped
    have hgo := patrolBuffered_eq hc
    refine ⟨patrolDepart_buffers hc hph, fun hr => hgo.trans (if_neg (mt List.length_eq_zero_iff.1 hr)),
      fun hr hl => ?_, fun hr hl => ?_⟩
    · replace hgo := hgo.trans (if_pos (List.length_eq_zero_iff.2 hr))
      rw [hgo, show sharesRead c.gone p 0 c.lanes = [] from hr]
      exact patrolJudge_unread (d := { c with phase := .reads, outstanding := 0 }) hl hg
    · replace hgo := hgo.trans (if_pos (List.length_eq_zero_iff.2 hr))
      rw [hgo, show sharesRead c.gone p 0 c.lanes = [] from hr]
      exact patrolJudge_lost (d := { c with phase := .reads, outstanding := 0 }) hl
  · intro l op r c p hop hc got d q js o lost skipped
    have hd : c.ended l r = d := by cases r <;> rfl
    have hgo := operationEnded_patrol hop hc l r
    rw [hd] at hgo
    refine ⟨fun h2 => hgo.trans (if_neg (by omega)), fun h1 hl => ?_, fun h1 hl hg => ?_, fun h1 hl hg => ?_⟩
    · exact (hgo.trans (if_pos (by omega))).trans (patrolJudge_lost hl)
    · exact (hgo.trans (if_pos (by omega))).trans (patrolJudge_unread hl hg)
    · exact (hgo.trans (if_pos (by omega))).trans (patrolJudge_read (d := d) hl hg rfl)
  · intro c sp p hc hph hs u offset next
    refine ⟨patrolSettle_waits, fun hw hlt => ?_, fun hw hle hm plan hp => ⟨fun hl => ?_, fun hl => ?_⟩,
      fun hw hle hm v rest hv => ⟨fun hr => ?_, fun hr => ?_⟩⟩
    · have hgo := (patrolSettle_eq hc hph hs hw).trans (if_neg (not_le.2 hlt))
      refine ⟨fun h => hgo.trans (if_neg ?_), fun hm hn => hgo.trans (if_pos ⟨hm, hn⟩)⟩
      rintro ⟨hm, hn⟩
      rcases h with h | h
      · exact Bool.eq_false_iff.1 hm h
      · exact absurd hn (not_le.2 h)
    · exact patrolSettle_spanEnd hc hph hs hw hle (spanEnd_nextSpan (u := (p.chunkPassed c).patrol) rfl hm hp hl)
    · exact (patrolSettle_spanEnd hc hph hs hw hle (spanEnd_passEnd (p := p.chunkPassed c) rfl hm hp hl)).trans
        (by rw [Part.chunkPassed, passEvent_withPatrol])
    · exact patrolSettle_spanEnd hc hph hs hw hle (spanEnd_nextVolume (u := (p.chunkPassed c).patrol) rfl hm hv hr)
    · exact (patrolSettle_spanEnd hc hph hs hw hle (spanEnd_recoveryEnd (p := p.chunkPassed c) rfl hm (hr ▸ hv))).trans
        (by rw [Part.chunkPassed, passEvent_withPatrol])
  · intro p he u
    exact ⟨fun hs hh hr => ⟨patrolGoOn_tests he hs hh hr, patrolGoOn_commits he hs hh hr⟩,
      fun e x commit hs hx hc => patrolGoOn_stops he hs hx hc commit⟩
  · intro v p u told
    have hu : told.patrol = u := passEvent_patrol ..
    rw [show skipSpan v p = spanEnd told from skipSpan_eq v p]
    refine ⟨fun hm plan hp => ?_, fun hm w rest hv => ⟨fun hr => spanEnd_nextVolume hu hm hv hr, fun hr => ?_⟩⟩
    · exact ⟨fun hl => spanEnd_nextSpan hu hm hp hl, fun hl => spanEnd_passEnd hu hm hp hl⟩
    · exact spanEnd_recoveryEnd hu hm (hr ▸ hv)
  · intro sp p hr hp hc ht hs hv
    exact patrolTry_skips ⟨hr, hp, hc, ht⟩ hs (Part.skips_iff.2 hv)

end Sys2Proof.Machine
end

section
/-!
The fetch of a patrol plan: what its bytes give and which are malformed, its checks against the volumes, and its storing (R138,
R139, 9.2).
-/
namespace Sys2Proof.Machine

/-! ## Zero fields -/

theorem byteAt_drop (bs : List Byte) (off i : Nat) : byteAt (bs.drop off) i = byteAt bs (off + i) := by
  simp [byteAt, List.getD_eq_getElem?_getD]

/-- A field is its first byte and the field after it. -/
theorem fieldAt_succ (bs : List Byte) (off n : Nat) :
    fieldAt bs off (n + 1) = (byteAt bs off).toNat + 256 * fieldAt bs (off + 1) n := by
  have hdrop : bs.drop (off + 1) = (bs.drop off).drop 1 := by rw [List.drop_drop]
  rw [← Nat.add_zero off, ← byteAt_drop, Nat.add_zero]
  unfold fieldAt
  rw [hdrop]
  cases bs.drop off with
  | nil => simp [ofLe, byteAt]
  | cons b rest => simp [ofLe, byteAt]

/-- A field is zero where each of its bytes is. -/
theorem fieldAt_eq_zero_iff (bs : List Byte) (off n : Nat) :
    fieldAt bs off n = 0 ↔ ∀ i, off ≤ i → i < off + n → byteAt bs i = 0 := by
  induction n generalizing off with
  | zero => exact iff_of_true rfl fun i h h' => by omega
  | succ n ih =>
    have hbyte : (byteAt bs off).toNat = 0 ↔ byteAt bs off = 0 := BitVec.toNat_inj (y := 0)
    rw [fieldAt_succ, Nat.add_eq_zero_iff, hbyte, Nat.mul_eq_zero, or_iff_right (by decide), ih]
    refine ⟨fun ⟨h0, h⟩ i hi hn => ?_, fun h => ⟨h off le_rfl (by omega), fun i hi hn => h i (by omega) (by omega)⟩⟩
    rcases Nat.eq_or_lt_of_le hi with rfl | hlt
    · exact h0
    · exact h i hlt (by omega)

theorem fieldAt_ne_zero_iff (bs : List Byte) (off n : Nat) :
    fieldAt bs off n ≠ 0 ↔ ∃ i, off ≤ i ∧ i < off + n ∧ byteAt bs i ≠ 0 := by
  rw [Ne, fieldAt_eq_zero_iff]
  push Not
  rfl

/-- The bits of a byte but its lowest. -/
theorem highBits_ne_zero_iff (b : Byte) : b &&& 0xFE ≠ 0 ↔ ∃ i, 1 ≤ i ∧ i < 8 ∧ b.getLsbD i = true := by
  have hmask : ∀ i, i < 8 → (b &&& 0xFE).getLsbD i = (decide (1 ≤ i) && b.getLsbD i) := by
    intro i hi
    rw [BitVec.getLsbD_and, Bool.and_comm]
    congr 1
    interval_cases i <;> rfl
  have hzero (i : Nat) : (0 : Byte).getLsbD i = false := BitVec.getLsbD_zero
  refine ⟨fun h => by_contra fun hn => h (BitVec.eq_of_getLsbD_eq fun i hi => ?_), fun ⟨i, h1, h8, hb⟩ h => ?_⟩
  · rw [hmask i hi, hzero, Bool.and_eq_false_imp, decide_eq_true_iff]
    exact fun h1 => Bool.eq_false_iff.2 fun hb => hn ⟨i, h1, hi, hb⟩
  · have hbit := hmask i h8
    rw [h, hzero, hb] at hbit
    simp [h1] at hbit

/-! ## The bytes of a plan (9.2) -/

/-- The span fields of a plan buffer that are malformed by themselves (R138, check 4). -/
def SpanMalformed (bs : List Byte) (i : Nat) : Prop :=
  7 < (byteAt bs (16 + 12 * i)).toNat ∨ byteAt bs (17 + 12 * i) ≠ 0 ∨ byteAt bs (18 + 12 * i) ≠ 0
    ∨ byteAt bs (19 + 12 * i) ≠ 0 ∨ fieldAt bs (24 + 12 * i) 4 = 0

/-- The bytes before the spans, and the rest behind them, that are malformed by themselves (R138, check 4). -/
def PlanHeadMalformed (bs : List Byte) : Prop :=
  let n := (byteAt bs 0).toNat
  n = 0 ∨ 8 < n ∨ (∃ i, 1 ≤ i ∧ i < 8 ∧ (byteAt bs 1).getLsbD i = true) ∨ 1440 < fieldAt bs 2 2
    ∨ ∃ i, ((5 ≤ i ∧ i ≤ 15) ∨ (16 + 12 * n ≤ i ∧ i ≤ 127)) ∧ byteAt bs i ≠ 0

theorem spanReserved_iff (bs : List Byte) (k : Nat) :
    fieldAt bs k 3 ≠ 0 ↔ byteAt bs k ≠ 0 ∨ byteAt bs (k + 1) ≠ 0 ∨ byteAt bs (k + 2) ≠ 0 := by
  rw [fieldAt_ne_zero_iff]
  refine ⟨fun ⟨i, hi, hn, hb⟩ => ?_, fun h => ?_⟩
  · obtain rfl | rfl | rfl : i = k ∨ i = k + 1 ∨ i = k + 2 := by omega
    · exact .inl hb
    · exact .inr (.inl hb)
    · exact .inr (.inr hb)
  · rcases h with h | h | h
    · exact ⟨k, by omega, by omega, h⟩
    · exact ⟨k + 1, by omega, by omega, h⟩
    · exact ⟨k + 2, by omega, by omega, h⟩

theorem volOf_eq_none {b : Byte} : volOf b = none ↔ 7 < b.toNat := by
  rw [← Option.isNone_iff_eq_none, volOf_isNone, decide_eq_true_iff]
  exact Nat.lt_iff_add_one_le.symm

section
variable {bs : List Byte} {i : Nat}

theorem parseSpan_eq_none_iff : parseSpan bs i = none ↔ SpanMalformed bs i := by
  have hreserved := spanReserved_iff bs (17 + 12 * i)
  rw [show 17 + 12 * i + 1 = 18 + 12 * i by omega, show 17 + 12 * i + 2 = 19 + 12 * i by omega] at hreserved
  have hfields : (decide (fieldAt bs (17 + 12 * i) 3 ≠ 0) || decide (fieldAt bs (24 + 12 * i) 4 = 0)) = true ↔
      byteAt bs (17 + 12 * i) ≠ 0 ∨ byteAt bs (18 + 12 * i) ≠ 0 ∨ byteAt bs (19 + 12 * i) ≠ 0
        ∨ fieldAt bs (24 + 12 * i) 4 = 0 := by
    rw [Bool.or_eq_true_iff, decide_eq_true_iff, decide_eq_true_iff, hreserved, or_assoc, or_assoc]
  unfold SpanMalformed
  rw [← hfields, ← volOf_eq_none]
  unfold parseSpan
  cases volOf (byteAt bs (16 + 12 * i)) with
  | none => simp
  | some v =>
    simp only [reduceCtorEq, false_or]
    split
    case isTrue h => exact iff_of_true rfl h
    case isFalse h => exact iff_of_false (by simp) h

theorem parseSpan_some {y : Span} (h : parseSpan bs i = some y) :
    y.volume.val = (byteAt bs (16 + 12 * i)).toNat ∧ y.first = fieldAt bs (20 + 12 * i) 4
    ∧ y.count = fieldAt bs (24 + 12 * i) 4 := by
  unfold parseSpan at h
  split at h
  · cases h
  · next v hv =>
    split at h
    · cases h
    · obtain rfl := Option.some_inj.1 h
      exact ⟨(volOf_eq_some.1 hv).symm, rfl, rfl⟩

end

theorem allSome_eq_ite {α : Type} (xs : List (Option α)) :
    allSome xs = if xs.any Option.isNone then none else some (xs.filterMap id) := by
  induction xs with
  | nil => rfl
  | cons x xs ih =>
    rw [allSome_cons, ih]
    cases x with
    | none => simp
    | some x => cases h : xs.any Option.isNone <;> simp [h]

/-- The bytes after the head, and those behind the spans, of a plan of at most 8 spans. -/
theorem planReserved_iff (bs : List Byte) {n : Nat} (hn : n ≤ 8) :
    (fieldAt bs 5 11 ≠ 0 ∨ fieldAt bs (16 + 12 * n) (112 - (16 + 12 * n)) ≠ 0 ∨ fieldAt bs 112 16 ≠ 0) ↔
      ∃ i, ((5 ≤ i ∧ i ≤ 15) ∨ (16 + 12 * n ≤ i ∧ i ≤ 127)) ∧ byteAt bs i ≠ 0 := by
  simp only [fieldAt_ne_zero_iff]
  refine ⟨?_, fun ⟨i, hi, hb⟩ => ?_⟩
  · rintro (⟨i, h1, h2, hb⟩ | ⟨i, h1, h2, hb⟩ | ⟨i, h1, h2, hb⟩) <;> exact ⟨i, by omega, hb⟩
  · rcases hi with hi | hi
    · exact .inl ⟨i, by omega, by omega, hb⟩
    · by_cases h : i < 112
      · exact .inr (.inl ⟨i, by omega, by omega, hb⟩)
      · exact .inr (.inr ⟨i, by omega, by omega, hb⟩)

/-- A plan is given by bytes whose head is not malformed and whose spans all parse. -/
theorem parsePlan_eq (bs : List Byte) :
    (PlanHeadMalformed bs → parsePlan bs = none)
    ∧ (¬ PlanHeadMalformed bs → parsePlan bs =
      (allSome ((List.range (byteAt bs 0).toNat).map (parseSpan bs))).map fun spans =>
        ⟨spans, (byteAt bs 1).getLsbD 0, fieldAt bs 2 2, (byteAt bs 4).toNat⟩) := by
  set n := (byteAt bs 0).toNat with hn
  have hhead : (n = 0 || 8 < n || (byteAt bs 1 &&& 0xFE) ≠ 0 || 1440 < fieldAt bs 2 2 || fieldAt bs 5 11 ≠ 0
      || fieldAt bs (16 + 12 * n) (112 - (16 + 12 * n)) ≠ 0 || fieldAt bs 112 16 ≠ 0) = true ↔ PlanHeadMalformed bs := by
    simp only [Bool.or_eq_true_iff, decide_eq_true_iff, highBits_ne_zero_iff, or_assoc, PlanHeadMalformed, ← hn]
    refine or_congr_right' fun _ => or_congr_right' fun h8 => ?_
    rw [planReserved_iff bs (not_lt.1 h8)]
  have hgo : parsePlan bs = if (n = 0 || 8 < n || (byteAt bs 1 &&& 0xFE) ≠ 0 || 1440 < fieldAt bs 2 2 || fieldAt bs 5 11 ≠ 0
      || fieldAt bs (16 + 12 * n) (112 - (16 + 12 * n)) ≠ 0 || fieldAt bs 112 16 ≠ 0) = true then none
      else (allSome ((List.range n).map (parseSpan bs))).map fun spans =>
        ⟨spans, (byteAt bs 1).getLsbD 0, fieldAt bs 2 2, (byteAt bs 4).toNat⟩ := by
    simp only [allSome_eq_ite, apply_ite (Option.map _), Option.map_none, Option.map_some, hn, byteAt_toNat]
    rfl
  exact ⟨fun h => hgo.trans (if_pos (hhead.2 h)), fun h => hgo.trans (if_neg (mt hhead.1 h))⟩

/-- The plans that are malformed by themselves (R138, check 4). -/
theorem parsePlan_eq_none_iff (bs : List Byte) :
    parsePlan bs = none ↔ PlanHeadMalformed bs ∨ ∃ i, i < (byteAt bs 0).toNat ∧ SpanMalformed bs i := by
  obtain ⟨hbad, hgood⟩ := parsePlan_eq bs
  by_cases hh : PlanHeadMalformed bs
  · exact iff_of_true (hbad hh) (.inl hh)
  · rw [hgood hh, or_iff_right hh, Option.map_eq_none_iff, allSome_eq_ite, ite_eq_left_iff, List.any_map]
    simp only [← parseSpan_eq_none_iff]
    simp

/-- The fields of a plan that is not malformed (9.2). -/
theorem parsePlan_some {bs : List Byte} {plan : Plan} (h : parsePlan bs = some plan) :
    plan.spans.length = (byteAt bs 0).toNat ∧ plan.repeats = (byteAt bs 1).getLsbD 0 ∧ plan.rest = fieldAt bs 2 2
    ∧ plan.holdoff = (byteAt bs 4).toNat
    ∧ ∀ i y, plan.spans[i]? = some y → y.volume.val = (byteAt bs (16 + 12 * i)).toNat
      ∧ y.first = fieldAt bs (20 + 12 * i) 4 ∧ y.count = fieldAt bs (24 + 12 * i) 4 := by
  obtain ⟨hbad, hgood⟩ := parsePlan_eq bs
  have hh : ¬ PlanHeadMalformed bs := fun hh => by cases (hbad hh).symm.trans h
  rw [hgood hh, Option.map_eq_some_iff] at h
  obtain ⟨spans, hspans, rfl⟩ := h
  exact ⟨length_of_allSome_range hspans, rfl, rfl, rfl, fun i y hy => parseSpan_some (getElem?_of_allSome_range hspans hy)⟩

/-! ## The end of the fetch (R138, R139) -/

theorem planRefusal_cases (plan : Plan) (p : Part) :
    ((∃ y ∈ plan.spans, p.ready y.volume = false) → planRefusal (some plan) p = some .refusedFormat)
    ∧ ((∀ y ∈ plan.spans, p.ready y.volume = true) → (∃ y ∈ plan.spans, (p.vol y.volume).length < y.first + y.count) →
      planRefusal (some plan) p = some .refusedRange)
    ∧ ((∀ y ∈ plan.spans, p.ready y.volume = true ∧ y.first + y.count ≤ (p.vol y.volume).length) →
      planRefusal (some plan) p = none) := by
  refine ⟨fun h => if_pos ?_, fun hr h => (if_neg ?_).trans (if_pos ?_), fun h => (if_neg ?_).trans (if_neg ?_)⟩
  · simpa using h
  · simpa using hr
  · simpa using h
  · simpa using fun y hy => (h y hy).1
  · simpa using fun y hy => (h y hy).2

section
variable {p : Part} {e : EntryId} {x : Entry} (he : p.entry e = some x) (hk : x.req.kind = kindPlan)
  (hs : x.state = .fetching)
include he hk hs

theorem planFetched_fault : planFetched e none p = refuse e .busFault p := by
  simp [planFetched, he, hk, hs]

variable {b : BufId} (hb : p.pool.bufsOf (.request e) = [b]) (hw : p.noWaiters) (bs : List Byte)
include hb hw

/-- The plan's bytes are in its buffer: the buffer is released, and the plan is checked, then stored. -/
theorem planFetched_read : let q := (p.setBuffer b bs).released (.request e)
    (p.patrol.marker = true ∨ p.patrol.active = true → planFetched e (some bs) p = complete e .refusedBusy 0 0 0 q)
    ∧ (¬ (p.patrol.marker = true ∨ p.patrol.active = true) →
      (∀ o, planRefusal (parsePlan bs) p = some o → planFetched e (some bs) p = complete e o 0 0 0 q)
      ∧ (planRefusal (parsePlan bs) p = none → planFetched e (some bs) p = awaitCommit e 0 (q.modPatrol fun u =>
        { u with plan := parsePlan bs, span := 0, offset := 0, checkpoint := ⟨0, 0, u.pass⟩ }))) := by
  intro q
  have hfill : fillBuffers (p.pool.bufsOf (.request e)) [bs] p = p.setBuffer b bs := by
    rw [hb]
    rfl
  have hq : releaseAll (.request e) (p.setBuffer b bs) = q := releaseAll_noWaiters hw
  have hstate : ¬ (x.req.kind ≠ kindPlan || x.state ≠ .fetching) = true := by simp [hk, hs]
  have hpatrol : q.patrol = p.patrol := rfl
  have hrefusal : planRefusal (parsePlan bs) q = planRefusal (parsePlan bs) p := rfl
  unfold planFetched
  simp only [he, if_neg hstate, hfill, hq, hpatrol, hrefusal]
  refine ⟨fun h => if_pos (Bool.or_eq_true_iff.2 h), fun h => ?_⟩
  rw [if_neg (mt Bool.or_eq_true_iff.1 h)]
  exact ⟨fun o ho => by rw [ho], fun ho => by rw [ho]⟩

end

/-- Settles O53: the fault, the checks in order, the storing, then the bytes of a plan. -/
theorem fetchedPlansAreCheckedAndStored : Obligations.FetchedPlansAreCheckedAndStored := by
  refine ⟨?_, fun bs => ⟨?_, fun plan => parsePlan_some⟩⟩
  · intro e x s bs b ha he hk hs hw hb p q released after refused busy
    have hentry : after.entry e = some x := he
    obtain ⟨hbusy, hfree⟩ := planFetched_read he hk hs hb hw bs
    have hrefused {o : ReqOutcome} (h : planFetched e (some bs) s.part = complete e o 0 0 0 after) :
        exec (.patrolPlanFetched e (some bs)) s = refused o :=
      State.act_of_eq (h.trans (complete_eq hentry ..)) (Part.atRest_finished (p := after) ha ..)
    have hstands : s.part.patrol.marker = true ∨ s.part.patrol.active = true ↔ busy := or_congr_right Patrol.active_iff
    rw [hstands] at hbusy hfree
    refine ⟨act_finish ha hw he (planFetched_fault he hk hs), fun h => hrefused (hbusy h), fun h hp =>
      hrefused ((hfree h).1 _ (by rw [hp]; rfl)), fun plan h hp => ?_⟩
    obtain ⟨hnotReady, hrange, hpasses⟩ := planRefusal_cases plan s.part
    obtain ⟨hrefusal, hstores⟩ := hfree h
    rw [hp] at hrefusal hstores
    refine ⟨fun hv => hrefused (hrefusal _ (hnotReady hv)), fun hv hr => hrefused (hrefusal _ (hrange hv hr)), fun hv hc =>
      State.act_of_eq ((hstores (hpasses hv)).trans ?_)
        (Part.atRest_of_entry (e := e) ha (Part.entry_withTable_same after s.part.table ..))⟩
    exact awaitCommit_committing (p := after.modPatrol _) hentry hc 0
  · rw [parsePlan_eq_none_iff, PlanHeadMalformed]
    simp only [or_assoc]
    rfl

end Sys2Proof.Machine
end

section
/-!
PATROL PLAN and SNAPSHOT received (R138, R179): their checks, the wait for a buffer, and what follows its grant.
-/
namespace Sys2Proof.Machine

/-! ## One buffer (R81, R82) -/

/-- The one buffer given to a holder that has none is the lowest free one (log 10). -/
theorem Pool.bufsOf_give_one {q : Pool} {h : Holder} {b : BufId} {rest : List BufId}
    (hn : ∀ x ∈ q.holders.toList, x ≠ some h) (hf : q.freeBufs = b :: rest) : (q.give h 1).bufsOf h = [b] := by
  have hgive : (q.give h 1).holders = q.holders.set b.val (some h) := by
    unfold Pool.give
    rw [hf]
    rfl
  have hheld : ∀ c : BufId, (q.give h 1).holders[c.val] = some h ↔ c = b := fun c => by
    have hc : q.holders[c.val] ≠ some h := hn _ (by simp)
    simp only [hgive, Vector.getElem_set, ← Fin.ext_iff]
    split
    case isTrue hbc => exact iff_of_true rfl hbc.symm
    case isFalse hbc => exact iff_of_false hc fun hcb => hbc hcb.symm
  unfold Pool.bufsOf
  simp only [hheld]
  refine (List.filter_eq b).trans ?_
  rw [show allBufs.count b = 1 from List.count_eq_one_of_mem (List.nodup_finRange 64) (List.mem_finRange b)]
  rfl

/-- The slot of entry `e` taken, with one buffer given to its request. -/
def Part.fed (p : Part) (e : EntryId) (y : Entry) : Part := { p.taken e y with pool := p.pool.give (.request e) 1 }

section
variable (p : Part) (e : EntryId) (y : Entry)

@[simp] theorem Part.fed_entry : (p.fed e y).entry e = some y := Part.taken_entry p e y

theorem Part.fed_modEntry (f : Entry → Entry) : (p.fed e y).modEntry e f = p.fed e (f y) := by
  rw [Part.modEntry_eq (Part.fed_entry p e y)]
  simp [Part.fed, Part.taken]

/-- A taken request asks for one buffer, and waits for it, with none free or others waiting. -/
theorem askBuffer_waits (hk : p.pool.headWaits) (h : p.pool.waiting ≠ [] ∨ p.pool.freeCount = 0) :
    askBuffers (.request e) 1 (setEntryState e .waitBuffers (p.taken e y)) =
      { p.taken e { y with state := .waitBuffers } with
        pool := { p.pool with waiting := p.pool.waiting ++ [(.request e, 1)] } } := by
  unfold setEntryState
  rw [Part.taken_modEntry]
  exact askBuffers_waits (p := p.taken e { y with state := .waitBuffers }) hk
    (h.imp_right Nat.lt_one_iff.2)

/-- It has the buffer at once, with one free and nobody waiting. -/
theorem askBuffer_granted (hw : p.pool.waiting = []) (hn : 1 ≤ p.pool.freeCount) :
    askBuffers (.request e) 1 (setEntryState e .waitBuffers (p.taken e y)) =
      (p.fed e { y with state := .waitBuffers }).push [.buffersGranted (.request e)] := by
  have hpool : ({ p.pool.give (.request e) 1 with waiting := [] } : Pool) = p.pool.give (.request e) 1 := by
    rw [← hw]
    rfl
  unfold setEntryState
  rw [Part.taken_modEntry, askBuffers_granted (p := p.taken e _) hw hn]
  exact congrArg (fun q : Pool => ({ p.taken e { y with state := .waitBuffers } with pool := q } : Part).push
    [.buffersGranted (.request e)]) hpool

theorem buffersGranted_fed (hw : p.pool.waiting = []) :
    buffersGranted (.request e) (p.fed e y) = requestBuffered e (p.fed e y) :=
  if_neg (by simp [Part.fed, Pool.give, hw])

end

/-! ## The checks, and what follows the grant -/

section
variable {p : Part} {e : EntryId} {r : Request}

theorem planReceived_frozen (h : p.frozen = true) : planReceived e r p = refuse e .refusedFrozen p := if_pos h

theorem planReceived_misaligned (hf : p.frozen = false) (h : r.address.toNat % 64 ≠ 0) :
    planReceived e r p = refuse e .refusedFormat p := by
  simp [planReceived, hf, aligned64, h]

theorem planReceived_asks (hf : p.frozen = false) (h : r.address.toNat % 64 = 0) :
    planReceived e r p = askBuffers (.request e) 1 (setEntryState e .waitBuffers p) := by
  simp [planReceived, hf, aligned64, h]

theorem snapshotReceived_misaligned (h : r.address.toNat % 64 ≠ 0) :
    snapshotReceived e r p = refuse e .refusedFormat p := by
  simp [snapshotReceived, aligned64, h]

theorem snapshotReceived_asks (h : r.address.toNat % 64 = 0) :
    snapshotReceived e r p = askBuffers (.request e) 1 (setEntryState e .waitBuffers p) := by
  simp [snapshotReceived, aligned64, h]

variable {y : Entry} (he : p.entry e = some y) (hs : y.state = .waitBuffers)
include he hs

/-- A PLAN with its buffer fetches (log 18). -/
theorem requestBuffered_plan (hk : y.req.kind = kindPlan) :
    requestBuffered e p = p.modEntry e fun y => { y with state := .fetching } := by
  have hr : ¬ kindPlan = kindRead := by decide
  have hv : ¬ kindPlan = kindVerify := by decide
  have hn : ¬ kindPlan = kindSnapshot := by decide
  simp [requestBuffered, he, hs, hk, hr, hv, hn, setEntryState]

theorem requestBuffered_snapshot (hk : y.req.kind = kindSnapshot) : requestBuffered e p = snapshotBuild e p := by
  have hr : ¬ kindSnapshot = kindRead := by decide
  have hv : ¬ kindSnapshot = kindVerify := by decide
  simp [requestBuffered, he, hs, hk, hr, hv]

end

/-- A SNAPSHOT's buffer holds the report of the part, to be delivered (R179). -/
theorem snapshotBuild_fed {p : Part} {e : EntryId} {b : BufId} {rest : List BufId} (hn : p.holdsNothing (.request e))
    (hb : p.pool.freeBufs = b :: rest) (y : Entry) : snapshotBuild e (p.fed e y) =
      (p.fed e { y with state := .delivering, laneMask := LaneMask.ofList (allLanes.filter p.online) }).setBuffer b
        p.snapshotBytes := by
  have hbufs : (p.fed e y).pool.bufsOf (.request e) = [b] := Pool.bufsOf_give_one hn.2.1 hb
  unfold snapshotBuild
  rw [hbufs]
  exact congrArg (fun q : Part => q.setBuffer b p.snapshotBytes) (Part.fed_modEntry p e y _)

/-- Where a request asks for one buffer, it waits or has it. -/
theorem act_buffer_waits {s : State} {e : EntryId} {x : Entry} {f : Part → Part} (ha : s.part.agenda = [])
    (hk : s.part.pool.headWaits)
    (hf : f s.part = askBuffers (.request e) 1 (setEntryState e .waitBuffers (s.part.taken e { x with state := .received })))
    (h : s.part.pool.waiting ≠ [] ∨ s.part.pool.freeCount = 0) :
    s.act f = .next (s.withPart { s.part.taken e { x with state := .waitBuffers } with
      pool := { s.part.pool with waiting := s.part.pool.waiting ++ [(.request e, 1)] } }) :=
  State.act_of_eq (hf.trans (askBuffer_waits _ _ { x with state := .received } hk h))
    (Part.atRest_of_entry ha (Part.taken_entry s.part e { x with state := .waitBuffers }))

theorem act_buffer_granted {s : State} {e : EntryId} {x y : Entry} {f : Part → Part} {q : Part} (ha : s.part.agenda = [])
    (hf : f s.part = askBuffers (.request e) 1 (setEntryState e .waitBuffers (s.part.taken e { x with state := .received })))
    (hw : s.part.pool.waiting = []) (hn : 1 ≤ s.part.pool.freeCount)
    (hq : requestBuffered e (s.part.fed e { x with state := .waitBuffers }) = q) (hqa : q.agenda = [])
    (hqe : q.entry e = some y) : s.act f = .next (s.withPart q) :=
  State.act_of_push (hf.trans (askBuffer_granted _ _ { x with state := .received } hw hn)) ha
    ((buffersGranted_fed _ _ _ hw).trans hq) (Part.atRest_of_entry hqa hqe)

end Sys2Proof.Machine
end

section
/-!
The snapshot report (R179, 13.3): where its fields stand, and the statement about PATROL PLAN and SNAPSHOT.
-/
namespace Sys2Proof.Machine

/-! ## Fields laid out -/

/-- Fields at ascending offsets, none over another, from offset `a` to `z`. -/
def Fits (a : Nat) : List (Nat × List Byte) → Nat → Prop
  | [], z => a = z
  | (off, field) :: rest, z => a ≤ off ∧ Fits (off + field.length) rest z

theorem Fits.append {fs gs : List (Nat × List Byte)} {a m z : Nat} (hf : Fits a fs m) (hg : Fits m gs z) :
    Fits a (fs ++ gs) z := by
  induction fs generalizing a with
  | nil => exact (show a = m from hf) ▸ hg
  | cons f fs ih => exact ⟨hf.1, ih hf.2⟩

/-- Bytes hold a field at its offset. -/
def Holds (bs : List Byte) (x : Nat × List Byte) : Prop := (bs.drop x.1).take x.2.length = x.2

theorem layout_length {fs : List (Nat × List Byte)} {a z : Nat} (hf : Fits a fs z) : a + (layout a fs).length = z := by
  induction fs generalizing a with
  | nil => exact hf
  | cons f fs ih =>
    obtain ⟨ha, hf⟩ := hf
    have := ih hf
    simp only [layout, List.length_append, List.length_replicate]
    omega

/-- Each field laid out stands at its offset. -/
theorem layout_holds {fs : List (Nat × List Byte)} {a z : Nat} (hf : Fits a fs z) :
    ∀ x ∈ fs, a ≤ x.1 ∧ ((layout a fs).drop (x.1 - a)).take x.2.length = x.2 := by
  induction fs generalizing a with
  | nil => exact List.forall_mem_nil _
  | cons f fs ih =>
    obtain ⟨ha, hf⟩ := hf
    have hgap : (List.replicate (f.1 - a) (0 : Byte)).length = f.1 - a := List.length_replicate
    refine List.forall_mem_cons.2 ⟨⟨ha, ?_⟩, fun x hx => ?_⟩
    · rw [layout, List.append_assoc, List.drop_left' hgap, List.take_left]
    · obtain ⟨hle, hfield⟩ := ih hf x hx
      have hpast : (List.replicate (f.1 - a) (0 : Byte) ++ f.2).length = f.1 + f.2.length - a := by
        rw [List.length_append, hgap]
        omega
      have hoff : x.1 - a = f.1 + f.2.length - a + (x.1 - (f.1 + f.2.length)) := by omega
      refine ⟨by omega, ?_⟩
      rw [layout, hoff, ← List.drop_drop, List.drop_left' hpast]
      exact hfield

/-- The length of bytes laid out, and that they hold their fields. -/
theorem layout_spec {bs : List Byte} {fs : List (Nat × List Byte)} {z : Nat} (hb : bs = layout 0 fs) (hf : Fits 0 fs z) :
    bs.length = z ∧ ∀ x ∈ fs, Holds bs x := by
  subst hb
  have hlen := layout_length hf
  exact ⟨by omega, fun x hx => (layout_holds hf x hx).2⟩

section
variable {bs : List Byte} {off : Nat}

theorem Holds.field {f : List Byte} (h : Holds bs (off, f)) : fieldAt bs off f.length = ofLe f := congrArg ofLe h

theorem Holds.byte {b : Byte} (h : Holds bs (off, [b])) : fieldAt bs off 1 = b.toNat :=
  h.field.trans (by simp [ofLe])

theorem Holds.number {n x : Nat} (h : Holds bs (off, leBytes n x)) : fieldAt bs off n = x % 256 ^ n := by
  have hfield := h.field
  rwa [leBytes_length, ofLe_leBytes] at hfield

theorem Holds.word {n w : Nat} {x : BitVec w} (h : Holds bs (off, leBytes n x.toNat)) (hw : 2 ^ w ≤ 256 ^ n) :
    fieldAt bs off n = x.toNat :=
  h.number.trans (Nat.mod_eq_of_lt (lt_of_lt_of_le x.isLt hw))

/-- Inside a field the bytes are the field's. -/
theorem Holds.inside {f : List Byte} (h : Holds bs (off, f)) {k n : Nat} (hn : k + n ≤ f.length) :
    (bs.drop (off + k)).take n = (f.drop k).take n := by
  have hf : (bs.drop off).take f.length = f := h
  conv_rhs => rw [← hf]
  rw [List.drop_take, List.take_take, List.drop_drop, min_eq_left (by omega)]

theorem Holds.fieldInside {f : List Byte} (h : Holds bs (off, f)) {k n : Nat} (hn : k + n ≤ f.length) :
    fieldAt bs (off + k) n = fieldAt f k n := congrArg ofLe (h.inside hn)

end

/-! ## The records of the report -/

theorem toNat_ofNat_bool (b : Bool) : (BitVec.ofNat 8 b.toNat).toNat = b.toNat := by cases b <;> rfl

theorem toNat_ofNat_fin {n : Nat} (hn : n ≤ 256) (i : Fin n) : (BitVec.ofNat 8 i.val).toNat = i.val := by
  rw [BitVec.toNat_ofNat]
  exact Nat.mod_eq_of_lt (lt_of_lt_of_le i.isLt hn)

/-- The fields of a lane record (13.3). -/
theorem Lane.snapshotBytes_fields (L : Lane) :
    let at_ := fieldAt L.snapshotBytes
    L.snapshotBytes.length = 52 ∧ at_ 0 1 = L.runtime.code.toNat ∧ at_ 1 1 = L.recorded.code.toNat
    ∧ at_ 4 8 = L.serial.toNat ∧ at_ 12 4 = L.capacity.toNat ∧ at_ 16 1 = L.budget % 2 ^ 8
    ∧ at_ 18 2 = L.remap.length % 2 ^ 16 ∧ at_ 20 2 = L.spareNext % 2 ^ 16 ∧ at_ 22 2 = L.deadSpares % 2 ^ 16
    ∧ at_ 24 4 = L.counters.transactions.toNat ∧ at_ 28 4 = L.counters.resends.toNat
    ∧ at_ 32 4 = L.counters.timeouts.toNat ∧ at_ 36 4 = L.counters.notReadyRetries.toNat
    ∧ at_ 40 4 = L.counters.corrected.toNat ∧ at_ 44 4 = L.counters.unreadable.toNat
    ∧ at_ 48 4 = L.counters.writeFaults.toNat := by
  obtain ⟨hlen, hfields⟩ := layout_spec (bs := L.snapshotBytes) (z := 52) rfl (by simp [Fits, leBytes_length])
  simp only [List.forall_mem_cons] at hfields
  obtain ⟨hruntime, hrecorded, hserial, hcapacity, hbudget, hremap, hnext, hdead, htransactions, hresends, htimeouts, hretries,
    hcorrected, hunreadable, hfaults, -⟩ := hfields
  exact ⟨hlen, hruntime.byte, hrecorded.byte, hserial.word (by decide), hcapacity.word (by decide), hbudget.number,
    hremap.number, hnext.number, hdead.number, htransactions.word (by decide), hresends.word (by decide),
    htimeouts.word (by decide), hretries.word (by decide), hcorrected.word (by decide), hunreadable.word (by decide),
    hfaults.word (by decide)⟩

/-- The fields of a volume record (13.3). -/
theorem Volume.snapshotBytes_fields {x : Volume} (hl : x.label.length = 16) :
    let at_ := fieldAt x.snapshotBytes
    x.snapshotBytes.length = 32 ∧ at_ 0 1 = x.inUse.toNat ∧ at_ 1 1 = x.state.code.toNat ∧ at_ 2 1 = x.members.toNat
    ∧ at_ 3 1 = x.reference.val ∧ at_ 4 1 = x.policy.code.toNat ∧ at_ 8 4 = x.first % 2 ^ 32
    ∧ at_ 12 4 = x.length % 2 ^ 32 ∧ (x.snapshotBytes.drop 16).take 16 = x.label := by
  obtain ⟨hlen, hfields⟩ := layout_spec (bs := x.snapshotBytes) (z := 32) rfl (by simp [Fits, leBytes_length, hl])
  have hlabel : x.label.take 16 = x.label := by rw [← hl, List.take_length]
  simp only [List.forall_mem_cons, hlabel] at hfields
  obtain ⟨hinUse, hstate, hmembers, hreference, hpolicy, hfirst, hlength, hlabelAt, -⟩ := hfields
  refine ⟨hlen, hinUse.byte.trans (toNat_ofNat_bool _), hstate.byte, hmembers.byte.trans ?_,
    hreference.byte.trans (toNat_ofNat_fin (by decide) _), hpolicy.byte, hfirst.number, hlength.number, ?_⟩
  · exact BitVec.toNat_setWidth_of_le (by decide)
  · simpa only [Holds, hl] using hlabelAt

/-! ## The report -/

theorem laneRecords_fit (p : Part) : Fits 24 (allLanes.map fun l => (64 + 64 * l.val, (p.lane l).snapshotBytes)) 308 := by
  simp [allLanes, Fits, (Lane.snapshotBytes_fields _).1]

theorem volumeRecords_fit {p : Part} (hl : ∀ v, (p.vol v).label.length = 16) :
    Fits 308 (allVols.map fun v => (320 + 48 * v.val, (p.vol v).snapshotBytes)) 688 := by
  simp [allVols, Fits, (Volume.snapshotBytes_fields (hl _)).1]

/-- Settles O49: PLAN's and SNAPSHOT's checks, their wait for a buffer and its grant, then the report. -/
theorem planAndSnapshotAskForOneBuffer : Obligations.PlanAndSnapshotAskForOneBuffer := by
  refine ⟨?_, fun p hl => ?_⟩
  · intro e x s ha ht hk hn hg p refused waits full
    let received := s.part.taken e { x with state := .received }
    have hrefuse (o : ReqOutcome) := refuse_taken (p := s.part) x hk hn o
    refine ⟨fun hkind => ?_, fun hkind => ?_⟩
    · have hgo : requestTaken (·.kind = kindPlan) planReceived .done s.part = planReceived e x.req received :=
        requestTaken_done ht hg (by simpa using hkind) _
      refine ⟨fun hf => ?_, fun hf h => ?_, fun hf h => ⟨act_buffer_waits ha hk.headWaits
        (hgo.trans (planReceived_asks (p := received) hf h)), fun hfull => ?_⟩⟩
      · exact act_taken_finished ha (hgo.trans ((planReceived_frozen (p := received) hf).trans (hrefuse _)))
      · exact act_taken_finished ha (hgo.trans ((planReceived_misaligned (p := received) hf h).trans (hrefuse _)))
      · obtain ⟨hw, hfree⟩ := not_or.1 hfull
        refine act_buffer_granted (y := { x with state := .fetching }) ha
          (hgo.trans (planReceived_asks (p := received) hf h)) (not_not.1 hw) (Nat.one_le_iff_ne_zero.2 hfree) ?_ ha
          (Part.fed_entry s.part e { x with state := .fetching })
        rw [requestBuffered_plan (y := { x with state := .waitBuffers }) (Part.fed_entry ..) rfl hkind]
        exact Part.fed_modEntry ..
    · have hgo : requestTaken (·.kind = kindSnapshot) snapshotReceived .done s.part = snapshotReceived e x.req received :=
        requestTaken_done ht hg (by simpa using hkind) _
      refine ⟨fun h => ?_, fun h => ⟨act_buffer_waits ha hk.headWaits
        (hgo.trans (snapshotReceived_asks (p := received) h)), fun b rest hw hb => ?_⟩⟩
      · exact act_taken_finished ha (hgo.trans ((snapshotReceived_misaligned (p := received) h).trans (hrefuse _)))
      · have hfree : 1 ≤ s.part.pool.freeCount := by
          unfold Pool.freeCount
          rw [hb]
          exact Nat.le_add_left ..
        refine act_buffer_granted ha (hgo.trans (snapshotReceived_asks (p := received) h)) hw hfree ?_ ha
          (Part.fed_entry s.part e _)
        rw [requestBuffered_snapshot (y := { x with state := .waitBuffers }) (Part.fed_entry ..) rfl hkind]
        exact snapshotBuild_fed hn hb _
  · intro at_
    obtain ⟨hlen, hfields⟩ := layout_spec (bs := p.snapshotBytes) (z := 744) rfl
      (((Fits.append (m := 24) (by simp [Fits, leBytes_length]) (laneRecords_fit p)).append (volumeRecords_fit hl)).append
        (by simp [Fits, leBytes_length]))
    simp only [List.forall_mem_append, List.forall_mem_cons] at hfields
    obtain ⟨⟨⟨⟨hengine, hfrozen, hserial, hgeneration, -⟩, hlanes⟩, hvols⟩, hpatrol, hmarker, hcursor, hoffset, hpass, hrebuild,
      htarget, hvol, hblock, hcopied, hlost, hlist, hdropped, -⟩ := hfields
    refine ⟨⟨hlen, ?_, hfrozen.byte.trans (toNat_ofNat_bool _), hserial.word (by decide), hgeneration.word (by decide)⟩,
      fun l => ?_, fun v => ?_, hpatrol.byte, hmarker.byte.trans (toNat_ofNat_bool _), fun hm => hcursor.byte.trans ?_,
      fun v rest hm hv => hcursor.byte.trans ?_, hoffset.number, hpass.word (by decide), hrebuild.byte,
      fun ht => htarget.byte.trans ?_, fun l ht => htarget.byte.trans ?_, hvol.byte.trans (toNat_ofNat_fin (by decide) _),
      hblock.number, hcopied.word (by decide), hlost.word (by decide), hlist.number, hdropped.word (by decide)⟩
    · exact hengine.number.trans (Nat.mod_eq_of_lt (by cases p.engine.state <;> decide))
    · intro L o
      obtain ⟨hllen, hruntime, hrecorded, hserial, hcapacity, hbudget, hremap, hnext, hdead, htransactions, hresends, htimeouts,
        hretries, hcorrected, hunreadable, hfaults⟩ := L.snapshotBytes_fields
      have hrecord : Holds p.snapshotBytes (o, L.snapshotBytes) := hlanes _ (List.mem_map_of_mem (mem_allLanes l))
      have hat {k n x : Nat} (hn : k + n ≤ 52) (hx : fieldAt L.snapshotBytes k n = x) : at_ (o + k) n = x :=
        (hrecord.fieldInside (hllen ▸ hn)).trans hx
      exact ⟨hat (by decide) hruntime, hat (by decide) hrecorded, hat (by decide) hserial, hat (by decide) hcapacity,
        hat (by decide) hbudget, hat (by decide) hremap, hat (by decide) hnext, hat (by decide) hdead,
        hat (by decide) htransactions, hat (by decide) hresends, hat (by decide) htimeouts, hat (by decide) hretries,
        hat (by decide) hcorrected, hat (by decide) hunreadable, hat (by decide) hfaults⟩
    · intro x o
      obtain ⟨hvlen, hinUse, hstate, hmembers, hreference, hpolicy, hfirst, hlength, hlabel⟩ :=
        Volume.snapshotBytes_fields (hl v)
      have hrecord : Holds p.snapshotBytes (o, x.snapshotBytes) := hvols _ (List.mem_map_of_mem (mem_allVols v))
      have hat {k n y : Nat} (hn : k + n ≤ 32) (hy : fieldAt x.snapshotBytes k n = y) : at_ (o + k) n = y :=
        (hrecord.fieldInside (hvlen ▸ hn)).trans hy
      exact ⟨hat (by decide) hinUse, hat (by decide) hstate, hat (by decide) hmembers, hat (by decide) hreference,
        hat (by decide) hpolicy, hat (by decide) hfirst, hat (by decide) hlength,
        (hrecord.inside (k := 16) (n := 16) (hvlen ▸ le_rfl)).trans hlabel⟩
    · rw [hm]
      exact BitVec.toNat_ofNat ..
    · rw [hm, hv]
      exact toNat_ofNat_fin (by decide) v
    · rw [ht]
      rfl
    · rw [ht]
      exact toNat_ofNat_fin (by decide) l

end Sys2Proof.Machine
end

section
/-!
The docket unit: what beginning a transfer, a due sweep, the slots of a sweep and its end do to it (R170 to R175), and the steps
that change the docket unit: NUDGE, the poll timer, the reads of a sweep (11.3, 11.4).
-/
namespace Sys2Proof.Machine

/-! ## The next transfer (R170) -/

section
variable {d : Docket}

theorem Docket.next_inHand {x : DocketXfer} (h : d.xfer = some x) : d.next = d := by
  simp [Docket.next, h]

/-- With no completion waiting the sweep takes its next step. -/
theorem Docket.next_sweeps {w : Sweep} (hx : d.xfer = none) (hc : d.completions = []) (hs : d.sweep = some w) :
    d.next = { d with xfer := some w.nextXfer } := by
  simp [Docket.next, hx, hc, hs]

theorem Docket.next_idle (hx : d.xfer = none) (hc : d.completions = []) (hs : d.sweep = none) : d.next = d := by
  simp [Docket.next, hx, hc, hs]

/-- Beginning a transfer changes the transfer in hand and the completion list alone. -/
theorem Docket.next_eq (d : Docket) : ∃ cs x, d.next = { d with completions := cs, xfer := x } := by
  unfold Docket.next
  split
  · exact ⟨_, _, rfl⟩
  · split <;> exact ⟨_, _, rfl⟩

@[simp] theorem Docket.next_sweep (d : Docket) : d.next.sweep = d.sweep := by
  obtain ⟨cs, x, h⟩ := d.next_eq
  rw [h]

@[simp] theorem Docket.next_rerun (d : Docket) : d.next.rerun = d.rerun := by
  obtain ⟨cs, x, h⟩ := d.next_eq
  rw [h]

@[simp] theorem Docket.next_pollRunning (d : Docket) : d.next.pollRunning = d.pollRunning := by
  obtain ⟨cs, x, h⟩ := d.next_eq
  rw [h]

end

/-! ## A due sweep (R171) -/

theorem Docket.due_inFlight {d : Docket} (h : d.sweep ≠ none) : d.due = { d with rerun := true } :=
  if_pos (Option.isSome_iff_ne_none.2 h)

/-- The docket unit with a sweep begun at the sweep position. -/
def Docket.sweeping (d : Docket) : Docket :=
  { d with sweep := some ⟨d.position, 0, none, false, false⟩, deferred := false }

theorem Docket.due_begins {d : Docket} (h : d.sweep = none) : d.due = d.sweeping.next := if_neg (by simp [h])

/-- A due sweep with the docket unit idle begins with the read of the consumed count (R172). -/
theorem Docket.due_idle {d : Docket} (h : d.sweep = none) (hx : d.xfer = none) (hc : d.completions = []) :
    d.due = { d.sweeping with xfer := some (.consumedRead true) } :=
  (Docket.due_begins h).trans (Docket.next_sweeps (d := d.sweeping) hx hc rfl)

/-! ## The slots of a sweep and its end (R172, R173) -/

/-- The sweep position when the sweep ends: the slot after the last one taken (R173). -/
def Docket.endPosition (d : Docket) (w : Sweep) : Nat :=
  match w.lastTaken with
  | some n => (n + 1) % d.slots
  | none => d.position

/-- The docket unit with the sweep ended; `full` where no entry was free (R174). -/
def Docket.ended (d : Docket) (w : Sweep) (full : Bool) : Docket :=
  { d with sweep := none, position := d.endPosition w, deferred := d.deferred || full }

/-- The sweep as it goes on after the slot in hand. -/
def Sweep.onward (w : Sweep) (slots : Nat) (taken : Bool) : Sweep :=
  { w with
    slot := (w.slot + 1) % slots, examined := w.examined + 1, lastTaken := if taken then some w.slot else w.lastTaken }

section
variable {d : Docket} {w : Sweep} (hs : d.sweep = some w)
include hs

theorem Docket.endSweep_eq (hr : d.rerun = false) (full running : Bool) : d.endSweep full running = d.ended w full := by
  simp only [Docket.endSweep, hs]
  exact if_neg (by simp [hr])

theorem Docket.examined_goesOn (taken running : Bool) (hw : w.stop = false) (hn : w.examined + 1 < d.slots) :
    d.examined taken running = { d with sweep := some (w.onward d.slots taken) } := by
  have hmore : ¬ (w.stop || decide (d.slots ≤ w.examined + 1)) = true := by simp [hw, hn]
  simp only [Docket.examined, hs]
  exact if_neg hmore

theorem Docket.examined_ends (taken running : Bool) (h : w.stop = true ∨ d.slots ≤ w.examined + 1) :
    d.examined taken running =
      ({ d with sweep := some (w.onward d.slots taken) } : Docket).endSweep false running := by
  have hend : (w.stop || decide (d.slots ≤ w.examined + 1)) = true := by simpa using h
  simp only [Docket.examined, hs]
  exact if_pos hend

end

/-! ## Steps that change the docket unit -/

/-- The test of HALTED does not see the docket unit. -/
theorem Part.atRest_withDocket {p : Part} (h : p.atRest) (d : Docket) : ({ p with docket := d } : Part).atRest :=
  ⟨h.1, Part.haltTested_congr (p := p) rfl rfl rfl rfl rfl rfl rfl rfl h.2⟩

/-- The answer to a command that changes the docket unit alone. -/
theorem State.act_of_docket {f : Part → Part} {s : State} {d : Docket} (hr : s.part.atRest)
    (hf : f s.part = { s.part with docket := d }) : s.act f = .next (s.withPart { s.part with docket := d }) :=
  State.act_of_eq hf (Part.atRest_withDocket hr d)

theorem Part.running_iff {p : Part} : p.running = true ↔ p.engine.state = .running := by simp [Part.running]

/-- A NUDGE while RUNNING and the expiry of the running poll timer make a sweep due. -/
theorem exec_sweepDue {c : Instr} {value : Word} {s : State} (hc : (c = .nudge value ∧ s.part.engine.state = .running)
    ∨ (c = .pollTimerExpiry ∧ s.part.docket.pollRunning = true)) :
    ∃ f : Part → Part, exec c s = s.act f ∧ f s.part = { s.part with docket := s.part.docket.due } := by
  rcases hc with ⟨rfl, h⟩ | ⟨rfl, h⟩
  · exact ⟨_, rfl, if_pos (Part.running_iff.2 h)⟩
  · exact ⟨_, rfl, if_pos h⟩

/-- Settles O18, by whether a sweep is in flight. -/
theorem nudgeAndPollMakeASweepDue : Obligations.NudgeAndPollMakeASweepDue := by
  intro value s hr
  refine ⟨fun h => ?_, fun h => ?_, fun c hc => ?_⟩
  · exact State.act_of_same hr (if_neg fun g => h (Part.running_iff.1 g))
  · exact State.act_of_same hr (if_neg (Bool.eq_false_iff.1 h))
  · obtain ⟨f, hexec, hf⟩ := exec_sweepDue hc
    rw [hexec]
    refine ⟨fun h => ?_, fun h hx hcs => ?_⟩
    · exact State.act_of_docket hr (by rw [hf, Docket.due_inFlight h])
    · exact State.act_of_docket hr (by rw [hf, Docket.due_idle h hx hcs]; rfl)

/-! ## The reads of a sweep (R172 to R174) -/

/-- While RUNNING a command that hands nothing on has its own effect alone. -/
theorem State.act_running {f : Part → Part} {s : State} {q : Part} (ha : s.part.agenda = [])
    (hr : s.part.engine.state = .running) (hf : f s.part = q) (hqa : q.agenda = s.part.agenda)
    (hqe : q.engine = s.part.engine) : s.act f = .next (s.withPart q) :=
  State.act_of_eq hf ⟨hqa.trans ha, Part.haltTested_of_state (by rw [hqe, hr]; decide)⟩

section
variable {p : Part} {w : Sweep} (hs : p.docket.sweep = some w) (hc : p.docket.completions = [])
include hs hc

/-- The consumed count goes to the journal writer, and the sweep reads its first slot (R172, R184). -/
theorem consumedRead_sweeps (hx : p.docket.xfer = some (.consumedRead true)) (value : Word) :
    consumedRead (some value) p = { p with
      journal := p.journal.consumed value
      docket := { p.docket with sweep := some { w with consumed := true }, xfer := some (.slotRead w.slot true) } } := by
  have hnext : ({ p.docket with xfer := none, sweep := some { w with consumed := true } } : Docket).next = _ :=
    Docket.next_sweeps rfl hc rfl
  simp only [consumedRead, hx, if_true, hs, Option.map_some, docketNext, hnext]
  rfl

end

/-- The slot's bytes are those of a slot to be taken: POSTED, and held by no entry (R172). -/
def Part.posted (p : Part) (n : Nat) (bs : List Byte) : Prop :=
  byteAt bs 0 = 1 ∧ ∀ e x, p.entry e = some x → x.slot ≠ n

theorem Part.slotHeld_iff {p : Part} {n : Nat} : p.slotHeld n = true ↔ ∃ e x, p.entry e = some x ∧ x.slot = n := by
  simp [Part.slotHeld, Part.mem_entries]

theorem Part.not_posted_iff {p : Part} {n : Nat} {bs : List Byte} :
    (decide (slotOwner bs ≠ ownerPosted) || p.slotHeld n) = true ↔ ¬ p.posted n bs := by
  rw [Bool.or_eq_true, Part.slotHeld_iff, decide_eq_true_eq, Part.posted, not_and_or, slotOwner, ownerPosted]
  push Not
  rfl

theorem Part.freeEntry_none {p : Part} (h : ∀ e, p.entry e ≠ none) : p.freeEntry = none :=
  List.find?_eq_none.2 fun e _ => by simpa [Option.isSome_iff_ne_none] using h e

/-- The free entry is the lowest-numbered one (log 9). -/
theorem Part.freeEntry_lowest {p : Part} {e : EntryId} (he : p.entry e = none) (h : ∀ d, d < e → p.entry d ≠ none) :
    p.freeEntry = some e := by
  refine List.find?_eq_some_iff_getElem.2 ⟨by simp [he], e.val, by simp [allEntries], by simp [allEntries], fun j hj => ?_⟩
  simpa [allEntries, Option.isSome_iff_ne_none] using h ⟨j, by omega⟩ hj

section
variable {p : Part} {n : Nat} {bs : List Byte}

/-- A slot that is not to be taken is passed over. -/
theorem slotExamined_passes (h : ¬ p.posted n bs) : slotExamined n bs p =
    { p with docket := (({ p.docket with xfer := none } : Docket).examined false p.running).next } :=
  if_pos (Part.not_posted_iff.2 h)

/-- A slot to be taken that finds no entry free ends the sweep (R174). -/
theorem slotExamined_full (h : p.posted n bs) (hfree : p.freeEntry = none) : slotExamined n bs p =
    { p with docket := (({ p.docket with xfer := none } : Docket).endSweep true p.running).next } := by
  have hfree' : ({ p with docket := { p.docket with xfer := none } } : Part).freeEntry = none := hfree
  refine (if_neg fun g => Part.not_posted_iff.1 g h).trans ?_
  rw [hfree']
  rfl

/-- A slot to be taken is copied into the free entry and its TAKEN write begins. -/
theorem slotExamined_takes {e : EntryId} (h : p.posted n bs) (hfree : p.freeEntry = some e) : slotExamined n bs p =
    { p with table := p.table.set e.val (some (.taken n bs)), docket := { p.docket with xfer := some (.takenWrite e) } } := by
  have hfree' : ({ p with docket := { p.docket with xfer := none } } : Part).freeEntry = some e := hfree
  refine (if_neg fun g => Part.not_posted_iff.1 g h).trans ?_
  rw [hfree']
  rfl

end

section
variable {d : Docket} {w : Sweep} (hs : d.sweep = some w) (hc : d.completions = [])
include hs hc

/-- A slot passed over leads to the read of the next one. -/
theorem Docket.passesOn (hw : w.stop = false) (hcons : w.consumed = true) (hn : w.examined + 1 < d.slots) (running : Bool) :
    (({ d with xfer := none } : Docket).examined false running).next = { d with
      sweep := some { w with slot := (w.slot + 1) % d.slots, examined := w.examined + 1 }
      xfer := some (.slotRead ((w.slot + 1) % d.slots) true) } := by
  have hnext : (w.onward d.slots false).nextXfer = .slotRead ((w.slot + 1) % d.slots) true := if_pos hcons
  rw [Docket.examined_goesOn (d := { d with xfer := none }) hs false running hw hn, ← hnext]
  exact Docket.next_sweeps (d := { d with xfer := none, sweep := some (w.onward d.slots false) }) rfl hc rfl

/-- The last slot passed over ends the sweep. -/
theorem Docket.passesLast (hr : d.rerun = false) (hn : d.slots ≤ w.examined + 1) (running : Bool) :
    (({ d with xfer := none } : Docket).examined false running).next =
      { d with sweep := none, xfer := none, position := d.endPosition w } := by
  set d' : Docket := { d with xfer := none, sweep := some (w.onward d.slots false) }
  calc (({ d with xfer := none } : Docket).examined false running).next
    _ = (d'.endSweep false running).next := by
      rw [Docket.examined_ends (d := { d with xfer := none }) hs false running (.inr hn)]
    _ = d'.ended (w.onward d.slots false) false := by
      rw [Docket.endSweep_eq (d := d') rfl hr, Docket.next_idle (d := d'.ended _ _) rfl hc rfl]
    _ = _ := by
      rw [Docket.ended, Bool.or_false]
      rfl

/-- No entry being free ends the sweep with the deferred flag set (R174). -/
theorem Docket.endsFull (hr : d.rerun = false) (running : Bool) :
    (({ d with xfer := none } : Docket).endSweep true running).next =
      { d with sweep := none, xfer := none, position := d.endPosition w, deferred := true } := by
  set d' : Docket := { d with xfer := none }
  rw [Docket.endSweep_eq (d := d') hs hr, Docket.next_idle (d := d'.ended w true) rfl hc rfl, Docket.ended, Bool.or_true]
  rfl

end

theorem slotReadEnded_examines {p : Part} {n : Nat} (hx : p.docket.xfer = some (.slotRead n true)) (bs : List Byte) :
    slotReadEnded (some bs) p = slotExamined n bs p := by
  simp [slotReadEnded, hx]

/-! ## The request of a slot (13.3) -/

theorem ofLe_eq_zero_iff (bs : List Byte) : ofLe bs = 0 ↔ ∀ b ∈ bs, b = 0 := by
  induction bs with
  | nil => simp [ofLe]
  | cons b bs ih => rw [ofLe, List.forall_mem_cons, ← ih]; simp [← BitVec.toNat_inj]

/-- The flag of the reserved bytes says that each of them is 0; bytes past the end are. -/
theorem parseRequest_reservedZero (bs : List Byte) :
    (parseRequest bs).reservedZero = true ↔ ∀ i, 33 ≤ i → i < 48 → byteAt bs i = 0 := by
  rw [← fieldAt_eq_zero_iff bs 33 15, fieldAt, ofLe_eq_zero_iff]
  simp [parseRequest]

/-- Settles O55: the two reads of a sweep, a slot's by whether it is to be taken, and the fields of a slot's bytes. -/
theorem sweepsReadAndTakeSlots : Obligations.SweepsReadAndTakeSlots := by
  unfold Obligations.SweepsReadAndTakeSlots
  refine ⟨?_, fun bs => ?_⟩
  · intro s w bs ha hrun p d position posted hs hstop hc
    refine ⟨fun value hx => ?_, fun hx hcons => ?_⟩
    · exact State.act_running ha hrun (consumedRead_sweeps hs hc hx value) rfl rfl
    have hread := slotReadEnded_examines hx bs
    refine ⟨fun h hn => ?_, fun h hn hr => ?_, fun h hfull hr => ?_, fun e h he hlow => ?_⟩
    · refine (State.act_running ha hrun (hread.trans (slotExamined_passes h)) rfl rfl).trans ?_
      rw [Docket.passesOn hs hc hstop hcons hn]
    · refine (State.act_running ha hrun (hread.trans (slotExamined_passes h)) rfl rfl).trans ?_
      rw [Docket.passesLast hs hc hr hn]
      rfl
    · refine (State.act_running ha hrun (hread.trans (slotExamined_full h (Part.freeEntry_none hfull))) rfl rfl).trans ?_
      rw [Docket.endsFull hs hc hr]
      rfl
    · exact State.act_running ha hrun (hread.trans (slotExamined_takes h (Part.freeEntry_lowest he hlow))) rfl rfl
  · exact ⟨rfl, rfl, rfl, toNat_fieldAt bs 4 4 32 (by decide), toNat_fieldAt bs 8 4 32 (by decide),
      toNat_fieldAt bs 12 2 16 (by decide), rfl, rfl, toNat_fieldAt bs 16 8 64 (by decide),
      toNat_fieldAt bs 24 4 32 (by decide), toNat_fieldAt bs 28 4 32 (by decide), rfl, parseRequest_reservedZero bs⟩

end Sys2Proof.Machine
end

section
/-!
The header read of ATTACH (R166) and the generic checks of a request (R177).
-/
namespace Sys2Proof.Machine

/-! ## The header (R166) -/

/-- The test of the header's ranges finds what R166 says. -/
theorem Header.layoutOk_iff (bs : List Byte) : (headerFields bs).layoutOk = true ↔ HeaderInRange bs := by
  simp only [Header.layoutOk, Bool.and_eq_true, Bool.or_eq_true, decide_eq_true_eq, and_assoc]
  constructor
  · rintro ⟨hdm, hdl, hsl, hsu, hjm, hjl, hel, heu, hcl, hcu, hsh, hdi, hji, hap⟩
    exact ⟨⟨hdm, hdl⟩, ⟨hsl, hsu⟩, ⟨hjm, hjl⟩, ⟨hel, heu⟩, ⟨hcl, hcu⟩, hsh, hdi, hji, hap⟩
  · rintro ⟨⟨hdm, hdl⟩, ⟨hsl, hsu⟩, ⟨hjm, hjl⟩, ⟨hel, heu⟩, ⟨hcl, hcu⟩, hsh, hdi, hji, hap⟩
    exact ⟨hdm, hdl, hsl, hsu, hjm, hjl, hel, heu, hcl, hcu, hsh, hdi, hji, hap⟩

section
variable {bs : List Byte}

theorem checkHeader_mark (h : bs.take 4 ≠ headerMark) : checkHeader (some bs) = .error .mark := if_pos h

theorem checkHeader_layout (h : bs.take 4 = headerMark) (hl : ¬ HeaderInRange bs) :
    checkHeader (some bs) = .error .layout :=
  (if_neg (not_not.2 h)).trans (if_neg fun g => hl ((Header.layoutOk_iff bs).1 g))

theorem checkHeader_ok (h : bs.take 4 = headerMark) (hl : HeaderInRange bs) :
    checkHeader (some bs) = .ok (headerFields bs) :=
  (if_neg (not_not.2 h)).trans (if_pos ((Header.layoutOk_iff bs).2 hl))

end

section
variable {s : State} (ha : s.part.agenda = []) (hs : s.part.engine.state = .attaching)
  (hat : s.part.engine.attach = .headerRead) {d : Option (List Byte)}
include ha hs hat

/-- A header that fails a test returns the engine to DETACHED with the test's error (R188). -/
theorem exec_headerRead_fails {x : AttachError} (h : checkHeader d = .error x) : exec (.headerRead d) s =
    .next (s.withPart { s.part with engine := { s.part.engine.detached with attachError := x } }) := by
  have hread : headerRead d s.part = s.part.modEngine fun g => { g.detached with attachError := x } := by
    simp [headerRead, hs, hat, h]
  exact State.act_of_eq hread ⟨ha, Part.haltTested_of_state (by simp [Engine.detached])⟩

/-- A header that passes is handed out, and the done tally is written. -/
theorem exec_headerRead_passes {h : Header} (hd : checkHeader d = .ok h) :
    exec (.headerRead d) s = .next (s.withPart (headerPassed h s.part)) := by
  have hread : headerRead d s.part = headerPassed h s.part := by
    simp [headerRead, hs, hat, hd]
  exact State.act_of_eq hread ⟨ha, Part.haltTested_of_state (by simp [headerPassed, hs])⟩

end

/-- Settles O12, by the tests of the header in their order. -/
theorem headerReadTestsAndHandsOut : Obligations.HeaderReadTestsAndHandsOut := by
  intro s ha hs hat failed
  refine ⟨exec_headerRead_fails ha hs hat rfl, fun bs => ⟨fun h => ?_, fun h hl => ?_, fun h hl => ?_⟩⟩
  · exact exec_headerRead_fails ha hs hat (checkHeader_mark h)
  · exact exec_headerRead_fails ha hs hat (checkHeader_layout h hl)
  · exact exec_headerRead_passes ha hs hat (checkHeader_ok h hl)

/-! ## The generic checks (R177) -/

theorem genericRefusal_kind {r : Request} (h : r.kind ∉ knownKinds) : genericRefusal r = some .refusedKind := if_pos h

theorem genericRefusal_format {r : Request} (h : r.kind ∈ knownKinds) (hu : unusedField r = true) :
    genericRefusal r = some .refusedFormat := (if_neg (not_not.2 h)).trans (if_pos hu)

/-- A request that a generic check refuses is finished as soon as it is received, whatever its row. -/
theorem requestTaken_refused {p : Part} {e : EntryId} {x : Entry} {o : ReqOutcome} (ht : p.takes e x) (hk : p.Kept)
    (hn : p.holdsNothing (.request e)) (hg : genericRefusal x.req = some o) {mine : Request → Bool} (hm : mine x.req = true)
    (go : EntryId → Request → Part → Part) : requestTaken mine go .done p = (p.taken e x).finished e x o 0 0 0 := by
  obtain ⟨hx, he, -⟩ := ht
  have hp : p.taking = some (e, x.req) := by simp [Part.taking, hx, he]
  unfold requestTaken
  simp only [hp, hm, Bool.not_true, Bool.false_eq_true, if_false, requestReceived, hg]
  rw [takingDone_received he, refuse_taken x hk hn]

/-- The row is one that receives this request at the end of its TAKEN write, with the checks of a kind after the generic ones. -/
def Receives (c : Instr) (r : Request) : Prop :=
  ∃ (mine : Request → Bool) (go : EntryId → Request → Part → Part),
    mine r = true ∧ ∀ s, exec c s = s.act (requestTaken mine go .done)

theorem Receives.ite {P : Prop} [Decidable P] {c d : Instr} {r : Request} (hc : P → Receives c r) (hd : ¬ P → Receives d r) :
    Receives (if P then c else d) r := by
  split
  · exact hc ‹P›
  · exact hd ‹¬ P›

/-- The row of a LANE request's action, or ADMIT's for one of no known action, receives it (log 21). -/
theorem receives_lane {r : Request} (h : r.kind = kindLane) : Receives (if r.selector = actionRetire then .retire .done
    else if r.selector = actionProbe then .probe .done else .admitLane .done) r := by
  refine .ite (fun hretire => ?_) fun hretire => .ite (fun hprobe => ?_) fun hprobe => ?_
  · exact ⟨laneRequest actionRetire, retireReceived, by simp [laneRequest, h, hretire], fun _ => rfl⟩
  · exact ⟨laneRequest actionProbe, probeReceived, by simp [laneRequest, h, hprobe], fun _ => rfl⟩
  · exact ⟨laneRequest actionAdmit, admitReceived, by simp [laneRequest, h, hretire, hprobe], fun _ => rfl⟩

/-- The row of a PATROL CONTROL request's code, or START's for one of no known code, receives it (log 21). -/
theorem receives_control {r : Request} (h : r.kind = kindControl) : Receives (if r.selector = controlStop then
    .patrolControlStop .done else .patrolControlStart .done) r := by
  refine .ite (fun hstop => ?_) fun hstop => ?_
  · exact ⟨controlRequest controlStop, stopReceived, by simp [controlRequest, h, hstop], fun _ => rfl⟩
  · exact ⟨controlRequest controlStart, startReceived, by simp [controlRequest, h, hstop], fun _ => rfl⟩

/-- The row of a request's kind receives the request. -/
theorem receives_takenRow {r : Request} (h : r.kind ∈ knownKinds) : Receives (takenRow r .done) r := by
  have hkind {k : Byte} {c : Instr} {go : EntryId → Request → Part → Part}
      (hc : ∀ s, exec c s = s.act (requestTaken (·.kind = k) go .done)) (hk : r.kind = k) : Receives c r :=
    ⟨(·.kind = k), go, decide_eq_true hk, hc⟩
  refine .ite (hkind fun _ => rfl) fun hread => .ite (hkind fun _ => rfl) fun hwrite => .ite (hkind fun _ => rfl) fun hverify =>
    .ite (hkind fun _ => rfl) fun hdefine => .ite (hkind fun _ => rfl) fun hdelete => .ite (hkind fun _ => rfl) fun hfreeze =>
    .ite receives_lane fun hlane => .ite (hkind fun _ => rfl) fun hplan => .ite receives_control fun hcontrol =>
    .ite (hkind fun _ => rfl) fun hsnapshot => absurd h ?_
  simp only [knownKinds, List.mem_cons, List.not_mem_nil, hread, hwrite, hverify, hdefine, hdelete, hfreeze, hlane, hplan,
    hcontrol, hsnapshot, or_self, not_false_eq_true]

/-- The fields each known kind uses (R177). -/
theorem usesOf_known : ∀ k ∈ knownKinds, usesOf k =
    { flags := if k = kindVerify then 1 else if k = kindLane then 2 else 0
      target := k ∈ [kindRead, kindWrite, kindVerify, kindDefine, kindDelete, kindLane]
      blocks := k ∈ [kindRead, kindWrite, kindVerify]
      selector := k ∈ [kindRead, kindVerify, kindDefine, kindLane, kindControl]
      parameter := k ∈ [kindDefine, kindLane]
      address := k ∈ [kindRead, kindWrite, kindDefine, kindPlan, kindSnapshot]
      define := k = kindDefine } := by
  decide

/-- A byte has no bit but bit `i` where it is 0 or that bit alone. -/
theorem and_not_twoPow_eq_zero_iff (b : Byte) (i : Nat) :
    b &&& ~~~BitVec.twoPow 8 i = 0 ↔ b = 0 ∨ b = BitVec.twoPow 8 i := by
  have hsplit : b = (b &&& BitVec.twoPow 8 i) ||| (b &&& ~~~BitVec.twoPow 8 i) := by
    rw [← BitVec.and_or_distrib_left, BitVec.or_not_self, BitVec.and_allOnes]
  refine ⟨fun h => ?_, fun h => ?_⟩
  · rw [h, BitVec.and_twoPow] at hsplit
    split at hsplit
    · exact .inr (by simpa using hsplit)
    · exact .inl (by simpa using hsplit)
  · obtain rfl | rfl := h <;> simp

/-- The flag bits outside those of a kind are 0 where the flags are 0 or the one the kind uses. -/
theorem flagsOutside_eq_zero_iff (b : Byte) (k : Byte) :
    b &&& ~~~(if k = kindVerify then 1 else if k = kindLane then 2 else 0) = 0 ↔
      b = 0 ∨ (k = kindVerify ∧ b = 1) ∨ (k = kindLane ∧ b = 2) := by
  have hne : kindVerify ≠ kindLane := by decide
  split_ifs with hv hl
  · rw [show (1 : Byte) = BitVec.twoPow 8 0 from rfl, and_not_twoPow_eq_zero_iff]
    simp only [hv, hne, true_and, false_and, or_false]
  · rw [show (2 : Byte) = BitVec.twoPow 8 1 from rfl, and_not_twoPow_eq_zero_iff]
    simp only [hl, hne.symm, true_and, false_and, false_or]
  · rw [show ~~~(0 : Byte) = BitVec.allOnes 8 from rfl, BitVec.and_allOnes]
    simp only [hv, hl, false_and, or_false]

theorem unusedField_eq_false_iff (r : Request) : unusedField r = false ↔
    r.reservedZero = true ∧ r.flags &&& ~~~(usesOf r.kind).flags = 0 ∧ ((usesOf r.kind).target = true ∨ r.target = 0)
      ∧ ((usesOf r.kind).blocks = true ∨ (r.first = 0 ∧ r.count = 0))
      ∧ ((usesOf r.kind).selector = true ∨ r.selector = 0) ∧ ((usesOf r.kind).parameter = true ∨ r.parameter = 0)
      ∧ ((usesOf r.kind).address = true ∨ r.address = 0)
      ∧ ((usesOf r.kind).define = true ∨ (r.defFirst = 0 ∧ r.defLength = 0 ∧ r.defMembers = 0)) := by
  rw [and_comm]
  simp only [unusedField, Bool.or_eq_false_iff, Bool.and_eq_false_iff, decide_eq_false_iff_not, not_not,
    Bool.not_eq_false', and_assoc]

/-- Settles O38, by the check that fails; the table of the used fields by the fields each kind uses. -/
theorem genericChecksRefuseRequests : Obligations.GenericChecksRefuseRequests := by
  unfold Obligations.GenericChecksRefuseRequests
  refine ⟨fun e x s ha ht hk hn => ⟨fun h => ?_, fun h hu => ?_⟩, fun r h => ?_⟩
  · exact act_taken_finished ha (requestTaken_refused ht hk hn (genericRefusal_kind h) (by simpa using h) _)
  · obtain ⟨mine, go, hmine, hrow⟩ := receives_takenRow h
    exact (hrow s).trans (act_taken_finished ha (requestTaken_refused ht hk hn (genericRefusal_format h hu) hmine go))
  · rw [unusedField_eq_false_iff, usesOf_known r.kind h, flagsOutside_eq_zero_iff]
    simp only [decide_eq_true_eq]

end Sys2Proof.Machine
end

section
/-!
The entry into HALTED (R189), the writes of a completion (R178), and HALT with what it stops (R135, R152, R165, R176).
-/
namespace Sys2Proof.Machine

/-! ## The test of HALTED (R189) -/

theorem Part.drained_iff {p : Part} : p.drained = true ↔ (∀ e, p.entry e = none) ∧ p.patrol.chunk = none
    ∧ p.repair.work = none ∧ p.rebuild.chunk = none ∧ p.committer.inFlight = none ∧ p.committer.requested = false
    ∧ p.agenda = [] := by
  have htable : p.table.all Option.isNone = true ↔ ∀ e, p.entry e = none := by
    rw [Vector.all_eq_true]
    exact ⟨fun h e => Option.isNone_iff_eq_none.1 (h e.val e.isLt), fun h i hi => Option.isNone_iff_eq_none.2 (h ⟨i, hi⟩)⟩
  simp only [Part.drained, Bool.and_eq_true, htable, Option.isNone_iff_eq_none, Bool.not_eq_true', List.isEmpty_iff,
    and_assoc]

/-- The part HALTED, its message raised (R186). -/
def Part.haltEntered (p : Part) : Part :=
  { p with engine := { p.engine with state := .halted }, interrupt := p.interrupt.raise }

theorem haltTest_enters {p : Part} (h : p.engine.state = .halting) (hd : p.drained = true) : haltTest p = p.haltEntered :=
  if_pos (by rw [h, hd]; rfl)

theorem haltTest_waits {p : Part} (hd : p.drained = false) : haltTest p = p := if_neg (by rw [hd, Bool.and_false]; decide)

/-- The answer to a command after whose own effect all of R189 holds. -/
theorem State.act_halts {f : Part → Part} {s : State} {q : Part} (hf : f s.part = q) (hs : q.engine.state = .halting)
    (hd : q.drained = true) : s.act f = .next (s.withPart q.haltEntered) := by
  have ha : q.agenda = [] := (Part.drained_iff.1 hd).2.2.2.2.2.2
  rw [State.act_eq, Part.act, hf, settle_nil _ ha, haltTest_enters hs hd]

/-! ## The writes of a completion (R178) -/

theorem Entry.outcomeBytes_eq (x : Entry) (n : Word) : x.outcomeBytes n =
    [x.outcome.code, x.laneMask.setWidth 8, 0, 0] ++ leBytes 4 x.detailA.toNat ++ leBytes 4 x.detailB.toNat
      ++ leBytes 4 n.toNat := rfl

/-- The first write: the outcome fields at byte 48 of the slot. -/
theorem outcomeWrite_spec {p : Part} {e : EntryId} {x : Entry} (hx : p.docket.xfer = some (.outcomeWrite e))
    (he : p.entry e = some x) : p.docketAddress = some (p.slotAddress x.slot + 48)
      ∧ p.docketBytes = x.outcomeBytes (p.docket.tally + 1)
      ∧ outcomeWritten .done p = { p with docket := { p.docket with xfer := some (.doneWrite e) } } := by
  simp [Part.docketAddress, Part.docketBytes, outcomeWritten, hx, he]

/-- The second write: the owner byte of the slot becomes DONE. -/
theorem doneWrite_spec {p : Part} {e : EntryId} {x : Entry} (hx : p.docket.xfer = some (.doneWrite e))
    (he : p.entry e = some x) : p.docketAddress = some (p.slotAddress x.slot) ∧ p.docketBytes = [3]
      ∧ doneWritten .done p = { p with docket := { p.docket with
          tally := p.docket.tally + 1, xfer := some (.tallyWrite e) } } := by
  simp [Part.docketAddress, Part.docketBytes, doneWritten, hx, he]

/-- The third write: the done tally in the header. -/
theorem tallyWrite_spec {p : Part} {e : EntryId} (hx : p.docket.xfer = some (.tallyWrite e)) :
    p.docketAddress = some (p.engine.base.toNat + 64) ∧ p.docketBytes = leBytes 4 p.docket.tally.toNat := by
  simp [Part.docketAddress, Part.docketBytes, hx]

/-- The part with the completion of entry `e` written: an interrupt item, the entry free, the docket unit gone on. -/
def Part.completed (p : Part) (e : EntryId) : Part :=
  { p with
    table := p.table.set e.val none, interrupt := p.interrupt.item, docket := ({ p.docket with xfer := none } : Docket).next }

section
variable {p : Part} {e : EntryId}

theorem Part.completed_entry (f : EntryId) : (p.completed e).entry f = if e = f then none else p.entry f :=
  Part.entry_withTable p p.table e f none

theorem Part.completed_entries_none : (∀ f, (p.completed e).entry f = none) ↔ ∀ f, f ≠ e → p.entry f = none := by
  refine forall_congr' fun f => ?_
  rw [Part.completed_entry]
  split
  · next h => exact iff_of_true rfl fun g => absurd h.symm g
  · next h => exact ⟨fun g _ => g, fun g => g (Ne.symm h)⟩

variable (hx : p.docket.xfer = some (.tallyWrite e))
include hx

theorem tallyWritten_eq : tallyWritten .done p =
    docketNext (freeEntry e (newItem { p with docket := { p.docket with xfer := none } })) := by
  simp only [tallyWritten, hx]

/-- With no sweep deferred, or the engine not RUNNING, freeing the entry makes no sweep due. -/
theorem tallyWritten_frees (h : p.docket.deferred = false ∨ p.engine.state ≠ .running) :
    tallyWritten .done p = p.completed e := by
  rw [tallyWritten_eq hx]
  refine congrArg docketNext (if_neg ?_)
  intro g
  obtain ⟨hd, hr⟩ := Bool.and_eq_true_iff.1 g
  rcases h with h | h
  · exact Bool.eq_false_iff.1 h hd
  · exact h (Part.running_iff.1 hr)

/-- The sweep deferred for want of a free entry begins (R171, R178). -/
theorem tallyWritten_sweeps (hr : p.engine.state = .running) (hd : p.docket.deferred = true) (hs : p.docket.sweep = none)
    (hc : p.docket.completions = []) : tallyWritten .done p =
      { p.completed e with docket := { p.docket.sweeping with xfer := some (.consumedRead true) } } := by
  have hdue : ({ p.docket with xfer := none } : Docket).due.next =
      { p.docket.sweeping with xfer := some (.consumedRead true) } := by
    rw [Docket.due_idle (d := { p.docket with xfer := none }) hs rfl hc]
    exact Docket.next_inHand rfl
  have hfree : freeEntry e (newItem { p with docket := { p.docket with xfer := none } }) =
      sweepDue (({ p with
        docket := { p.docket with xfer := none }, interrupt := p.interrupt.item } : Part).setEntry e none) :=
    if_pos (Bool.and_eq_true_iff.2 ⟨hd, Part.running_iff.2 hr⟩)
  rw [tallyWritten_eq hx, hfree, ← hdue]
  rfl

end

/-- Settles O56, by the write that has ended. -/
theorem completionsAreWrittenInThreeSteps : Obligations.CompletionsAreWrittenInThreeSteps := by
  intro s e x ha he p d slot freed
  refine ⟨fun hx => ?_, fun hx => ?_, fun hx => ?_⟩
  · obtain ⟨haddress, hbytes, hwritten⟩ := outcomeWrite_spec hx he
    exact ⟨haddress, hbytes.trans (x.outcomeBytes_eq _), State.act_of_eq hwritten (Part.atRest_of_entry ha he)⟩
  · obtain ⟨haddress, hbytes, hwritten⟩ := doneWrite_spec hx he
    exact ⟨haddress, hbytes, State.act_of_eq hwritten (Part.atRest_of_entry ha he)⟩
  obtain ⟨haddress, hbytes⟩ := tallyWrite_spec hx
  refine ⟨haddress, hbytes, fun hh hd => ?_, fun hr hd hs hc => ?_, ?_⟩
  · refine State.act_of_eq (tallyWritten_frees hx hd) ⟨ha, ?_⟩
    rintro ⟨hhalting, hdrained⟩
    obtain ⟨f, hf, hfe⟩ := hh.resolve_left (not_not.2 hhalting)
    exact hfe (Part.completed_entries_none.1 (Part.drained_iff.1 hdrained).1 f hf)
  · exact State.act_running ha hr (tallyWritten_sweeps hx hr hd hs hc) rfl rfl
  · intro hh hf hpc hrw hbc hci hcr
    have hdrained : (s.part.completed e).drained = true :=
      Part.drained_iff.2 ⟨Part.completed_entries_none.2 hf, hpc, hrw, hbc, hci, hcr, ha⟩
    exact State.act_halts (tallyWritten_frees hx (.inr (hh.trans_ne (by decide)))) hh hdrained

/-! ## HALT and the docket unit (R176) -/

/-- The docket unit with its poll timer stopped and no sweep due. -/
def Docket.quiet (d : Docket) : Docket := { d with rerun := false, pollRunning := false }

section
variable {d : Docket}

theorem Docket.halt_idle (h : d.sweep = none) : d.halt = d.quiet := by
  unfold Docket.halt
  dsimp only
  split
  · rfl
  · next g => exact absurd (h.symm.trans g) nofun

/-- A sweep with a TAKEN write in hand is marked to end with it. -/
theorem Docket.halt_taking {w : Sweep} {e : EntryId} (h : d.sweep = some w) (hx : d.xfer = some (.takenWrite e)) :
    d.halt = { d.quiet with sweep := some { w with stop := true } } := by
  unfold Docket.halt
  dsimp only
  split
  · next g => exact absurd (h.symm.trans g) nofun
  · next w' g =>
    obtain rfl := Option.some.inj (h.symm.trans g)
    split
    · rfl
    · next hn => exact absurd hx (hn e)

/-- Any other sweep ends at once, a read in hand no longer its own (log 17). -/
theorem Docket.halt_stops {w : Sweep} (h : d.sweep = some w) (hx : ∀ e, d.xfer ≠ some (.takenWrite e)) :
    ∃ x, d.halt = ({ d.quiet with xfer := x } : Docket).ended w false := by
  unfold Docket.halt
  dsimp only
  split
  · next g => exact absurd (h.symm.trans g) nofun
  · split
    · next e g => exact absurd g (hx e)
    · refine ⟨_, (Docket.endSweep_eq (w := w) ?_ ?_ false false).trans rfl⟩
      · exact h
      · rfl

theorem Docket.halt_quiets (d : Docket) : d.halt.rerun = false ∧ d.halt.pollRunning = false := by
  cases h : d.sweep with
  | none => rw [Docket.halt_idle h]; exact ⟨rfl, rfl⟩
  | some w =>
    by_cases hx : ∃ e, d.xfer = some (.takenWrite e)
    · obtain ⟨e, hx⟩ := hx
      rw [Docket.halt_taking h hx]
      exact ⟨rfl, rfl⟩
    · obtain ⟨x, hx⟩ := Docket.halt_stops h (not_exists.1 hx)
      rw [hx]
      exact ⟨rfl, rfl⟩

theorem Docket.halt_sweep (hx : ∀ e, d.xfer ≠ some (.takenWrite e)) : d.halt.sweep = none := by
  cases h : d.sweep with
  | none => rw [Docket.halt_idle h]; exact h
  | some w =>
    obtain ⟨x, hx⟩ := Docket.halt_stops h hx
    rw [hx]
    rfl

theorem Docket.halt_next_taking {e : EntryId} (hx : d.xfer = some (.takenWrite e)) :
    d.halt.next = { d.quiet with sweep := d.sweep.map fun w => { w with stop := true } } := by
  cases h : d.sweep with
  | none =>
    rw [Docket.halt_idle h, Docket.next_inHand (d := d.quiet) hx, Option.map_none, ← h]
    rfl
  | some w =>
    rw [Docket.halt_taking h hx]
    exact Docket.next_inHand (d := { d.quiet with sweep := some { w with stop := true } }) hx

/-- The TAKEN write that a stopped sweep has waited for ends it. -/
theorem Docket.afterTaken_stopped {w : Sweep} (hs : d.sweep = some w) (hw : w.stop = true) (hr : d.rerun = false)
    (running : Bool) : d.afterTaken running =
      ({ d with sweep := none, xfer := none, position := (w.slot + 1) % d.slots } : Docket).next := by
  set d' : Docket := { d with xfer := none, sweep := some (w.onward d.slots true) }
  have hended : ({ d with xfer := none } : Docket).examined true running = d'.ended (w.onward d.slots true) false :=
    (Docket.examined_ends (d := { d with xfer := none }) hs true running (.inl hw)).trans
      (Docket.endSweep_eq (d := d') rfl hr false running)
  rw [Docket.afterTaken, hended, Docket.ended, Bool.or_false]
  rfl

end

/-! ## HALT and the background units (R135, R152, R165) -/

section
variable {p : Part} (h : p.engine.state = .halting)
include h

theorem patrolPause_halting : patrolPause p =
    { p with patrol := { p.patrol with paused := p.patrol.paused || p.patrol.chunk.isNone } } := by
  unfold patrolPause
  cases p.patrol.chunk.isNone with
  | true => rw [Bool.or_true]; exact if_pos (by rw [h]; rfl)
  | false => rw [Bool.or_false]; exact if_neg (by rw [Bool.and_false]; decide)

theorem rebuildPause_halting : rebuildPause p =
    { p with rebuild := { p.rebuild with paused := p.rebuild.paused || p.rebuild.chunk.isNone } } := by
  unfold rebuildPause
  cases p.rebuild.chunk.isNone with
  | true => rw [Bool.or_true]; exact if_pos (by rw [h]; rfl)
  | false => rw [Bool.or_false]; exact if_neg (by rw [Bool.and_false]; decide)

theorem repairPause_pauses (hw : p.repair.work = none) (hr : p.repair.waiter = []) :
    repairPause p = { p with repair := { p.repair with paused := true } } := by
  simp [repairPause, h, hw, hr]

end

theorem repairPause_works {p : Part} (hw : p.repair.work ≠ none) : repairPause p = p := by
  simp [repairPause, hw]

theorem repairPause_waiter {p : Part} (hw : p.repair.waiter ≠ []) : repairPause p = p := by
  simp [repairPause, hw]

theorem repairPause_halting {p : Part} (h : p.engine.state = .halting) (hr : p.repair.work ≠ none ∨ p.repair.waiter = []) :
    repairPause p = { p with repair := { p.repair with paused := p.repair.paused || p.repair.work.isNone } } := by
  by_cases hw : p.repair.work = none
  · rw [repairPause_pauses h hw (hr.resolve_left fun g => g hw), show p.repair.work.isNone = true by rw [hw]; rfl, Bool.or_true]
  · rw [repairPause_works hw, Option.isNone_eq_false_iff.2 (Option.isSome_iff_ne_none.2 hw), Bool.or_false]

/-- The repair unit that works on an entry, or is paused with no room waiter, takes none. -/
theorem repairTake_stays {p : Part} (h : p.engine.state = .halting)
    (hw : p.repair.work ≠ none ∨ (p.repair.waiter = [] ∧ p.repair.paused = true)) : repairTake p = p := by
  have hpause : repairPause p = p := by
    rw [repairPause_halting h (hw.imp_right And.left)]
    rcases hw with hw | ⟨-, hw⟩
    · rw [Option.isNone_eq_false_iff.2 (Option.isSome_iff_ne_none.2 hw), Bool.or_false]
    · rw [hw, Bool.true_or, ← hw]
  unfold repairTake
  rw [hpause]
  refine if_pos ?_
  rcases hw with hw | ⟨-, hw⟩
  · rw [Option.isSome_iff_ne_none.2 hw]; rfl
  · rw [hw, Bool.or_true]; rfl

/-- HALTING with no entry in hand and no room waiter, the repair unit pauses (R135). -/
theorem repairTake_pauses {p : Part} (h : p.engine.state = .halting) (hw : p.repair.work = none) (hr : p.repair.waiter = []) :
    repairTake p = { p with repair := { p.repair with paused := true } } := by
  unfold repairTake
  rw [repairPause_pauses h hw hr]
  exact if_pos (by rw [Bool.or_true]; rfl)

/-- The idle unit that runs takes the oldest entry and asks for its lock (R128). -/
theorem repairTake_takes {p : Part} {x : DiscEntry} (hpause : repairPause p = p) (hw : p.repair.work = none)
    (hp : p.repair.paused = false) (hs : p.engine.state = .running ∨ p.engine.state = .halting)
    (hx : p.repair.oldest = some x) : repairTake p = askLock ⟨.repair, x.volume, x.block, 1, true⟩
      { p with repair := { p.repair.mark x with work := some (.start x) } } := by
  unfold repairTake
  rw [hpause]
  refine (if_neg ?_).trans ?_
  · rcases hs with hs | hs <;> simp [hw, hp, hs, Part.running]
  · rw [hx]

/-! ## HALT -/

/-- The part HALTING: the poll timer stopped, the sweep stopped, the units with no work in hand paused (R189). -/
def Part.haltBegun (p : Part) : Part :=
  { p with
    engine := { p.engine with refused := false, state := .halting }
    docket := p.docket.halt.next
    patrol := { p.patrol with paused := p.patrol.paused || p.patrol.chunk.isNone }
    repair := { p.repair with paused := p.repair.paused || p.repair.work.isNone }
    rebuild := { p.rebuild with paused := p.rebuild.paused || p.rebuild.chunk.isNone } }

section
variable {p : Part} (hr : p.repair.work ≠ none ∨ p.repair.waiter = [])
include hr

theorem haltTaken_eq : haltTaken p = p.haltBegun := by
  refine (congrArg (fun q => repairPause (rebuildPause q)) (patrolPause_halting rfl)).trans ?_
  refine (congrArg repairPause (rebuildPause_halting rfl)).trans ?_
  exact repairPause_halting rfl hr

theorem repairTake_haltBegun : repairTake p.haltBegun = p.haltBegun := by
  refine repairTake_stays rfl ?_
  by_cases hw : p.repair.work = none
  · exact .inr ⟨hr.resolve_left fun g => g hw, by simp [Part.haltBegun, hw]⟩
  · exact .inl hw

end

/-- One task handed on, which hands on nothing. -/
theorem settle_task {q r : Part} {t : Task} (ha : q.agenda = []) (ht : runTask t q = r) (hr : r.agenda = []) :
    settle Config.stepFuel (q.push [t]) = r := by
  show settle (65535 + 1) (q.push [t]) = r
  rw [settle_push _ _ _ ha, Part.push_nil, ht, settle_nil _ hr]

/-- The work that keeps a HALT from HALTED (R189). -/
def Part.workInHand (p : Part) : Prop :=
  (∃ e, p.entry e ≠ none) ∨ p.patrol.chunk ≠ none ∨ p.repair.work ≠ none ∨ p.rebuild.chunk ≠ none
    ∨ p.committer.inFlight ≠ none ∨ p.committer.requested = true

theorem haltBegun_drained_iff {p : Part} (ha : p.agenda = []) : p.haltBegun.drained = true ↔ ¬ p.workInHand := by
  rw [Part.drained_iff]
  simp only [Part.workInHand, not_or, not_exists, not_not, Bool.not_eq_true]
  exact ⟨fun ⟨he, hp, hr, hb, hc, hq, _⟩ => ⟨he, hp, hr, hb, hc, hq⟩,
    fun ⟨he, hp, hr, hb, hc, hq⟩ => ⟨he, hp, hr, hb, hc, hq, ha⟩⟩

/-- HALT from RUNNING: the part HALTING, or HALTED with a message where no work is in hand. -/
theorem exec_halt {s : State} (ha : s.part.agenda = []) (hs : s.part.engine.state = .running)
    (hr : s.part.repair.work ≠ none ∨ s.part.repair.waiter = []) :
    ∃ st u, exec .halt s = .next (s.withPart { s.part.haltBegun with
        engine := { s.part.haltBegun.engine with state := st }, interrupt := u })
      ∧ (¬ s.part.workInHand → st = .halted ∧ u = s.part.interrupt.raise)
      ∧ (s.part.workInHand → st = .halting ∧ u = s.part.interrupt) := by
  have hallowed : commandAllowed 2 s.part.engine.state = true := by rw [hs]; rfl
  have htaken : engineCommand 2 haltCommand s.part = s.part.haltBegun.push [.repairTake] := by
    rw [engineCommand, if_pos hallowed, haltCommand, haltTaken_eq hr]
  have hexec : exec .halt s = .next (s.withPart (haltTest s.part.haltBegun)) := by
    refine (State.act_eq _ s).trans ?_
    rw [Part.act, htaken, settle_task (q := s.part.haltBegun) (t := .repairTake) ha (repairTake_haltBegun hr) ha]
  by_cases hin : s.part.workInHand
  · have hdrained : s.part.haltBegun.drained = false :=
      Bool.eq_false_iff.2 fun h => (haltBegun_drained_iff ha).1 h hin
    rw [haltTest_waits hdrained] at hexec
    exact ⟨.halting, s.part.interrupt, hexec, fun h => absurd hin h, fun _ => ⟨rfl, rfl⟩⟩
  · rw [haltTest_enters rfl ((haltBegun_drained_iff ha).2 hin)] at hexec
    exact ⟨.halted, s.part.interrupt.raise, hexec, fun _ => ⟨rfl, rfl⟩, fun h => absurd h hin⟩

theorem patrolTimers_paused {p : Part} (h : p.patrol.paused = true) : patrolTimers p = p :=
  patrolTimers_notRuns (by simp [Part.planRuns, Part.patrolRuns, h])

/-- In HALTING patrol pauses when its chunk has ended (R152). -/
theorem patrolGoOn_pauses {p : Part} (h : p.engine.state = .halting) (hs : p.patrol.stops = []) :
    patrolGoOn false p = ({ p with patrol := { p.patrol with paused := true } } : Part).push [.patrolTry] := by
  simp only [patrolGoOn, hs, List.foldl_nil, List.isEmpty_nil, Bool.not_true, Bool.or_self, Bool.false_eq_true, if_true,
    if_false, h, Part.modPatrol, patrolTimers_paused, ite_self]

/-- Settles O14: HALT itself, the end of the TAKEN write, the end of a patrol chunk, and the repair unit in HALTING. -/
theorem haltStopsSweepsAndEntersHalted : Obligations.HaltStopsSweepsAndEntersHalted := by
  refine ⟨?_, fun d w running hs hw hr => Docket.afterTaken_stopped hs hw hr running, fun p => patrolGoOn_pauses,
    fun p hp hw => ⟨repairTake_pauses hp hw, fun x hwaiter hpaused hx => ?_⟩⟩
  · intro s ha hs hr _ p inHand
    obtain ⟨st, u, hexec, hhalted, hhalting⟩ := exec_halt ha hs hr
    refine ⟨_, hexec, rfl, ?_, ?_, fun hx => ?_, fun e hx => ?_, rfl, rfl, rfl, rfl, rfl, rfl, rfl, rfl, rfl, rfl,
      fun h => ?_, fun h => ?_⟩
    · exact (Docket.next_rerun _).trans p.docket.halt_quiets.1
    · exact (Docket.next_pollRunning _).trans p.docket.halt_quiets.2
    · exact (Docket.next_sweep _).trans (Docket.halt_sweep hx)
    · exact Docket.halt_next_taking hx
    · obtain ⟨rfl, rfl⟩ := hhalted h
      exact ⟨rfl, rfl, rfl, rfl⟩
    · exact hhalting h
  · exact repairTake_takes (repairPause_waiter hwaiter) hw hpaused (.inr hp) hx

end Sys2Proof.Machine
end

section
/-!
RESUME (R189): the sweep and the poll timer it starts, and how each background unit takes up its work or rests (R135, R143, R152,
R155, R165).
-/
namespace Sys2Proof.Machine

/-! ## The part RESUMED -/

/-- The part RUNNING again, before its units take up their work: the poll timer started, a sweep begun. -/
def Part.resumed (p : Part) : Part :=
  { p with
    engine := { p.engine with state := .running, refused := false }
    patrol := { p.patrol with paused := false }
    repair := { p.repair with paused := false }
    rebuild := { p.rebuild with paused := false }
    docket := p.docket.startPoll.sweeping.next }

theorem resumeTaken_eq {p : Part} (h : p.docket.sweep = none) : resumeTaken p = takeUp p.resumed := by
  have hdue : p.docket.startPoll.due = p.docket.startPoll.sweeping.next := Docket.due_begins h
  rw [Part.resumed, ← hdue]
  rfl

/-- RESUME from HALTED with no patrol timer running out: the units' work is taken up in order, leading to `z`. -/
theorem exec_resume {s : State} {z : Part} (ha : s.part.agenda = []) (hs : s.part.engine.state = .halted)
    (hd : s.part.docket.sweep = none) (ht : patrolTimers s.part.resumed = s.part.resumed)
    (h : Taken s.part.resumed [.repairTake, .patrolTry, .rebuildBegin] z) (hz : z.engine = s.part.resumed.engine) :
    exec .resume s = .next (s.withPart z) := by
  have hallowed : commandAllowed 3 s.part.engine.state = true := by rw [hs]; rfl
  have htaken : engineCommand 3 resumeTaken s.part = s.part.resumed.push [.repairTake, .patrolTry, .rebuildBegin] := by
    rw [engineCommand, if_pos hallowed, resumeTaken_eq hd, takeUp, ht]
  refine (State.act_eq _ s).trans ?_
  rw [act_taken htaken ha (by decide) h (Part.haltTested_of_state (by rw [hz]; exact nofun))]

/-! ## Units that rest -/

/-- Patrol has no chunk to begin and no timer that is over. -/
def Patrol.Rests (q : Patrol) : Prop :=
  q.marker = false ∧ q.state ≠ .running ∧ q.state ≠ .waiting ∧ (q.state = .holdoff → q.holdoff ≠ 0)
    ∧ (q.state = .resting → q.rest ≠ 0)

theorem patrolTimers_restLeft {p : Part} (hs : p.patrol.state = .resting) (hh : p.patrol.rest ≠ 0) :
    patrolTimers p = p := by
  simp [patrolTimers, hs, hh]

theorem patrolTimers_rests {p : Part} (h : p.patrol.Rests) : patrolTimers p = p := by
  obtain ⟨-, -, -, hholdoff, hrest⟩ := h
  by_cases hh : p.patrol.state = .holdoff
  · exact patrolTimers_holdoffLeft hh (hholdoff hh)
  · by_cases hr : p.patrol.state = .resting
    · exact patrolTimers_restLeft hr (hrest hr)
    · exact patrolTimers_notTimed hh hr

/-- The span being walked, in the recovery pass and in plan work (R150). -/
theorem currentSpan_eq {p : Part} {sp : Span}
    (hm : p.patrol.marker = true → ∃ v rest, p.patrol.recovery = v :: rest ∧ sp = ⟨v, 0, (p.vol v).length⟩)
    (hp : p.patrol.marker = false → ∃ plan, p.patrol.plan = some plan ∧ plan.spans[p.patrol.span]? = some sp) :
    p.currentSpan = some sp := by
  unfold Part.currentSpan
  split
  · next h =>
    obtain ⟨v, rest, hv, rfl⟩ := hm h
    rw [hv]
    rfl
  · next h =>
    obtain ⟨plan, hplan, hspan⟩ := hp (Bool.eq_false_iff.2 h)
    rw [hplan]
    exact hspan

/-- In the recovery pass, RUNNING or WAITING, patrol has no timer that runs. -/
theorem patrolTimers_untimed {p : Part} (h : p.patrol.marker = true ∨ p.patrol.state = .running ∨ p.patrol.state = .waiting) :
    patrolTimers p = p := by
  obtain hm | hs | hs := h
  · exact patrolTimers_notRuns (by simp [Part.planRuns, hm])
  · exact patrolTimers_notTimed (by simp [hs]) (by simp [hs])
  · exact patrolTimers_notTimed (by simp [hs]) (by simp [hs])

theorem repairPause_running {p : Part} (h : p.engine.state = .running) : repairPause p = p := by
  simp [repairPause, h]

section
variable {q : Part} (ha : q.agenda = [])
include ha

theorem taken_patrolRests (h : q.patrol.Rests) : Taken q [.patrolTry] q := by
  obtain ⟨hm, hr, hw, -⟩ := h
  exact taken_patrolTry ha (.inr ⟨hm, hr, hw⟩)

/-- With no entry waiting for repair the repair unit takes none. -/
theorem taken_repairRests (hs : q.engine.state = .running) (h : q.repair.list = []) : Taken q [.repairTake] q := by
  refine .single (fun us => ?_) ha
  have hpause : repairPause (q.push us) = q.push us := repairPause_running hs
  have hold : (q.push us).repair.oldest = none := by simp [Repair.oldest, h]
  show repairTake (q.push us) = q.push us
  unfold repairTake
  rw [hpause]
  dsimp only
  rw [hold]
  exact ite_self _

/-- With no target the rebuild unit begins nothing. -/
theorem taken_rebuildRests (h : q.rebuild.target = none) : Taken q [.rebuildBegin] q := by
  refine .single (fun us => ?_) ha
  show rebuildBegin (q.push us) = q.push us
  simp [rebuildBegin, h]

/-! ## Units that take up their work -/

/-- The repair unit takes its oldest entry, whose lock is in conflict. -/
theorem taken_repairWaits (hs : q.engine.state = .running) (hp : q.repair.paused = false) (hw : q.repair.work = none)
    {x : DiscEntry} (hx : q.repair.oldest = some x) {k : Lock} (hk : k = ⟨.repair, x.volume, x.block, 1, true⟩)
    (hconflict : (k.clearOf q.locks.granted && k.clearOf q.locks.waiting) = false) :
    Taken q [.repairTake] { q with
      repair := { q.repair.mark x with work := some (.start x) }, locks := ⟨q.locks.granted, q.locks.waiting ++ [k]⟩ } := by
  subst hk
  refine .single (fun us => ?_) ha
  have hpause : repairPause (q.push us) = q.push us := repairPause_running hs
  exact (repairTake_takes (p := q.push us) hpause hw hp (.inl hs) hx).trans (askLock_waits hconflict)

/-- Patrol begins a chunk, whose lock is in conflict. -/
theorem taken_patrolWaits {sp : Span} (ht : q.patrolTests) (hsp : q.currentSpan = some sp) (hv : q.skips sp = false)
    (hl : q.repair.list = []) {n : Nat} (hn : n = min 8 (sp.count - q.patrol.offset)) {k : Lock}
    (hk : k = ⟨.patrol, sp.volume, sp.first + q.patrol.offset, n, false⟩)
    (hconflict : (k.clearOf q.locks.granted && k.clearOf q.locks.waiting) = false) :
    Taken q [.patrolTry] { q with
      patrol := { q.patrol with
        state := if q.patrol.marker then q.patrol.state else .running
        chunk := some ⟨sp.volume, sp.first + q.patrol.offset, n, .lock, [], [], 0, 0⟩ }
      locks := ⟨q.locks.granted, q.locks.waiting ++ [k]⟩ } := by
  subst hk hn
  have hroom : min 8 (sp.count - q.patrol.offset) * ((q.onlineMembers sp.volume).length - 1) ≤ q.repair.room := by
    have hmembers : (q.onlineMembers sp.volume).length ≤ 4 :=
      (List.length_filter_le ..).trans (List.length_filter_le ..)
    calc min 8 (sp.count - q.patrol.offset) * ((q.onlineMembers sp.volume).length - 1)
      _ ≤ 8 * 3 := Nat.mul_le_mul (min_le_left ..) (by omega)
      _ ≤ q.repair.room := by rw [Repair.room, hl]; decide
  refine .single (fun us => ?_) ha
  exact (patrolTry_begins (p := q.push us) ht hsp hv hroom).trans (askLock_waits (p := (q.push us).modPatrol _) hconflict)

/-- A rebuild between chunks begins its next, whose lock is in conflict. -/
theorem taken_rebuildWaits {l : LaneId} (ht : q.rebuild.target = some l) (hs : q.rebuild.state = .running)
    (hab : q.rebuild.aborting = false) (hc : q.rebuild.chunk = none) (hp : q.rebuild.passed = false)
    (hpaused : q.rebuild.paused = false) {v : VolId} (hv : v = q.rebuild.cursorVol) (hl : (q.vol v).state ≠ .lost) {n : Nat}
    (hn : n = min 16 ((q.vol v).length - q.rebuild.cursorBlock)) {k : Lock}
    (hk : k = ⟨.rebuild, v, q.rebuild.cursorBlock, n, true⟩)
    (hconflict : (k.clearOf q.locks.granted && k.clearOf q.locks.waiting) = false) :
    Taken q [.rebuildBegin] { q with
      rebuild := { q.rebuild with chunk := some ⟨v, q.rebuild.cursorBlock, n, .lock, [], [], [], 0⟩ }
      locks := ⟨q.locks.granted, q.locks.waiting ++ [k]⟩ } := by
  subst hk hn hv
  refine .single (fun us => ?_) ha
  refine (rebuildBegin_eq (p := q.push us) ht hs hab hc).trans ?_
  refine (if_neg (Bool.eq_false_iff.1 hp)).trans ((if_neg (Bool.eq_false_iff.1 hpaused)).trans ((if_neg ?_).trans ?_))
  · exact fun h => hl (of_decide_eq_true h)
  · exact askLock_waits hconflict

end

/-- Settles O15: nothing taken up, or a chunk of patrol, an entry of the repair unit, or a chunk of the rebuild. -/
theorem resumeStartsSweepAndUnits : Obligations.ResumeStartsSweepAndUnits := by
  intro s ha hs hd p q resumed waits conflicts patrolRests repairRests rebuildRests
  have hagenda : s.part.resumed.agenda = [] := ha
  have hpatrol (hp : patrolRests) : Taken s.part.resumed [.patrolTry] s.part.resumed := taken_patrolRests hagenda hp
  have hrepair (hr : repairRests) : Taken s.part.resumed [.repairTake] s.part.resumed :=
    taken_repairRests hagenda rfl hr.1
  have htimers (hp : patrolRests) : patrolTimers s.part.resumed = s.part.resumed := patrolTimers_rests hp
  refine ⟨fun hp hr hb => ?_, ?_, ?_, ?_⟩
  · exact exec_resume ha hs hd (htimers hp) ((hrepair hr).append ((hpatrol hp).append (taken_rebuildRests hagenda hb))) rfl
  · intro sp hc ht hr hb hmarker hplan hready hlost hin n k hk
    have hspan : s.part.resumed.currentSpan = some sp := currentSpan_eq hmarker hplan
    have hskips : s.part.resumed.skips sp = false := by
      simpa [Part.skips] using ⟨⟨hready, hlost⟩, hin⟩
    have htests : s.part.resumed.patrolTests := ⟨rfl, rfl, hc, ht⟩
    have hwaits := taken_patrolWaits hagenda htests hspan hskips hr.1 rfl rfl hk
    exact exec_resume ha hs hd (patrolTimers_untimed (p := s.part.resumed) ht)
      ((hrepair hr).append (hwaits.append (taken_rebuildRests (q := { s.part.resumed with patrol := _, locks := _ }) ha hb))) rfl
  · intro x hp hw hb hx k hk
    have hwaits := taken_repairWaits hagenda rfl rfl hw hx rfl hk
    exact exec_resume ha hs hd (htimers hp) (hwaits.append
      ((taken_patrolRests (q := { s.part.resumed with repair := _, locks := _ }) ha hp).append
        (taken_rebuildRests (q := { s.part.resumed with repair := _, locks := _ }) ha hb))) rfl
  · intro l hp hr ht hst hab hc hpassed v n k _ hl hk
    have hwaits := taken_rebuildWaits hagenda ht hst hab hc hpassed rfl rfl hl rfl rfl hk
    exact exec_resume ha hs hd (htimers hp) ((hrepair hr).append ((hpatrol hp).append hwaits)) rfl

end Sys2Proof.Machine
end

section
/-!
The interrupt unit's delay timer (R185) and the journal writer: an event taken, the events a reread frees, the order and the ends
of the writer's transfers (R182 to R184), and what they write (R180, 13.3).
-/
namespace Sys2Proof.Machine

/-! ## Steps that change the journal writer and the interrupt unit -/

/-- The test of HALTED sees neither the journal writer nor the interrupt unit. -/
theorem Part.atRest_withJournal {p : Part} (h : p.atRest) (j : Journal) (u : Interrupt) :
    ({ p with journal := j, interrupt := u } : Part).atRest :=
  ⟨h.1, Part.haltTested_congr (p := p) rfl rfl rfl rfl rfl rfl rfl rfl h.2⟩

/-- The answer to a command that changes the journal writer alone. -/
theorem State.act_of_journal {f : Part → Part} {s : State} {j : Journal} (hr : s.part.atRest)
    (hf : f s.part = { s.part with journal := j }) : s.act f = .next (s.withPart { s.part with journal := j }) :=
  State.act_of_eq hf (Part.atRest_withJournal hr j s.part.interrupt)

/-! ## The delay timer (R185) -/

/-- A message raised is sent exactly while messages are enabled. -/
theorem Interrupt.raise_eq (u : Interrupt) : u.raise =
    { u with items := 0, timer := false, raised := u.raised + 1, sent := u.sent + u.enabled.toNat } := by
  unfold Interrupt.raise
  cases u.enabled <;> rfl

theorem Interrupt.expire_stopped {u : Interrupt} (h : u.timer = false) : u.expire = u := if_pos (by rw [h]; rfl)

theorem Interrupt.expire_running {u : Interrupt} (h : u.timer = true) :
    u.expire = if 0 < u.items then u.raise else { u with timer := false } := if_neg (by rw [h]; decide)

theorem exec_delayTimerExpiry {s : State} (hr : s.part.atRest) : exec .delayTimerExpiry s =
    .next (s.withPart { s.part with interrupt := s.part.interrupt.expire }) :=
  State.act_of_eq rfl (Part.atRest_withJournal hr s.part.journal s.part.interrupt.expire)

/-- Settles O19, by whether the timer runs and whether an item waits. -/
theorem delayTimerExpiryRaisesTheMessage : Obligations.DelayTimerExpiryRaisesTheMessage := by
  intro s hr u
  rw [exec_delayTimerExpiry hr]
  refine ⟨fun ht hi => ?_, fun ht hi => ?_, fun ht => ?_⟩
  · rw [Interrupt.expire_running ht, if_pos hi, Interrupt.raise_eq]
  · rw [Interrupt.expire_running ht, if_neg (by rw [hi]; decide)]
  · rw [Interrupt.expire_stopped ht]
    rfl

/-! ## The next transfer (R183) -/

section
variable {j : Journal}

theorem Journal.next_inHand (h : j.xfer ≠ none) : j.next = j := if_pos (Option.isSome_iff_ne_none.2 h)

theorem Journal.next_reread (hx : j.xfer = none) (hr : j.rereadDue = true) :
    j.next = { j with rereadDue := false, xfer := some .reread } := by
  simp [Journal.next, hx, hr]

theorem Journal.next_lost (hx : j.xfer = none) (hr : j.rereadDue = false) (hl : j.lostDue = true) :
    j.next = { j with lostDue := false, xfer := some (.lostWrite j.lost) } := by
  simp [Journal.next, hx, hr, hl]

theorem Journal.next_entry (hx : j.xfer = none) (hr : j.rereadDue = false) (hl : j.lostDue = false)
    (hw : j.writeList ≠ []) : j.next = { j with xfer := some .entryWrite } := by
  simp [Journal.next, hx, hr, hl, hw]

theorem Journal.next_idle (hx : j.xfer = none) (hr : j.rereadDue = false) (hl : j.lostDue = false)
    (hw : j.writeList = []) : j.next = j := by
  simp [Journal.next, hx, hr, hl, hw]

end

/-! ## An event taken (R182) -/

/-- The journal looks full to the writer. -/
def Journal.looksFull (j : Journal) : Prop := j.entries ≤ (j.written - j.lastRead).toNat

theorem Journal.full_iff {j : Journal} : j.full = true ↔ j.looksFull := decide_eq_true_iff

/-- An event taken now is not placed: others wait before it, a reread is in hand, or the journal looks full. -/
def Journal.defers (j : Journal) : Prop := j.backlog ≠ [] ∨ j.xfer = some .reread ∨ j.looksFull

theorem Journal.placesNow_iff {j : Journal} :
    (j.backlog.isEmpty && !decide (j.xfer = some .reread) && !j.full) = true ↔ ¬ j.defers := by
  simp [Journal.defers, ← Journal.full_iff, and_assoc]

section
variable {j : Journal} (e : Event)

theorem Journal.take_places (h : ¬ j.defers) : j.take e = (j.place e).next := if_pos (Journal.placesNow_iff.2 h)

theorem Journal.take_waits (h : j.defers) (hl : j.backlog.length < 16) : j.take e =
    ({ j with
      backlog := j.backlog ++ [e]
      rereadDue := j.rereadDue || (j.full && !decide (j.xfer = some .reread)) } : Journal).next :=
  (if_neg fun g => Journal.placesNow_iff.1 g h).trans (if_pos hl)

theorem Journal.take_loses (h : j.defers) (hl : 16 ≤ j.backlog.length) :
    j.take e = ({ j with lost := satInc j.lost, lostDue := true } : Journal).next :=
  (if_neg fun g => Journal.placesNow_iff.1 g h).trans (if_neg (Nat.not_lt.2 hl))

end

/-! ## The events a reread frees (R184) -/

/-- Events placed in order: each takes the next sequence and joins the write list. -/
def Journal.placeAll (j : Journal) (es : List Event) : Journal :=
  { j with
    written := j.written + BitVec.ofNat 32 es.length
    writeList := j.writeList ++ es.zipIdx.map fun x => ⟨j.written + BitVec.ofNat 32 x.2, x.1⟩ }

theorem Journal.placeAll_nil (j : Journal) : j.placeAll [] = j := by simp [Journal.placeAll]

theorem Journal.placeAll_cons (j : Journal) (e : Event) (es : List Event) :
    j.placeAll (e :: es) = (j.place e).placeAll es := by
  have hseq (n : Nat) : j.written + BitVec.ofNat 32 (n + 1) = j.written + 1 + BitVec.ofNat 32 n := by bv_omega
  have hplaced : (e :: es).zipIdx.map (fun x => (⟨j.written + BitVec.ofNat 32 x.2, x.1⟩ : Placed)) =
      ⟨j.written, e⟩ :: es.zipIdx.map fun x => ⟨j.written + 1 + BitVec.ofNat 32 x.2, x.1⟩ := by
    rw [List.zipIdx_cons, List.zipIdx_succ, List.map_cons, List.map_map, BitVec.add_zero]
    exact congrArg _ (List.map_congr_left fun x _ => congrArg (Placed.mk · x.1) (hseq x.2))
  rw [Journal.placeAll, hplaced, List.length_cons, hseq, List.append_cons]
  rfl

/-- The events the journal has room for. -/
def Journal.room (j : Journal) : Nat := j.entries - (j.written - j.lastRead).toNat

theorem Journal.room_eq_zero_iff {j : Journal} : j.room = 0 ↔ j.looksFull := Nat.sub_eq_zero_iff_le

/-- An event placed takes room for one: the used room does not pass 2^32 while it is below the entry count. -/
theorem Journal.room_place {j : Journal} (he : j.entries ≤ 256) (h : ¬ j.looksFull) (e : Event) :
    j.room = (j.place e).room + 1 := by
  have hused : (j.written - j.lastRead).toNat < j.entries := Nat.not_le.1 h
  have hnext : (j.written + 1 - j.lastRead).toNat = (j.written - j.lastRead).toNat + 1 := by bv_omega
  simp only [Journal.room, Journal.place, hnext]
  omega

/-- The backlog drained: as many of its events placed as there is room for, the others left. -/
theorem Journal.drain_eq (es : List Event) {j : Journal} (he : j.entries ≤ 256) :
    j.drain es = { j.placeAll (es.take j.room) with backlog := es.drop j.room } := by
  induction es generalizing j with
  | nil => rw [List.take_nil, List.drop_nil, Journal.placeAll_nil, Journal.drain]
  | cons e es ih =>
    rw [Journal.drain]
    by_cases h : j.looksFull
    · rw [if_pos (Journal.full_iff.2 h), Journal.room_eq_zero_iff.2 h, List.take_zero, List.drop_zero, Journal.placeAll_nil]
    · rw [if_neg (mt Journal.full_iff.1 h), Journal.room_place he h e, List.take_succ_cons, List.drop_succ_cons,
        Journal.placeAll_cons]
      exact ih he

theorem Journal.drain_one {j : Journal} (e : Event) (h : ¬ j.looksFull) :
    j.drain [e] = { j.place e with backlog := [] } := if_neg (mt Journal.full_iff.1 h)

section
variable {j : Journal} (v : Word)

theorem Journal.consumed_of_drain {es : List Event} {k : Journal} (hb : j.backlog = es)
    (hd : ({ j with lastRead := v } : Journal).drain es = k) : j.consumed v = k.next := by
  subst hb hd
  rfl

theorem Journal.consumed_empty (h : j.backlog = []) : j.consumed v = ({ j with lastRead := v } : Journal).next := by
  rw [Journal.consumed_of_drain v h rfl, Journal.drain, ← h]

/-- One event waiting, with room for it, whatever the entry count. -/
theorem Journal.consumed_one {e : Event} (h : j.backlog = [e]) (hroom : (j.written - v).toNat < j.entries) :
    j.consumed v = ({ j.place e with lastRead := v, backlog := [] } : Journal).next :=
  Journal.consumed_of_drain v h (Journal.drain_one e (Nat.not_le.2 hroom))

theorem Journal.consumed_eq (he : j.entries ≤ 256) {n : Nat}
    (hn : n = min j.backlog.length (j.entries - (j.written - v).toNat)) : j.consumed v = ({ j with
      lastRead := v, backlog := j.backlog.drop n, written := j.written + BitVec.ofNat 32 n
      writeList := j.writeList ++ (j.backlog.take n).zipIdx.map fun x => ⟨j.written + BitVec.ofNat 32 x.2, x.1⟩ }
        : Journal).next := by
  have htake : j.backlog.take (j.entries - (j.written - v).toNat) = j.backlog.take n := by
    rw [hn, min_comm]
    exact List.take_eq_take_min
  have hdrop : j.backlog.drop (j.entries - (j.written - v).toNat) = j.backlog.drop n := by
    rw [hn, min_comm]
    exact List.drop_eq_drop_min
  have hlength : (j.backlog.take n).length = n := List.length_take_of_le (hn ▸ min_le_left ..)
  refine Journal.consumed_of_drain v rfl ((Journal.drain_eq (j := { j with lastRead := v }) j.backlog he).trans ?_)
  rw [Journal.room, htake, hdrop, Journal.placeAll, hlength]

end

/-! ## The ends of the writer's transfers (R183, R184) -/

section
variable {s : State} (hr : s.part.atRest)
include hr

theorem exec_entryWrite_done (hx : s.part.journal.xfer = some .entryWrite) : exec (.entryWrite .done) s =
    .next (s.withPart { s.part with journal := { s.part.journal with xfer := some .writtenWrite } }) :=
  State.act_of_journal hr (by simp [entryWritten, hx])

/-- The header write of the oldest entry ends: the entry leaves the write list, and the host has an item. -/
theorem exec_writtenCountWrite_done {x : Placed} {rest : List Placed} (hx : s.part.journal.xfer = some .writtenWrite)
    (hw : s.part.journal.writeList = x :: rest) : exec (.writtenCountWrite .done) s =
      .next (s.withPart { s.part with
        interrupt := s.part.interrupt.item
        journal := ({ s.part.journal with
          headerWritten := x.sequence + 1, writeList := rest, xfer := none } : Journal).next }) :=
  State.act_of_eq (by simp [writtenCountWritten, writtenCountEnded, hx, hw, newItem]) (Part.atRest_withJournal hr _ _)

theorem exec_lostCountWrite_done {n : Word} (hx : s.part.journal.xfer = some (.lostWrite n)) :
    exec (.lostCountWrite .done) s =
      .next (s.withPart { s.part with journal := ({ s.part.journal with xfer := none } : Journal).next }) :=
  State.act_of_journal hr (by simp [lostCountWritten, hx])

theorem exec_reread_value (v : Word) (hx : s.part.journal.xfer = some .reread) : exec (.reread (some v)) s =
    .next (s.withPart { s.part with journal := ({ s.part.journal with xfer := none } : Journal).consumed v }) :=
  State.act_of_journal hr (by simp [rereadEnded, hx])

end

/-! ## The bytes of an entry and of the transfers (R180, R183, 13.3) -/

/-- An entry's fields with its two reserved bytes among them. -/
theorem Placed.bytes_eq (x : Placed) : x.bytes = layout 0 [(0, leBytes 4 x.sequence.toNat), (4, [x.event.kind.code]),
    (5, [(x.event.lane.map fun l => BitVec.ofNat 8 l.val).getD 0xFF]),
    (6, [(x.event.volume.map fun v => BitVec.ofNat 8 v.val).getD 0xFF]), (7, [x.event.cause]), (8, [x.event.old]),
    (9, [x.event.new]), (10, [0]), (11, [0]), (12, leBytes 4 x.event.block.toNat), (16, leBytes 4 x.event.value1.toNat),
    (20, leBytes 4 x.event.value2.toNat), (24, leBytes 4 x.event.tag.toNat), (28, [0, 0, 0, 0])] := by
  unfold Placed.bytes
  cases x.event.lane <;> cases x.event.volume <;> rfl

theorem Holds.byte_eq {bs : List Byte} {off : Nat} {b : Byte} (h : Holds bs (off, [b])) : byteAt bs off = b :=
  BitVec.eq_of_toNat_eq ((byteAt_toNat ..).trans h.byte)

/-- The byte of a lane or volume number, FFh where the event names none. -/
theorem toNat_numberByte {n : Nat} (hn : n ≤ 256) (i : Option (Fin n)) :
    ((i.map fun k => BitVec.ofNat 8 k.val).getD 0xFF).toNat = (i.map (·.val)).getD 0xFF := by
  cases i with
  | none => rfl
  | some k => exact toNat_ofNat_fin hn k

/-- The fields of an entry (13.3). -/
theorem Placed.bytes_fields (x : Placed) :
    let bs := x.bytes
    let y := x.event
    bs.length = 32 ∧ fieldAt bs 0 4 = x.sequence.toNat ∧ byteAt bs 4 = y.kind.code
    ∧ (byteAt bs 5).toNat = (y.lane.map (·.val)).getD 0xFF ∧ (byteAt bs 6).toNat = (y.volume.map (·.val)).getD 0xFF
    ∧ byteAt bs 7 = y.cause ∧ byteAt bs 8 = y.old ∧ byteAt bs 9 = y.new ∧ byteAt bs 10 = 0 ∧ byteAt bs 11 = 0
    ∧ fieldAt bs 12 4 = y.block.toNat ∧ fieldAt bs 16 4 = y.value1.toNat ∧ fieldAt bs 20 4 = y.value2.toNat
    ∧ fieldAt bs 24 4 = y.tag.toNat ∧ fieldAt bs 28 4 = 0 := by
  obtain ⟨hlen, hfields⟩ := layout_spec (z := 32) x.bytes_eq (by simp [Fits, leBytes_length])
  simp only [List.forall_mem_cons] at hfields
  obtain ⟨hsequence, hkind, hlane, hvolume, hcause, hold, hnew, hten, heleven, hblock, hvalue1, hvalue2, htag, hzero, -⟩ :=
    hfields
  have hlaneNumber := (congrArg BitVec.toNat hlane.byte_eq).trans (toNat_numberByte (by decide) x.event.lane)
  have hvolumeNumber := (congrArg BitVec.toNat hvolume.byte_eq).trans (toNat_numberByte (by decide) x.event.volume)
  exact ⟨hlen, hsequence.word (by decide), hkind.byte_eq, hlaneNumber, hvolumeNumber, hcause.byte_eq, hold.byte_eq, hnew.byte_eq,
    hten.byte_eq, heleven.byte_eq, hblock.word (by decide), hvalue1.word (by decide), hvalue2.word (by decide),
    htag.word (by decide), hzero.field⟩

/-- A number's bytes do not see it beyond them. -/
theorem leBytes_mod (n x : Nat) : leBytes n (x % 256 ^ n) = leBytes n x := by
  induction n generalizing x with
  | zero => rfl
  | succ n ih =>
    have hbyte : BitVec.ofNat 8 (x % 256 ^ (n + 1)) = BitVec.ofNat 8 x := by
      refine BitVec.eq_of_toNat_eq ?_
      rw [BitVec.toNat_ofNat, BitVec.toNat_ofNat]
      exact Nat.mod_mod_of_dvd x ⟨256 ^ n, pow_succ' ..⟩
    have hrest : x % 256 ^ (n + 1) / 256 = x / 256 % 256 ^ n := by
      rw [pow_succ', Nat.mod_mul_right_div_self]
    rw [leBytes, leBytes, hbyte, hrest, ih]

section
variable {p : Part} {x : Placed} {rest : List Placed}

theorem entryWrite_spec (hx : p.journal.xfer = some .entryWrite) (hw : p.journal.writeList = x :: rest) :
    p.journalBytes = x.bytes ∧ p.journalAddress =
      some (p.engine.base.toNat + p.journal.offset + 32 * (x.sequence.toNat % p.journal.entries)) := by
  simp [Part.journalBytes, Part.journalAddress, hx, hw]

/-- The written count is the sequence of the entry written, plus 1 modulo 2^32. -/
theorem writtenWrite_spec (hx : p.journal.xfer = some .writtenWrite) (hw : p.journal.writeList = x :: rest) :
    p.journalBytes = leBytes 4 (x.sequence + 1).toNat ∧ p.journalAddress = some (p.engine.base.toNat + 68) := by
  have hcount : leBytes 4 (x.sequence + 1).toNat = leBytes 4 (x.sequence.toNat + 1) :=
    (congrArg (leBytes 4) (BitVec.toNat_add ..)).trans (leBytes_mod 4 _)
  rw [hcount]
  simp [Part.journalBytes, Part.journalAddress, hx, hw]

theorem writtenWrite_empty_spec (hx : p.journal.xfer = some .writtenWrite) (hw : p.journal.writeList = []) :
    p.journalBytes = leBytes 4 0 ∧ p.journalAddress = some (p.engine.base.toNat + 68) := by
  simp [Part.journalBytes, Part.journalAddress, hx, hw]

theorem lostWrite_spec {n : Word} (hx : p.journal.xfer = some (.lostWrite n)) :
    p.journalBytes = leBytes 4 n.toNat ∧ p.journalAddress = some (p.engine.base.toNat + 72) := by
  simp [Part.journalBytes, Part.journalAddress, hx]

theorem reread_spec (hx : p.journal.xfer = some .reread) :
    p.journalBytes = [] ∧ p.journalAddress = some (p.engine.base.toNat + 32) := by
  simp [Part.journalBytes, Part.journalAddress, hx]

end

/-- Settles O57: an event taken, the ends of the transfers, the order of the next one, the codes, and the bytes written. -/
theorem journalTakesAndWritesEvents : Obligations.JournalTakesAndWritesEvents := by
  refine ⟨fun j e => ?_, fun s hr => ?_, fun j => ?_, rfl, Placed.bytes_fields, fun p => ?_⟩
  · intro looksFull
    refine ⟨fun hb hx hf => ?_, fun h => ⟨fun hl => ?_, fun hl => ?_⟩⟩
    · exact Journal.take_places e (by rintro (h | h | h) <;> contradiction)
    · have hdue : (decide looksFull && decide (j.xfer ≠ some .reread)) = (j.full && !decide (j.xfer = some .reread)) := by
        rw [decide_not]
        rfl
      rw [hdue]
      exact Journal.take_waits e h hl
    · exact Journal.take_loses e h hl
  · intro p j
    refine ⟨exec_entryWrite_done hr, fun x rest => exec_writtenCountWrite_done hr, fun n => exec_lostCountWrite_done hr,
      fun v hx => ⟨fun hb => ?_, fun e hb hroom => ?_⟩, fun v hx he => ?_⟩
    · rw [exec_reread_value hr v hx, Journal.consumed_empty (j := { s.part.journal with xfer := none }) v hb]
    · rw [exec_reread_value hr v hx, Journal.consumed_one (j := { s.part.journal with xfer := none }) v hb hroom]
      rfl
    · intro n
      rw [exec_reread_value hr v hx, Journal.consumed_eq (j := { s.part.journal with xfer := none }) v he rfl]
  · exact ⟨Journal.next_inHand, Journal.next_reread, Journal.next_lost,
      fun hx hr hl => ⟨Journal.next_entry hx hr hl, Journal.next_idle hx hr hl⟩⟩
  · exact ⟨fun x rest hw => ⟨fun hx => entryWrite_spec hx hw, fun hx => writtenWrite_spec hx hw⟩, writtenWrite_empty_spec,
      fun n => lostWrite_spec, reread_spec⟩

end Sys2Proof.Machine
end

section
/-!
What a step can answer, the resets, the registers and the engine commands that are refused or fail at once (R187, R188, R189, R192,
R193).
-/
namespace Sys2Proof.Machine

/-! ## What a command answers -/

/-- A command leaves the state, acts on the part, writes an AREA register, or resets. -/
theorem exec_cases (c : Instr) (s : State) :
    exec c s = .next s ∨ (∃ f, exec c s = s.act f)
      ∨ (∃ high value q, c = .areaWrite high value ∧ exec c s = .next { s with port := q })
      ∨ ∃ levels, (c = .powerOnReset levels ∨ c = .portReset levels) ∧ exec c s = .next (s.afterReset levels) := by
  cases c with
  | areaWrite high value =>
    by_cases hs : s.part.engine.state = .detached
    · exact .inr (.inr (.inl ⟨high, value, _, rfl, if_pos hs⟩))
    · exact .inl (if_neg hs)
  | powerOnReset levels => exact .inr (.inr (.inr ⟨levels, .inl rfl, rfl⟩))
  | portReset levels => exact .inr (.inr (.inr ⟨levels, .inr rfl, rfl⟩))
  | unsolicitedMessage l => exact .inl rfl
  | _ => exact .inr (.inl ⟨_, rfl⟩)

/-- No command stops the machine, and none touches the queue (log 1). -/
theorem exec_next (c : Instr) (s : State) : ∃ t, exec c s = .next t ∧ t.pending = s.pending := by
  obtain h | ⟨f, h⟩ | ⟨high, value, q, -, h⟩ | ⟨levels, -, h⟩ := exec_cases c s <;> exact ⟨_, h, rfl⟩

theorem step_cons (c : Instr) (s : State) (rest : List Instr) :
    step { s with pending := c :: rest } = exec c { s with pending := rest } := rfl

theorem step_nil {s : State} (h : s.pending = []) : step s = .next s := by
  simp only [step, h]

/-- A step takes one command from the front of the queue, if there is one. -/
theorem step_next (s : State) : ∃ t, step s = .next t ∧ t.pending = s.pending.tail := by
  obtain ⟨port, part, pending⟩ := s
  cases pending with
  | nil => exact ⟨_, step_nil rfl, rfl⟩
  | cons c rest => exact exec_next c ⟨port, part, rest⟩

/-- Settles O1, from the two branches of a step. -/
theorem stepTakesTheFrontCommand : Obligations.StepTakesTheFrontCommand :=
  ⟨step_cons, fun _ => step_nil⟩

/-- Settles O2, by induction on the number of steps. -/
theorem everyRunTakesItsCommandsInOrder : Obligations.EveryRunTakesItsCommandsInOrder := by
  intro n
  induction n with
  | zero => exact fun s => ⟨s, rfl, rfl⟩
  | succ n ih =>
    intro s
    obtain ⟨u, hstep, hu⟩ := step_next s
    obtain ⟨t, hrun, ht⟩ := ih u
    refine ⟨t, ?_, by rw [ht, hu, List.drop_tail]⟩
    have hcore : core.step s = .next u := hstep
    simp only [Host.Core.run, hcore, hrun]

/-! ## The test of HALTED (R189) -/

/-- After the test the engine is not HALTING with all that R189 names holding: such an engine has entered HALTED. -/
theorem haltTest_tested (p : Part) : (haltTest p).haltTested := by
  unfold haltTest
  split
  · exact Part.haltTested_of_state (show EngineState.halted ≠ .halting by decide)
  · next h => exact fun hp => h (by simp [hp])

theorem afterReset_haltTested (s : State) (levels : LaneMask) : (s.afterReset levels).part.haltTested :=
  Part.haltTested_of_state (show EngineState.detached ≠ .halting by decide)

/-- Every command ends with the test of HALTED, leaves the part as it is, or resets it. -/
theorem exec_haltTested {c : Instr} {s t : State} (hs : s.part.haltTested) (ht : exec c s = .next t) : t.part.haltTested := by
  obtain h | ⟨f, h⟩ | ⟨high, value, q, -, h⟩ | ⟨levels, -, h⟩ := exec_cases c s <;>
    obtain rfl := Host.Outcome.next.inj (h.symm.trans ht)
  · exact hs
  · exact haltTest_tested _
  · exact hs
  · exact afterReset_haltTested s levels

/-- Settles O5: a step idles or takes a command. -/
theorem noStepLeavesADrainedEngineHalting : Obligations.NoStepLeavesADrainedEngineHalting := by
  intro s t hs ht
  obtain ⟨port, part, pending⟩ := s
  cases pending with
  | nil => exact Host.Outcome.next.inj ht ▸ hs
  | cons c rest => exact exec_haltTested (s := ⟨port, part, rest⟩) hs ht

/-- Settles O6, by what a command can answer. -/
theorem commandsKeepTheAreaRegisters : Obligations.CommandsKeepTheAreaRegisters := by
  intro c s t ht
  obtain h | ⟨f, h⟩ | ⟨high, value, q, hc, h⟩ | ⟨levels, hc, h⟩ := exec_cases c s <;>
    obtain rfl := Host.Outcome.next.inj (h.symm.trans ht) <;> refine ⟨rfl, fun harea hpower hport => ?_⟩
  · rfl
  · rfl
  · exact absurd hc (harea high value)
  · exact absurd hc (not_or.2 ⟨hpower levels, hport levels⟩)

/-! ## The resets (R192) -/

/-- Settles O4: every list is empty and the engine is DETACHED. -/
theorem resetHasTheLaws : Obligations.ResetHasTheLaws :=
  ⟨kept_reset 0 0 .reset, Part.haltTested_of_state (show EngineState.detached ≠ .halting by decide)⟩

theorem Part.reset_lane (levels : LaneMask) (l : LaneId) : (Part.reset levels).lane l = .reset (levels.has l) := by
  revert l
  simp only [Fin.forall_fin_succ]
  exact ⟨rfl, rfl, rfl, rfl, fun x => x.elim0⟩

theorem afterReset_lane (s : State) (levels : LaneMask) (l : LaneId) :
    (s.afterReset levels).part.lane l = .reset (levels.has l) := Part.reset_lane levels l

/-- A reset gives every block the values it has with no attachment. -/
theorem afterReset_values (s : State) (levels : LaneMask) : (s.afterReset levels).part.DetachedValues where
  engine := ⟨rfl, rfl⟩
  docket := rfl
  table e := by simp [Part.entry, Part.reset]
  volumes v := by simp [Part.vol, Part.reset]
  locks := rfl
  pool := ⟨rfl, fun b hb => by simpa [Part.reset, Pool.empty] using hb⟩
  lanes l := by rw [afterReset_lane]; exact ⟨rfl, rfl, rfl, rfl, rfl, rfl⟩
  remaps l := by rw [afterReset_lane]; exact ⟨rfl, rfl, rfl, rfl⟩
  work l := by rw [afterReset_lane]; exact ⟨rfl, rfl, rfl, rfl, rfl, rfl, rfl⟩
  committer := rfl
  repair := rfl
  patrol := rfl
  rebuild := rfl
  journal := rfl
  interrupt := ⟨rfl, rfl, rfl, rfl⟩

/-- Settles O7: both resets answer with the state after reset. -/
theorem resetsGiveEveryBlockItsResetValues : Obligations.ResetsGiveEveryBlockItsResetValues := by
  intro levels s c hc
  have hexec : exec c s = .next (s.afterReset levels) := by
    rw [List.mem_pair] at hc
    obtain rfl | rfl := hc <;> rfl
  refine ⟨_, hexec, rfl, rfl, rfl, afterReset_values s levels, rfl, fun l => ?_, rfl, rfl⟩
  rw [afterReset_lane]
  exact ⟨rfl, rfl, rfl⟩

/-! ## The registers (13.1) -/

theorem EngineState.code_le (g : EngineState) : g.code ≤ 6 := by cases g <;> decide

theorem AttachError.code_le (x : AttachError) : x.code ≤ 3 := by cases x <;> decide

theorem FaultCause.code_le (x : FaultCause) : x.code ≤ 4 := by cases x <;> decide

/-- The fields of ENGINE do not overlap, so the register is their sum. -/
theorem Engine.read_toNat (g : Engine) :
    g.read.toNat = g.state.code + 16 * g.refused.toNat + 256 * g.attachError.code + 65536 * g.faultCause.code := by
  have hstate := g.state.code_le
  have hrefused := g.refused.toNat_le
  have herror := g.attachError.code_le
  have hcause := g.faultCause.code_le
  rw [Engine.read, BitVec.toNat_ofNat, Nat.mod_eq_of_lt (by omega)]
  omega

/-- The fields of ENGINE are read back by their bits, and every other bit is 0. -/
theorem Engine.read_fields (g : Engine) :
    (g.read.extractLsb' 0 4).toNat = g.state.code ∧ g.read.getLsbD 4 = g.refused ∧ g.read.extractLsb' 5 3 = 0
      ∧ (g.read.extractLsb' 8 2).toNat = g.attachError.code ∧ g.read.extractLsb' 10 6 = 0
      ∧ (g.read.extractLsb' 16 4).toNat = g.faultCause.code ∧ g.read.extractLsb' 20 12 = 0 := by
  have hread := g.read_toNat
  have hstate := g.state.code_le
  have hrefused := g.refused.toNat_le
  have herror := g.attachError.code_le
  have hcause := g.faultCause.code_le
  have hbits (start n : Nat) : (g.read.extractLsb' start n).toNat = g.read.toNat / 2 ^ start % 2 ^ n := by
    rw [BitVec.extractLsb'_toNat, Nat.shiftRight_eq_div_pow]
  have hzero {start n : Nat} (h : g.read.toNat / 2 ^ start % 2 ^ n = 0) : g.read.extractLsb' start n = 0 :=
    BitVec.eq_of_toNat_eq (by rw [hbits, h]; rfl)
  refine ⟨?_, ?_, hzero ?_, ?_, hzero ?_, ?_, hzero ?_⟩
  · rw [hbits]; omega
  · have hbit : g.read.toNat / 2 ^ 4 % 2 = g.refused.toNat := by omega
    rw [← BitVec.testBit_toNat, Nat.testBit_eq_decide_div_mod_eq, hbit]
    cases g.refused <;> rfl
  · omega
  · rw [hbits]; omega
  · omega
  · rw [hbits]; omega
  · omega

/-- Settles O8, by the fields of ENGINE. -/
theorem registersReadTheirFields : Obligations.RegistersReadTheirFields :=
  fun s => ⟨rfl, rfl, rfl, s.part.engine.read, rfl, s.part.engine.read_fields⟩

/-- Settles O9, by the test of DETACHED. -/
theorem areaWritesAreTakenWhileDetached : Obligations.AreaWritesAreTakenWhileDetached :=
  fun _ _ => ⟨fun hs => ⟨if_pos hs, if_pos hs⟩, fun hs => ⟨if_neg hs, if_neg hs⟩⟩

/-! ## Engine commands (R187, R188) -/

/-- A command that its state does not allow sets the refused flag alone. -/
theorem act_refused {s : State} (ha : s.part.agenda = []) (hh : s.part.haltTested) {code : Nat}
    (hc : commandAllowed code s.part.engine.state = false) (take : Part → Part) :
    s.act (engineCommand code take) =
      .next (s.withPart { s.part with engine := { s.part.engine with refused := true } }) :=
  State.act_of_eq (q := commandRefused s.part) (if_neg (Bool.eq_false_iff.1 hc))
    ⟨ha, Part.haltTested_congr (p := s.part) rfl rfl rfl rfl rfl rfl rfl rfl hh⟩

/-- No code but 1 to 5 is a command. -/
theorem commandAllowed_other {code : Nat} (h : code = 0 ∨ 5 < code) (g : EngineState) : commandAllowed code g = false := by
  unfold commandAllowed
  split
  case h_6 => rfl
  all_goals omega

/-- Settles O10, by the table of the states each command is allowed from. -/
theorem refusedEngineCommandsOnlySetTheFlag : Obligations.RefusedEngineCommandsOnlySetTheFlag := by
  intro s ha hh g refused
  have hrefused {code : Nat} (hc : commandAllowed code g = false) (take : Part → Part) :
      s.act (engineCommand code take) = refused := act_refused ha hh hc take
  refine ⟨fun hg => ?_, fun hg => ?_, fun hg => ?_, fun hg hf => ?_, fun hg => ?_, fun code hc => ?_⟩
  · have hc : commandAllowed 1 g = false := decide_eq_false hg
    exact ⟨hrefused hc _, hrefused hc _⟩
  · have hc : commandAllowed 2 g = false := decide_eq_false hg
    exact ⟨hrefused hc _, hrefused hc _⟩
  · have hc : commandAllowed 3 g = false := decide_eq_false hg
    exact ⟨hrefused hc _, hrefused hc _⟩
  · have hc : commandAllowed 4 g = false := by simp [commandAllowed, hg, hf]
    exact ⟨hrefused hc _, hrefused hc _⟩
  · have hc : commandAllowed 5 g = false := decide_eq_false (not_not.2 hg)
    exact ⟨hrefused hc _, hrefused hc _⟩
  · exact hrefused (commandAllowed_other hc g) _

/-- Settles O11, by the alignment of the base. -/
theorem attachLatchesTheBase : Obligations.AttachLatchesTheBase := by
  intro s ha hs base g
  have htaken : engineCommand 1 (attachTaken s.port.base) s.part = attachTaken base s.part := if_pos (by rw [hs]; rfl)
  refine ⟨fun hb => ?_, fun hb => ?_⟩
  · have hread : attachTaken base s.part =
        { s.part with engine := { g with state := .attaching, attach := .headerRead } } := if_neg (not_not.2 hb)
    exact State.act_of_eq (htaken.trans hread)
      ⟨ha, Part.haltTested_of_state (show EngineState.attaching ≠ .halting by decide)⟩
  · have hfails : attachTaken base s.part = { s.part with engine :=
        { g with state := .detached, attach := .idle, mark := .none, share := 4, attachError := .layout } } := if_pos hb
    exact State.act_of_eq (htaken.trans hfails)
      ⟨ha, Part.haltTested_of_state (show EngineState.detached ≠ .halting by decide)⟩

/-- Settles O20: a level change touches its lane alone. -/
theorem levelChangesWaitForTheirQualification : Obligations.LevelChangesWaitForTheirQualification :=
  fun _ _ _ hr => State.act_of_setLane hr rfl

end Sys2Proof.Machine
end

section
/-!
Entry into FAULTED at a faulted exchange area transfer (R191).
-/
namespace Sys2Proof.Machine

/-! ## Every lane changed in turn -/

/-- Changes made lane after lane, each by what its own lane held before, are one update of these lanes. -/
theorem foldl_updateLanes {step : Part → LaneId → Part} {f : LaneId → Lane → Lane} {ls : List LaneId} (hls : ls.Nodup) {p : Part}
    (h : ∀ q, ∀ l ∈ ls, q.lane l = p.lane l → step q l = q.setLane l (f l (q.lane l))) :
    ls.foldl step p = p.updateLanes ls f := by
  induction ls generalizing p with
  | nil => exact (Part.updateLanes_nil p f).symm
  | cons l ls ih =>
    obtain ⟨hl, hnodup⟩ := List.nodup_cons.1 hls
    rw [List.foldl_cons, h p l List.mem_cons_self rfl, Part.updateLanes_cons p f hl]
    refine ih hnodup fun q k hk hq => h q k (List.mem_cons_of_mem l hk) (hq.trans ?_)
    rw [Part.lane_setLane, if_neg fun hlk : l = k => hl (hlk ▸ hk)]

theorem allLanes_nodup : allLanes.Nodup := List.nodup_finRange 4

theorem Part.updateLanes_all (p : Part) (f : Lane → Lane) : p.updateLanes allLanes (fun _ => f) = p.mapLanes f := by
  have hlanes : (Vector.ofFn fun l : LaneId => if l ∈ allLanes then f (p.lane l) else p.lane l) = p.lanes.map f :=
    Vector.ext fun i hi => by simp [Part.lane, mem_allLanes]
  unfold Part.updateLanes
  rw [hlanes]
  rfl

theorem foldl_mapLanes {step : Part → LaneId → Part} {f : Lane → Lane} {p : Part}
    (h : ∀ q l, q.lane l = p.lane l → step q l = q.setLane l (f (q.lane l))) : allLanes.foldl step p = p.mapLanes f :=
  (foldl_updateLanes allLanes_nodup fun q l _ hq => h q l hq).trans (p.updateLanes_all f)

/-! ## Entry into FAULTED -/

/-- Nothing of a presence change is held on the lane, and it is not noted absent (R33). -/
def Lane.unheld (L : Lane) : Lane := { L with held := false, fell := false, absent := false }

/-- The part FAULTED, with all work cut and the message raised, before falls that were held are taken. -/
def Part.faulted (p : Part) (c : FaultCause) : Part :=
  raiseMessage (clearShared (cutCommit { p.mapLanes Lane.cut with
    engine := { p.engine with state := .faulted, faultCause := c, attach := .idle, mark := .none }
    docket := p.docket.cut
    table := .replicate 32 none
    repair := p.repair.cut
    patrol := p.patrol.cut
    rebuild := p.rebuild.cut
    journal := p.journal.cut
    agenda := [] }))

theorem takeHeldFall_unheld {p : Part} {l : LaneId} (h : (p.lane l).held = false) :
    takeHeldFall p l = p.setLane l (p.lane l).unheld := by
  simp only [takeHeldFall, h, Bool.false_and, Bool.false_eq_true, if_false]
  rfl

/-- With no presence change held, entry into FAULTED cuts the work and does nothing more. -/
theorem enterFaulted_eq {p : Part} (h : ∀ l, (p.lane l).held = false) (c : FaultCause) :
    enterFaulted c p = (p.faulted c).mapLanes Lane.unheld := by
  have hlane (l : LaneId) : (p.faulted c).lane l = (p.lane l).cut := Part.lane_mapLanes p Lane.cut l
  have hfold : allLanes.foldl takeHeldFall (p.faulted c) = (p.faulted c).mapLanes Lane.unheld :=
    foldl_mapLanes fun q l hq => takeHeldFall_unheld (by rw [hq, hlane]; exact h l)
  show ({ allLanes.foldl takeHeldFall (p.faulted c) with agenda := [] } : Part) = _
  rw [hfold]
  rfl

/-- The answer to a command by which an exchange area transfer has faulted. -/
theorem State.act_faulted {f : Part → Part} {s : State} (h : ∀ l, (s.part.lane l).held = false) {c : FaultCause}
    (hf : f s.part = enterFaulted c s.part) :
    s.act f = .next (s.withPart ((s.part.faulted c).mapLanes Lane.unheld)) :=
  State.act_of_eq (hf.trans (enterFaulted_eq h c))
    ⟨rfl, Part.haltTested_of_state (show EngineState.faulted ≠ .halting by decide)⟩

theorem Rebuild.cut_of_not_aborting {r : Rebuild} (h : r.aborting = false) :
    r.cut = { r with state := if r.state = .running then .held else r.state, chunk := none } := by
  unfold Rebuild.cut
  rw [if_neg (Bool.eq_false_iff.1 h)]
  by_cases hs : r.state = .running <;> simp only [hs, if_true, if_false]

theorem Lane.cut_unheld {L : Lane} (h : L.held = false) : L.cut.unheld = { L with
    runtime := match L.lineTest with
      | some x => x.remembered
      | none => L.runtime
    lineTest := none, identification := none, service := none, queue := [], waiters := [], streak := 0, txn := none
    pulse := if L.txn.isSome then some (L.pulse.getD .cut) else L.pulse
    fell := false, absent := false } := by
  obtain ⟨⟩ := L
  subst h
  rfl

/-! ## The transfers that fault -/

/-- A row whose requests include the one being taken enters FAULTED at a faulted TAKEN write. -/
theorem requestTaken_fault {p : Part} {e : EntryId} {x : Entry} (ht : p.takes e x) {mine : Request → Bool}
    (hm : mine x.req = true) (go : EntryId → Request → Part → Part) :
    requestTaken mine go .fault p = enterFaulted .slot p := by
  obtain ⟨hx, he, -⟩ := ht
  have hp : p.taking = some (e, x.req) := by simp [Part.taking, hx, he]
  unfold requestTaken
  simp only [hp, hm, Bool.not_true, Bool.false_eq_true, if_false]

/-- The row acts as entry into FAULTED. -/
def Faults (s : State) (c : Instr) : Prop := exec c s = s.act (enterFaulted .slot)

/-- The row of a request acts as entry into FAULTED at a faulted TAKEN write, whatever its kind. -/
theorem faults_takenRow {s : State} {e : EntryId} {x : Entry} (ht : s.part.takes e x) : Faults s (takenRow x.req .fault) := by
  have hrow {c : Instr} (mine : Request → Bool) (go : EntryId → Request → Part → Part)
      (hc : exec c s = s.act (requestTaken mine go .fault)) (hm : mine x.req = true) : Faults s c :=
    hc.trans (State.act_congr (requestTaken_fault ht hm go))
  have hkind {c : Instr} {k : Byte} (go : EntryId → Request → Part → Part)
      (hc : exec c s = s.act (requestTaken (·.kind = k) go .fault)) (hk : x.req.kind = k) : Faults s c :=
    hrow _ go hc (decide_eq_true hk)
  have hlanes (hlane : x.req.kind = kindLane) : Faults s (if x.req.selector = actionRetire then .retire .fault
      else if x.req.selector = actionProbe then .probe .fault else .admitLane .fault) := by
    refine iteInduction (fun hretire => ?_) fun hretire => iteInduction (fun hprobe => ?_) fun hprobe => ?_
    · exact hrow (laneRequest actionRetire) retireReceived rfl (by simp [laneRequest, hlane, hretire])
    · exact hrow (laneRequest actionProbe) probeReceived rfl (by simp [laneRequest, hlane, hprobe])
    · exact hrow (laneRequest actionAdmit) admitReceived rfl (by simp [laneRequest, hlane, hretire, hprobe])
  have hcontrols (hcontrol : x.req.kind = kindControl) : Faults s (if x.req.selector = controlStop then
      .patrolControlStop .fault else .patrolControlStart .fault) := by
    refine iteInduction (fun hstop => ?_) fun hstop => ?_
    · exact hrow (controlRequest controlStop) stopReceived rfl (by simp [controlRequest, hcontrol, hstop])
    · exact hrow (controlRequest controlStart) startReceived rfl (by simp [controlRequest, hcontrol, hstop])
  refine iteInduction (hkind readReceived rfl) fun hread => iteInduction (hkind writeReceived rfl) fun hwrite =>
    iteInduction (hkind verifyReceived rfl) fun hverify => iteInduction (hkind defineReceived rfl) fun hdefine =>
    iteInduction (hkind deleteReceived rfl) fun hdelete =>
    iteInduction (hkind (fun e _ => freezeReceived e) rfl) fun hfreeze => iteInduction hlanes fun hlane =>
    iteInduction (hkind planReceived rfl) fun hplan => iteInduction hcontrols fun hcontrol =>
    iteInduction (hkind snapshotReceived rfl) fun hsnapshot => ?_
  have hunknown : x.req.kind ∉ knownKinds := by
    simp only [knownKinds, List.mem_cons, List.not_mem_nil, hread, hwrite, hverify, hdefine, hdelete, hfreeze, hlane, hplan,
      hcontrol, hsnapshot, or_self, not_false_eq_true]
  exact hrow (fun r => !(r.kind ∈ knownKinds)) (fun e _ => refuse e .refusedKind) rfl
    (congrArg (!·) (decide_eq_false hunknown))

theorem attachHeaderWritten_fault {p : Part} (h : p.engine.attach ∈ [.tallyWrite, .writtenWrite, .lostWrite]) :
    attachHeaderWritten .fault p = enterFaulted .header p := by
  simp only [List.mem_cons, List.not_mem_nil, or_false] at h
  unfold attachHeaderWritten
  obtain h | h | h := h <;> rw [h]

/-- Settles O39: every faulted transfer acts as entry into FAULTED, whose part is read off block by block. -/
theorem faultedTransfersEnterFaulted : Obligations.FaultedTransfersEnterFaulted := by
  intro c cause s hheld p faults hfault
  have hexec : exec c s = .next (s.withPart ((p.faulted cause).mapLanes Lane.unheld)) := by
    have hcuts {f : Part → Part} {cause : FaultCause} (hf : f p = enterFaulted cause p) :
        s.act f = .next (s.withPart ((p.faulted cause).mapLanes Lane.unheld)) := State.act_faulted hheld hf
    obtain ⟨e, x, ht, rfl, rfl⟩ | ⟨own, hx, rfl, rfl⟩ | ⟨n, own, hx, rfl, rfl⟩ | ⟨e, hx, rfl, rfl⟩ | ⟨e, hx, rfl, rfl⟩
      | ⟨e, hx, rfl, rfl⟩ | ⟨hx, rfl, rfl⟩ | ⟨hx, rfl, rfl⟩ | ⟨n, hx, rfl, rfl⟩ | ⟨hx, rfl, rfl⟩ | ⟨hx, rfl, rfl⟩ := hfault
    · exact (faults_takenRow ht).trans (hcuts rfl)
    · exact hcuts (f := consumedRead none) (by simp only [consumedRead, hx])
    · exact hcuts (f := slotReadEnded none) (by simp only [slotReadEnded, hx])
    · exact hcuts (f := outcomeWritten .fault) (by simp only [outcomeWritten, hx])
    · exact hcuts (f := doneWritten .fault) (by simp only [doneWritten, hx])
    · exact hcuts (f := tallyWritten .fault) (by simp only [tallyWritten, hx])
    · exact hcuts (f := entryWritten .fault) (by simp only [entryWritten, hx])
    · exact hcuts (f := writtenCountWritten .fault) (by simp only [writtenCountWritten, hx])
    · exact hcuts (f := lostCountWritten .fault) (by simp only [lostCountWritten, hx])
    · exact hcuts (f := rereadEnded none) (by simp only [rereadEnded, hx])
    · exact hcuts (attachHeaderWritten_fault hx)
  refine ⟨_, hexec, rfl, rfl, rfl, rfl, fun e => ?_, rfl, rfl, rfl, fun b hb => ?_, fun l => ?_, rfl, rfl, rfl, rfl, rfl,
    fun hab => Rebuild.cut_of_not_aborting hab, rfl⟩
  · exact Vector.getElem_replicate ..
  · have hnone : b ∈ (Vector.replicate 64 (none : Option Holder)).toList := hb
    rw [Vector.toList_replicate] at hnone
    exact List.eq_of_mem_replicate hnone
  · have hlane : ((p.faulted cause).mapLanes Lane.unheld).lane l = (p.lane l).cut.unheld :=
      (Part.lane_mapLanes _ _ _).trans (congrArg Lane.unheld (Part.lane_mapLanes p Lane.cut l))
    exact hlane.trans (Lane.cut_unheld (hheld l))

end Sys2Proof.Machine
end

section
/-!
Assembly: the governing record and the part loaded from it (R69 to R73, R149, R150).
-/
namespace Sys2Proof.Machine

/-! ## The governing record (R69) -/

section
variable {p : Part} {l : LaneId} {r : SetRecord} {ls : List LaneId}

theorem Part.candidate_eq_some : p.candidate l = some r ↔
    (p.lane l).identified = true ∧ p.committer.newest[l.val] = some r ∧ r.position = l := by
  unfold Part.candidate
  split
  · next h => simp [h, Option.filter_eq_some_iff]
  · next h => simp [h]

/-- The lane has the record of highest generation among these lanes, and no lower lane has one of its generation. -/
def Part.Governs (p : Part) (ls : List LaneId) (l : LaneId) (r : SetRecord) : Prop :=
  p.candidate l = some r ∧ ∀ k ∈ ls, ∀ x, p.candidate k = some x →
    x.generation.toNat ≤ r.generation.toNat ∧ (k < l → x.generation.toNat < r.generation.toNat)

theorem Part.governing_cons_none (h : p.candidate l = none) : p.governing (l :: ls) = p.governing ls := by
  simp only [Part.governing, h]

theorem Part.governing_cons_alone (h : p.candidate l = some r) (hg : p.governing ls = none) :
    p.governing (l :: ls) = some (l, r) := by
  simp only [Part.governing, h, hg]

theorem Part.governing_cons_some (h : p.candidate l = some r) {m : LaneId} {x : SetRecord} (hg : p.governing ls = some (m, x)) :
    p.governing (l :: ls) = if r.generation.toNat < x.generation.toNat then some (m, x) else some (l, r) := by
  simp only [Part.governing, h, hg]

theorem Part.governing_eq_none : p.governing ls = none ↔ ∀ k ∈ ls, p.candidate k = none := by
  induction ls with
  | nil => simp [Part.governing]
  | cons l ls ih =>
    rw [List.forall_mem_cons, ← ih]
    cases hc : p.candidate l with
    | none => simp [Part.governing_cons_none hc]
    | some r =>
      cases hg : p.governing ls with
      | none => simp [Part.governing_cons_alone hc hg]
      | some y =>
        rw [Part.governing_cons_some hc hg]
        split <;> simp

/-- The choice falls on one of the lanes, and it governs them. -/
theorem Part.governing_governs (hls : ls.Pairwise (· < ·)) (h : p.governing ls = some (l, r)) :
    l ∈ ls ∧ p.Governs ls l r := by
  induction ls generalizing l r with
  | nil => simp [Part.governing] at h
  | cons m ls ih =>
    obtain ⟨hm, hsorted⟩ := List.pairwise_cons.1 hls
    cases hc : p.candidate m with
    | none =>
      rw [Part.governing_cons_none hc] at h
      obtain ⟨hl, hr, hbest⟩ := ih hsorted h
      refine ⟨List.mem_cons_of_mem m hl, hr, List.forall_mem_cons.2 ⟨fun x hx => ?_, hbest⟩⟩
      rw [hc] at hx
      contradiction
    | some c =>
      cases hg : p.governing ls with
      | none =>
        rw [Part.governing_cons_alone hc hg] at h
        obtain ⟨rfl, rfl⟩ := Prod.mk.inj (Option.some.inj h)
        refine ⟨List.mem_cons_self, hc, List.forall_mem_cons.2 ⟨fun x hx => ?_, fun k hk x hx => ?_⟩⟩
        · obtain rfl := Option.some.inj (hc.symm.trans hx)
          exact ⟨le_rfl, fun hlt => absurd hlt (lt_irrefl _)⟩
        · rw [Part.governing_eq_none.1 hg k hk] at hx
          contradiction
      | some y =>
        obtain ⟨hl, hr, hbest⟩ := ih hsorted hg
        rw [Part.governing_cons_some hc hg] at h
        split at h
        · next hlt =>
          obtain ⟨rfl, rfl⟩ := Prod.mk.inj (Option.some.inj h)
          refine ⟨List.mem_cons_of_mem m hl, hr, List.forall_mem_cons.2 ⟨fun x hx => ?_, hbest⟩⟩
          obtain rfl := Option.some.inj (hc.symm.trans hx)
          exact ⟨hlt.le, fun _ => hlt⟩
        · next hge =>
          obtain ⟨rfl, rfl⟩ := Prod.mk.inj (Option.some.inj h)
          refine ⟨List.mem_cons_self, hc, List.forall_mem_cons.2 ⟨fun x hx => ?_, fun k hk x hx => ?_⟩⟩
          · obtain rfl := Option.some.inj (hc.symm.trans hx)
            exact ⟨le_rfl, fun hlt => absurd hlt (lt_irrefl _)⟩
          · exact ⟨(hbest k hk x hx).1.trans (Nat.le_of_not_lt hge), fun hlt => absurd hlt (hm k hk).asymm⟩

/-- No two lanes govern. -/
theorem Part.Governs.unique (h : p.Governs ls l r) (hl : l ∈ ls) {m : LaneId} {x : SetRecord} (g : p.Governs ls m x)
    (hm : m ∈ ls) : l = m ∧ r = x := by
  obtain ⟨hr, hbest⟩ := h
  obtain ⟨hx, gbest⟩ := g
  have hle := (hbest m hm x hx).1
  have gle := (gbest l hl r hr).1
  obtain hlt | rfl | hlt := lt_trichotomy l m
  · exact absurd ((gbest l hl r hr).2 hlt) (Nat.not_lt.2 hle)
  · exact ⟨rfl, Option.some.inj (hr.symm.trans hx)⟩
  · exact absurd ((hbest m hm x hx).2 hlt) (Nat.not_lt.2 gle)

theorem allLanes_pairwise : allLanes.Pairwise (· < ·) := by decide

theorem Part.governing_eq_some : p.governing allLanes = some (l, r) ↔ p.Governs allLanes l r := by
  refine ⟨fun h => (Part.governing_governs allLanes_pairwise h).2, fun h => ?_⟩
  cases hg : p.governing allLanes with
  | none => exact absurd (h.1.symm.trans (Part.governing_eq_none.1 hg l (mem_allLanes l))) (by simp)
  | some y =>
    obtain ⟨hm, hy⟩ := Part.governing_governs allLanes_pairwise hg
    obtain ⟨rfl, rfl⟩ := h.unique (mem_allLanes l) hy hm
    rfl

end

/-! ## The volume table loaded (R2, R71) -/

/-- Changes of different volumes, each by what the volume held before. -/
theorem foldl_setVol {α : Type} {step : Part → α → Part} {key : α → VolId} {f : α → Volume} {xs : List α}
    (hxs : (xs.map key).Nodup) {p : Part}
    (h : ∀ vs, ∀ x ∈ xs, ({ p with volumes := vs } : Part).vol (key x) = p.vol (key x) →
      step { p with volumes := vs } x = ({ p with volumes := vs } : Part).setVol (key x) (f x)) :
    ∃ vs, xs.foldl step p = { p with volumes := vs } ∧ (∀ x ∈ xs, ({ p with volumes := vs } : Part).vol (key x) = f x)
      ∧ ∀ v ∉ xs.map key, ({ p with volumes := vs } : Part).vol v = p.vol v := by
  induction xs generalizing p with
  | nil => exact ⟨p.volumes, rfl, nofun, fun _ _ => rfl⟩
  | cons x xs ih =>
    obtain ⟨hx, hnodup⟩ := List.nodup_cons.1 hxs
    have hother {v : VolId} (hv : key x ≠ v) : (p.setVol (key x) (f x)).vol v = p.vol v := by
      rw [Part.vol_setVol, if_neg hv]
    obtain ⟨vs, hfold, hin, hout⟩ := ih hnodup (p := p.setVol (key x) (f x)) fun vs y hy hvol =>
      h vs y (List.mem_cons_of_mem x hy) (hvol.trans (hother fun hxy => hx (hxy ▸ List.mem_map_of_mem hy)))
    refine ⟨vs, ?_, List.forall_mem_cons.2 ⟨?_, hin⟩, fun v hv => ?_⟩
    · rw [List.foldl_cons, show step p x = p.setVol (key x) (f x) from h p.volumes x List.mem_cons_self rfl]
      exact hfold
    · exact (hout _ hx).trans (by rw [Part.vol_setVol, if_pos rfl])
    · rw [List.map_cons, List.mem_cons, not_or] at hv
      exact (hout v hv.2).trans (hother (Ne.symm hv.1))

/-- The part with the volumes of a record entered, before their states are derived. -/
def Part.entered (p : Part) (xs : List VolumeEntry) : Part := xs.foldl (fun q x => q.setVol x.number x.volume) p

/-- The volumes entered are in use, whichever entry of a number stands (log 11). -/
theorem Part.entered_inUse (xs : List VolumeEntry) (p : Part) : ∃ vs, p.entered xs = { p with volumes := vs }
    ∧ ∀ v, ((p.entered xs).vol v).inUse = true ↔ v ∈ xs.map (·.number) ∨ (p.vol v).inUse = true := by
  induction xs generalizing p with
  | nil => exact ⟨p.volumes, rfl, fun v => by simp [Part.entered]⟩
  | cons x xs ih =>
    obtain ⟨vs, hfold, hiff⟩ := ih (p.setVol x.number x.volume)
    refine ⟨vs, hfold, fun v => (hiff v).trans ?_⟩
    rw [Part.vol_setVol, List.map_cons, List.mem_cons]
    by_cases hv : x.number = v
    · simp [hv, VolumeEntry.volume]
    · simp [hv, Ne.symm hv]

/-- A volume with its state derived, if it is in use. -/
def Part.derivedVol (p : Part) (v : VolId) : Volume :=
  if (p.vol v).inUse then { p.vol v with state := p.derivedState v } else p.vol v

/-- Loading enters the volumes and then derives the state of each. -/
theorem loadVolumes_eq (xs : List VolumeEntry) (p : Part) : ∃ vs, loadVolumes xs p = { p with volumes := vs }
    ∧ ∀ v, (loadVolumes xs p).vol v = (p.entered xs).derivedVol v := by
  obtain ⟨us, hentered, -⟩ := Part.entered_inUse xs p
  obtain ⟨vs, hfold, hin, -⟩ := foldl_setVol (key := id) (f := (p.entered xs).derivedVol) (xs := allVols) (p := p.entered xs)
    (step := fun q v => if (q.vol v).inUse then q.modVol v fun x => { x with state := q.derivedState v } else q) (by decide)
    fun vs v _ hvol => by
      have hstate : ({ p.entered xs with volumes := vs } : Part).derivedState v = (p.entered xs).derivedState v :=
        Part.derivedState_congr (congrArg Volume.members hvol) fun _ => rfl
      have hvol : ({ p.entered xs with volumes := vs } : Part).vol v = (p.entered xs).vol v := hvol
      simp only [Part.modVol, hvol, hstate, Part.derivedVol, id]
      split
      · rfl
      · rw [← hvol, Part.setVol_vol_self]
  have hload : loadVolumes xs p = { p.entered xs with volumes := vs } := hfold
  refine ⟨vs, by rw [hload, hentered], fun v => ?_⟩
  rw [hload]
  exact hin v (mem_allVols v)

theorem loadVolumes_derivedState (xs : List VolumeEntry) (p : Part) (v : VolId) :
    (loadVolumes xs p).derivedState v = (p.entered xs).derivedState v := by
  obtain ⟨us, hentered, -⟩ := Part.entered_inUse xs p
  obtain ⟨vs, hload, hvol⟩ := loadVolumes_eq xs p
  refine Part.derivedState_congr ?_ fun l => ?_
  · rw [hvol, Part.derivedVol]
    split <;> rfl
  · rw [hload, hentered]
    rfl

theorem loadVolumes_inUse (xs : List VolumeEntry) (p : Part) (v : VolId) :
    ((loadVolumes xs p).vol v).inUse = true ↔ v ∈ xs.map (·.number) ∨ (p.vol v).inUse = true := by
  obtain ⟨-, -, hentered⟩ := Part.entered_inUse xs p
  obtain ⟨-, -, hvol⟩ := loadVolumes_eq xs p
  rw [← hentered, hvol, Part.derivedVol]
  split <;> rfl

section
variable {xs : List VolumeEntry} {p : Part} (hxs : (xs.map (·.number)).Nodup)
include hxs

/-- Where no number is repeated, each entry gives its volume, in its derived state. -/
theorem loadVolumes_vol {x : VolumeEntry} (hx : x ∈ xs) : (loadVolumes xs p).vol x.number =
    { x.volume with state := (loadVolumes xs p).derivedState x.number } := by
  obtain ⟨us, hfold, hin, -⟩ := foldl_setVol (step := fun q (x : VolumeEntry) => q.setVol x.number x.volume)
    (f := VolumeEntry.volume) hxs (p := p) fun _ _ _ _ => rfl
  obtain ⟨-, -, hvol⟩ := loadVolumes_eq xs p
  have hentered : (p.entered xs).vol x.number = x.volume := (congrArg (Part.vol · x.number) hfold).trans (hin x hx)
  rw [hvol, Part.derivedVol, hentered, if_pos (show x.volume.inUse = true from rfl),
    loadVolumes_derivedState]

/-- Other volumes not in use stay as they are. -/
theorem loadVolumes_vol_other {v : VolId} (hv : v ∉ xs.map (·.number)) (hu : (p.vol v).inUse = false) :
    (loadVolumes xs p).vol v = p.vol v := by
  obtain ⟨us, hfold, -, hout⟩ := foldl_setVol (step := fun q (x : VolumeEntry) => q.setVol x.number x.volume)
    (f := VolumeEntry.volume) hxs (p := p) fun _ _ _ _ => rfl
  obtain ⟨-, -, hvol⟩ := loadVolumes_eq xs p
  have hentered : (p.entered xs).vol v = p.vol v := (congrArg (Part.vol · v) hfold).trans (hout v hv)
  rw [hvol, Part.derivedVol, hentered, if_neg (Bool.eq_false_iff.1 hu)]

end

/-! ## The part loaded (R70, R71, R149, R150) -/

/-- The part with its lanes and committer loaded from a record, before its volumes. -/
def Part.lanesLoaded (p : Part) (g : SetRecord) : Part :=
  { p with
    lanes := Vector.ofFn fun l : Fin 4 => p.assembledLane g l
    committer := { p.committer with
      serial := g.serial
      generation := g.generation
      clean := false
      fresh := .replicate 4 false } }

/-- The volumes in use of the part loaded, in ascending order. -/
def Part.volumesLoaded (p : Part) (g : SetRecord) : List VolId :=
  allVols.filter fun v => ((loadVolumes g.volumes (p.lanesLoaded g)).vol v).inUse

/-- The patrol unit set from a record (R149). -/
abbrev SetRecord.patrolUnit (g : SetRecord) : Patrol := .assembled g.plan g.patrol g.checkpoint

section
variable (p : Part) (g : SetRecord)

theorem loadSet_eq : loadSet g p = { loadVolumes g.volumes (p.lanesLoaded g) with
    patrol := if !g.clean && !(p.volumesLoaded g).isEmpty then g.patrolUnit.recover (p.volumesLoaded g) else g.patrolUnit } :=
  rfl

theorem loadSet_vol (v : VolId) : (loadSet g p).vol v = (loadVolumes g.volumes (p.lanesLoaded g)).vol v := by
  rw [loadSet_eq, Part.vol_mk]

theorem loadSet_derivedState (v : VolId) :
    (loadSet g p).derivedState v = (loadVolumes g.volumes (p.lanesLoaded g)).derivedState v := by
  refine Part.derivedState_congr (congrArg Volume.members (loadSet_vol p g v)) fun l => ?_
  rw [loadSet_eq, Part.online_mk]

theorem loadSet_lane (l : LaneId) : (loadSet g p).lane l = p.assembledLane g l := by
  obtain ⟨vs, hload, -⟩ := loadVolumes_eq g.volumes (p.lanesLoaded g)
  rw [loadSet_eq, hload]
  exact Vector.getElem_ofFn _

theorem loadSet_committer : (loadSet g p).committer = { p.committer with
    serial := g.serial, generation := g.generation, clean := false, fresh := .replicate 4 false } := by
  obtain ⟨vs, hload, -⟩ := loadVolumes_eq g.volumes (p.lanesLoaded g)
  rw [loadSet_eq, hload]
  rfl

variable {p g}

/-- Where no number is repeated, each volume entry gives its volume. -/
theorem loadSet_vol_entry (hn : (g.volumes.map (·.number)).Nodup) {x : VolumeEntry} (hx : x ∈ g.volumes) :
    (loadSet g p).vol x.number = { x.volume with state := (loadSet g p).derivedState x.number } := by
  rw [loadSet_vol, loadVolumes_vol hn hx, loadSet_derivedState]

/-- A volume that no entry names, not in use before, stays as it is. -/
theorem loadSet_vol_other (hn : (g.volumes.map (·.number)).Nodup) {v : VolId} (hv : v ∉ g.volumes.map (·.number))
    (hu : (p.vol v).inUse = false) : (loadSet g p).vol v = p.vol v :=
  (loadSet_vol p g v).trans (loadVolumes_vol_other hn hv hu)

variable (hp : ∀ v, (p.vol v).inUse = false)
include hp

theorem Part.volumesLoaded_eq : p.volumesLoaded g = allVols.filter fun v => v ∈ g.volumes.map (·.number) := by
  refine List.filter_congr fun v _ => Bool.eq_iff_iff.2 ?_
  rw [loadVolumes_inUse, decide_eq_true_eq]
  exact or_iff_left (Bool.eq_false_iff.1 (hp v))

theorem loadSet_patrol_unclean (hc : g.clean = false) (hv : g.volumes ≠ []) :
    (loadSet g p).patrol = g.patrolUnit.recover (allVols.filter fun v => v ∈ g.volumes.map (·.number)) := by
  obtain ⟨x, hx⟩ := List.exists_mem_of_ne_nil _ hv
  have hne : (allVols.filter fun v => v ∈ g.volumes.map (·.number)).isEmpty = false := by
    refine List.isEmpty_eq_false_iff_exists_mem.2 ⟨x.number, List.mem_filter.2 ⟨mem_allVols _, decide_eq_true ?_⟩⟩
    exact List.mem_map_of_mem hx
  rw [loadSet_eq, Part.volumesLoaded_eq hp]
  exact if_pos (by rw [hc, hne]; rfl)

theorem loadSet_patrol_clean (h : g.clean = true ∨ g.volumes = []) : (loadSet g p).patrol = g.patrolUnit := by
  rw [loadSet_eq]
  refine if_neg ?_
  obtain hc | hv := h
  · simp [hc]
  · simp [Part.volumesLoaded_eq hp, hv]

end

/-- The patrol unit that a record sets, by the state recorded and whether its checkpoint is usable (R149). -/
theorem Patrol.assembled_eq (plan : Option Plan) (recorded : PatrolState) (k : Checkpoint) (base : Patrol)
    (hb : base = { Patrol.reset with
      plan := plan, checkpoint := k, pass := k.pass, holdoff := (plan.map (·.holdoff)).getD 0 }) :
    Patrol.assembled plan recorded k =
      if recorded = .idle then base
      else if recorded = .done then { base with state := .done }
      else if usableCheckpoint plan k = false then base
      else if recorded = .resting then { base with state := .holdoff, pass := k.pass + 1 }
      else { base with state := .holdoff, span := k.span, offset := k.offset } := by
  subst hb
  cases recorded <;> cases hu : usableCheckpoint plan k <;> simp [Patrol.assembled, hu]

theorem SetRecord.patrolUnit_marker (g : SetRecord) : g.patrolUnit.marker = false := by
  rw [SetRecord.patrolUnit, Patrol.assembled_eq _ _ _ _ rfl]
  split_ifs <;> rfl

/-! ## Assembly (R68, R72, R73) -/

/-- The part with the ASSEMBLY event passed and the first commit requested. -/
def Part.assemblyReported (p : Part) (l : Option LaneId) (cause : Byte) : Part :=
  requestCommit ((passEvent (assemblyEvent l cause (allLanes.map fun k => (p.lane k).runtime) p.committer.generation) p).modEngine
    fun g => { g with attach := .firstCommits, mark := .waiting })

theorem assemble_identifying {p : Part} {l : LaneId} (h : (p.lane l).runtime = .identifying) : assemble p = p := by
  have hwaits : (decide (p.engine.state ≠ .attaching) || decide (p.engine.attach ≠ .identifying)
      || allLanes.any fun l => (p.lane l).runtime = .identifying) = true := by
    rw [List.any_eq_true.2 ⟨l, mem_allLanes l, decide_eq_true h⟩, Bool.or_true]
  unfold assemble
  rw [if_pos hwaits]

section
variable {p : Part} (hs : p.engine.state = .attaching) (ha : p.engine.attach = .identifying)
  (hi : ∀ l, (p.lane l).runtime ≠ .identifying)
include hs ha hi

theorem assemble_takes : ¬ (decide (p.engine.state ≠ .attaching) || decide (p.engine.attach ≠ .identifying)
    || allLanes.any fun l => (p.lane l).runtime = .identifying) = true := by
  simp [hs, ha, hi]

theorem assemble_none (hg : p.governing allLanes = none) : assemble p = p.assemblyReported none assemblyEmpty := by
  unfold assemble
  rw [if_neg (assemble_takes hs ha hi), hg]
  rfl

theorem assemble_some {l : LaneId} {r : SetRecord} (hg : p.governing allLanes = some (l, r)) :
    assemble p = (loadSet r p).assemblyReported (some l)
      (if (loadSet r p).patrol.marker then assemblyUnclean else assemblyClean) := by
  unfold assemble
  rw [if_neg (assemble_takes hs ha hi), hg]
  simp only [Option.map_some, assemblyCause, Part.assemblyReported]

section
variable {l : LaneId} {r : SetRecord} (hg : p.governing allLanes = some (l, r)) (hv : ∀ v, (p.vol v).inUse = false)
include hg hv

/-- The set was not closed: the recovery pass is to follow (R72, R150). -/
theorem assemble_unclean (hc : r.clean = false) (hr : r.volumes ≠ []) :
    assemble p = (loadSet r p).assemblyReported (some l) assemblyUnclean := by
  have hmarker : (loadSet r p).patrol.marker = true := by
    rw [loadSet_patrol_unclean hv hc hr]
    rfl
  rw [assemble_some hs ha hi hg, if_pos hmarker]

theorem assemble_clean (h : r.clean = true ∨ r.volumes = []) :
    assemble p = (loadSet r p).assemblyReported (some l) assemblyClean := by
  have hmarker : (loadSet r p).patrol.marker = false := by
    rw [loadSet_patrol_clean hv h]
    exact r.patrolUnit_marker
  rw [assemble_some hs ha hi hg, if_neg (Bool.eq_false_iff.1 hmarker)]

end

end

end Sys2Proof.Machine
end

section
/-!
The ATTACH header writes, identification in ATTACHING, and the assembly of the empty set (R33, R68, R69, R73, R167, R188).
-/
namespace Sys2Proof.Machine

/-! ## The header writes (R167, R188) -/

section
variable {s : State} (ha : s.part.agenda = []) (hs : s.part.engine.state = .attaching)
include ha hs

/-- A header write that is not the last is followed by the next one. -/
theorem exec_attachHeaderWrite_next {a : AttachStep}
    (h : attachHeaderWritten .done s.part = s.part.modEngine fun g => { g with attach := a }) :
    exec (.attachHeaderWrite .done) s = .next (s.withPart { s.part with engine := { s.part.engine with attach := a } }) :=
  State.act_of_eq h ⟨ha, Part.haltTested_of_state (by
    show s.part.engine.state ≠ .halting
    rw [hs]
    decide)⟩

end

theorem attachHeaderWritten_tally {p : Part} (h : p.engine.attach = .tallyWrite) :
    attachHeaderWritten .done p = p.modEngine fun g => { g with attach := .writtenWrite } := by
  unfold attachHeaderWritten
  rw [h]

theorem attachHeaderWritten_written {p : Part} (h : p.engine.attach = .writtenWrite) :
    attachHeaderWritten .done p = p.modEngine fun g => { g with attach := .lostWrite } := by
  unfold attachHeaderWritten
  rw [h]

theorem attachHeaderWritten_lost {p : Part} (h : p.engine.attach = .lostWrite) :
    attachHeaderWritten .done p = assemblyBegin p := by
  unfold attachHeaderWritten
  rw [h]

/-- The header write in hand writes 0 in four bytes (R167). -/
theorem attachWrite_eq {p : Part} : p.attachWrite =
    if p.engine.attach = .tallyWrite then some (p.engine.base.toNat + 64, [0, 0, 0, 0])
    else if p.engine.attach = .writtenWrite then some (p.engine.base.toNat + 68, [0, 0, 0, 0])
    else if p.engine.attach = .lostWrite then some (p.engine.base.toNat + 72, [0, 0, 0, 0])
    else none := by
  unfold Part.attachWrite
  cases p.engine.attach <;> rfl

/-! ## Assembly begins (R33, R68) -/

/-- The lane as assembly begins: nothing held, and noted absent without presence. -/
def Lane.noted (L : Lane) : Lane := { L with held := false, fell := false, absent := !L.present }

/-- The lane with its identification begun, the line free (R32). -/
def Lane.identifies (L : Lane) : Lane :=
  { L with runtime := .identifying, identification := some .ident }.begin .ident

/-- What the begin of assembly makes of a lane. -/
def Lane.assembling (L : Lane) : Lane := if L.present then L.noted.identifies else L.noted

theorem Lane.assembling_present (L : Lane) : L.assembling.present = L.present := by
  unfold Lane.assembling
  split <;> rfl

/-- The begin of assembly on one lane. -/
def assemblyStart (q : Part) (l : LaneId) : Part :=
  if ((q.modLane l Lane.noted).lane l).present then beginIdentify l (q.modLane l Lane.noted) else q.modLane l Lane.noted

theorem assemblyBegin_eq (p : Part) : assemblyBegin p =
    (allLanes.foldl assemblyStart (p.modEngine fun g => { g with attach := .identifying })).push [.assemble] := rfl

theorem Part.lane_modLane_same (p : Part) (l : LaneId) (f : Lane → Lane) : (p.modLane l f).lane l = f (p.lane l) := by
  rw [Part.lane_modLane, if_pos rfl]

theorem assemblyStart_absent {p : Part} {l : LaneId} (h : (p.lane l).present = false) :
    assemblyStart p l = p.setLane l (p.lane l).noted := by
  unfold assemblyStart
  rw [Part.lane_modLane_same]
  exact if_neg (Bool.eq_false_iff.1 h)

theorem assemblyStart_present {p : Part} {l : LaneId} (h : (p.lane l).present = true) :
    assemblyStart p l = beginIdentify l (p.setLane l (p.lane l).noted) := by
  unfold assemblyStart
  rw [Part.lane_modLane_same]
  exact if_pos h

/-- With the line free IDENT is sent at once; deriving the volumes anew passes no further than their table and the journal. -/
theorem beginIdentify_eq {p : Part} {l : LaneId} (h : (p.lane l).hold = false) : ∃ vs j,
    beginIdentify l p =
      ({ p.setLane l (p.lane l).identifies with volumes := vs, journal := j } : Part).push [.patrolTry] := by
  set x : Lane := { p.lane l with runtime := .identifying } with hx
  obtain ⟨vs, j, hderive⟩ := deriveVolumes_eq l 0 (p.setLane l x)
  set y : Lane := { x with identification := some .ident } with hy
  have hbegun : (setRuntimeQuietly l .identifying p).modLane l (fun L => { L with identification := some .ident }) =
      ({ p.setLane l y with volumes := vs, journal := j } : Part).push [.patrolTry] := by
    have hquiet : setRuntimeQuietly l .identifying p =
        ({ p.setLane l x with volumes := vs, journal := j } : Part).push [.patrolTry] := congrArg (Part.push · _) hderive
    rw [hquiet, hy, ← Part.setLane_modLane p l x fun L => { L with identification := some .ident }]
    rfl
  have hhold : (({ p.setLane l y with volumes := vs, journal := j } : Part).push [.patrolTry]).lane l = y :=
    (Part.lane_setLane p l l y).trans (if_pos rfl)
  have hsend : (({ p.setLane l y with volumes := vs, journal := j } : Part).push [.patrolTry]).modLane l (·.begin .ident) =
      ({ (p.setLane l y).modLane l (·.begin .ident) with volumes := vs, journal := j } : Part).push [.patrolTry] := rfl
  refine ⟨vs, j, ?_⟩
  unfold beginIdentify
  dsimp only
  rw [hbegun, hhold, if_neg (Bool.eq_false_iff.1 (show y.hold = false from h)), beginTxn, hsend, Part.setLane_modLane]
  rfl

/-- The begin of assembly on a lane whose line is free hands on at most a test of patrol's. -/
theorem assemblyStart_eq {p : Part} {l : LaneId} (h : (p.lane l).hold = false) : ∃ vs j n, n ≤ 1 ∧ assemblyStart p l =
    ({ p.setLane l (p.lane l).assembling with volumes := vs, journal := j } : Part).push (List.replicate n .patrolTry) := by
  unfold Lane.assembling
  cases hp : (p.lane l).present with
  | false => exact ⟨p.volumes, p.journal, 0, Nat.zero_le 1, (assemblyStart_absent hp).trans (Part.push_nil _).symm⟩
  | true =>
    have hlane : (p.setLane l (p.lane l).noted).lane l = (p.lane l).noted := (Part.lane_setLane ..).trans (if_pos rfl)
    obtain ⟨vs, j, hbegin⟩ := beginIdentify_eq (p := p.setLane l (p.lane l).noted) (l := l) (by rw [hlane]; exact h)
    rw [hlane, Part.setLane_setLane] at hbegin
    exact ⟨vs, j, 1, le_rfl, (assemblyStart_present hp).trans hbegin⟩

/-- Assembly begun on several lanes, in turn. -/
theorem foldl_assemblyStart {ls : List LaneId} (hls : ls.Nodup) {p : Part} (h : ∀ l ∈ ls, (p.lane l).hold = false) :
    ∃ vs j n, n ≤ ls.length ∧ ls.foldl assemblyStart p =
      ({ p.updateLanes ls (fun _ => Lane.assembling) with volumes := vs, journal := j } : Part).push
        (List.replicate n .patrolTry) := by
  induction ls generalizing p with
  | nil =>
    refine ⟨p.volumes, p.journal, 0, le_rfl, ?_⟩
    rw [Part.updateLanes_nil]
    exact (Part.push_nil _).symm
  | cons l ls ih =>
    obtain ⟨hl, hnodup⟩ := List.nodup_cons.1 hls
    obtain ⟨vs, j, n, hn, hstart⟩ := assemblyStart_eq (h l List.mem_cons_self)
    set q := p.setLane l (p.lane l).assembling with hq
    have hfree : ∀ k ∈ ls, ((({ q with volumes := vs, journal := j } : Part).push
        (List.replicate n .patrolTry)).lane k).hold = false := by
      intro k hk
      have hother : q.lane k = p.lane k := by rw [hq, Part.lane_setLane, if_neg fun hlk : l = k => hl (hlk ▸ hk)]
      show (q.lane k).hold = false
      rw [hother]
      exact h k (List.mem_cons_of_mem l hk)
    obtain ⟨vs', j', n', hn', hfold⟩ := ih hnodup hfree
    refine ⟨vs', j', n + n', ?_, ?_⟩
    · rw [List.length_cons]
      omega
    · rw [List.foldl_cons, hstart, hfold, Part.updateLanes_cons p _ hl, List.replicate_add]
      exact Part.push_append { q.updateLanes ls (fun _ => Lane.assembling) with volumes := vs', journal := j' } _ _

theorem taken_patrolTries {q : Part} (ha : q.agenda = []) (hs : q.engine.state ≠ .running) (n : Nat) :
    Taken q (List.replicate n .patrolTry) q := by
  induction n with
  | zero => exact .nil q
  | succ n ih => exact .cons (fun us => patrolTry_notRunning (p := q.push us) hs) ha ih

/-- With a lane present and every line free, the step ends with the lanes present identifying. -/
theorem exec_lostWrite_identifies {s : State} (ha : s.part.agenda = []) (hs : s.part.engine.state = .attaching)
    (hat : s.part.engine.attach = .lostWrite) (hp : ∃ l, (s.part.lane l).present = true)
    (hf : ∀ l, (s.part.lane l).hold = false) :
    ∃ t : State, exec (.attachHeaderWrite .done) s = .next t
      ∧ t.part.engine = { s.part.engine with attach := .identifying }
      ∧ ∀ l, t.part.lane l = (s.part.lane l).assembling := by
  set p := s.part.modEngine fun g => { g with attach := .identifying }
  obtain ⟨vs, j, n, hn, hfold⟩ := foldl_assemblyStart (p := p) allLanes_nodup fun l _ => hf l
  rw [Part.updateLanes_all] at hfold
  set q : Part := { p.mapLanes Lane.assembling with volumes := vs, journal := j }
  have hlane (l : LaneId) : q.lane l = (s.part.lane l).assembling := Part.lane_mapLanes p Lane.assembling l
  have hstate : q.engine.state = .attaching := hs
  obtain ⟨l, hl⟩ := hp
  have hidentifies : (q.lane l).runtime = .identifying := by
    rw [hlane, Lane.assembling, if_pos hl]
    rfl
  have htasks : Taken q (List.replicate n .patrolTry ++ [.assemble]) q :=
    (taken_patrolTries (q := q) ha (by rw [hstate]; decide) n).append
      (.single (q := q) (fun us => assemble_identifying (p := q.push us) hidentifies) ha)
  have heffect : attachHeaderWritten .done s.part = q.push (List.replicate n .patrolTry ++ [.assemble]) := by
    rw [attachHeaderWritten_lost hat, assemblyBegin_eq, hfold]
    exact Part.push_append ..
  have hlength : (List.replicate n Task.patrolTry ++ [Task.assemble]).length ≤ 65536 := by
    have hlanes : allLanes.length = 4 := rfl
    rw [List.length_append, List.length_replicate, List.length_singleton]
    omega
  refine ⟨s.withPart q, (State.act_eq _ s).trans ?_, rfl, hlane⟩
  rw [act_taken heffect ha hlength htasks (Part.haltTested_of_state (by rw [hstate]; decide))]

/-! ## The empty set (R69, R73) -/

/-- With no lane, no volume and no request, a commit starts and finishes at once, and engine control goes on (R59, R62). -/
theorem startCommit_empty {p : Part} (hl : ∀ l, p.serviceable l = false) (he : ∀ e, p.entry e = none)
    (hv : ∀ v, p.vol v = .clear) (hc : p.committer = .reset) (hr : p.repair = .reset) (hb : p.rebuild = .reset) :
    startCommit p = ({ p with engine := { p.engine with mark := p.engine.mark.bind.release } } : Part).push [.commitDone] := by
  have hwork : p.commitBound.NoWork := Part.commitBound_noWork ⟨he, by rw [hr]; rfl, by rw [hb]; rfl⟩
  have hbound (v : VolId) : p.commitBound.vol v = .clear :=
    (Part.vol_mapVolumes _ Volume.bindHold v).trans (congrArg Volume.bindHold (hv v))
  have hnone : p.commitBound.boundVolumes = [] :=
    List.filter_eq_nil_iff.2 fun v _ => by simp [hbound, Volume.clear]
  have hvolumes : p.commitBound.commitReleased.volumes = p.volumes := by
    refine Vector.ext fun i hi => ?_
    have hi' : p.volumes[i] = .clear := hv ⟨i, hi⟩
    have hreleased : p.commitBound.commitReleased.vol ⟨i, hi⟩ = .clear :=
      (Part.vol_mapVolumes _ Volume.releaseHold ⟨i, hi⟩).trans (congrArg Volume.releaseHold (hbound ⟨i, hi⟩))
    exact hreleased.trans hi'.symm
  have htable : p.commitBound.commitReleased.table = p.table := by
    refine Vector.ext fun i hi => ?_
    have hi' : p.table[i] = none := he ⟨i, hi⟩
    have hreleased : p.commitBound.commitReleased.entry ⟨i, hi⟩ = none :=
      (Part.entry_mapTable _ Entry.releaseMark ⟨i, hi⟩).trans (congrArg (Option.map _) (hwork.table ⟨i, hi⟩))
    exact hreleased.trans hi'.symm
  have hcommitter : p.commitBound.commitReleased.committer = p.committer := by
    rw [hc]
    show ({ p.commitStarted with inFlight := none, buffers := .replicate 4 none } : Committer) = _
    simp only [Part.commitStarted, Committer.nextGeneration, hc]
    rfl
  have hreleased : p.commitBound.commitReleased =
      { p with engine := { p.engine with mark := p.engine.mark.bind.release } } := by
    show ({ p with
      engine := { p.engine with mark := p.engine.mark.bind.release }
      volumes := p.commitBound.commitReleased.volumes
      table := p.commitBound.commitReleased.table
      committer := p.commitBound.commitReleased.committer } : Part) = _
    rw [hvolumes, htable, hcommitter]
  rw [startCommit_noTarget hl, releaseCommit_noWork hwork, hnone, hreleased]
  rfl

theorem Lane.unheld_eq {L : Lane} (h : L.held = false) (hf : L.fell = false) : L.unheld = { L with absent := false } := by
  obtain ⟨⟩ := L
  subst h hf
  rfl

/-- The part RUNNING for the first time, before its units take up their work. -/
def Part.begunRunning (p : Part) : Part :=
  { p.mapLanes Lane.unheld with
    engine := { p.engine with state := .running, attach := .idle }
    docket := { p.docket.startPoll.sweeping with xfer := some (.consumedRead true) } }

/-- Entry into RUNNING with no change held on a lane and no patrol timer that is over. -/
theorem enterRunning_eq {p : Part} (hd : p.docket.sweep = none) (hx : p.docket.xfer = none) (hc : p.docket.completions = [])
    (hh : ∀ l, (p.lane l).held = false ∧ (p.lane l).fell = false) (hp : p.patrol.Rests) :
    enterRunning p = p.begunRunning.push [.repairTake, .patrolTry, .rebuildBegin] := by
  set q : Part := { p with
    engine := { p.engine with state := .running, attach := .idle }
    docket := { p.docket.startPoll.sweeping with xfer := some (.consumedRead true) } } with hq
  have hdue : p.docket.startPoll.due = { p.docket.startPoll.sweeping with xfer := some (.consumedRead true) } :=
    Docket.due_idle hd hx hc
  have harrive : allLanes.foldl (fun q l => takeHeld l (q.modLane l fun L => { L with absent := false })) q =
      q.mapLanes Lane.unheld := by
    refine foldl_mapLanes fun r l hr => ?_
    obtain ⟨hheld, hfell⟩ : (r.lane l).held = false ∧ (r.lane l).fell = false := by rw [hr]; exact hh l
    rw [Part.modLane_eq, ← Lane.unheld_eq hheld hfell]
    unfold takeHeld
    rw [Part.lane_setLane, if_pos rfl]
    rfl
  have hrunning : enterRunning p = takeUp (allLanes.foldl
      (fun q l => takeHeld l (q.modLane l fun L => { L with absent := false }))
      { p with
        engine := { p.engine with state := .running, attach := .idle }
        docket := p.docket.startPoll.due }) := rfl
  rw [hrunning, hdue, harrive, takeUp, patrolTimers_rests (show (q.mapLanes Lane.unheld).patrol.Rests from hp)]
  rfl

/-- Nothing but the lanes' noted changes, the docket and the journal differs from the part at its reset values. -/
structure Part.Bare (p : Part) : Prop where
  lanes : ∀ l, (p.lane l).runtime = .empty ∧ (p.lane l).identified = false
  table : ∀ e, p.entry e = none
  volumes : ∀ v, p.vol v = .clear
  committer : p.committer = .reset
  repair : p.repair = .reset
  patrol : p.patrol = .reset
  rebuild : p.rebuild = .reset

/-- The ASSEMBLY event of the empty set (R72). -/
abbrev emptyAssembly : Event := assemblyEvent none assemblyEmpty [.empty, .empty, .empty, .empty] 0

/-- The part with the empty set assembled and its first commit finished. -/
def Part.emptyAssembled (p : Part) : Part :=
  { p with engine := { p.engine with attach := .firstCommits, mark := .none }, journal := p.journal.take emptyAssembly }

section
variable {p : Part} (hs : p.engine.state = .attaching)
include hs

/-- The empty set is assembled, and its first commit, which has no target, finishes (R69, R73). -/
theorem assemble_bare (ha : p.engine.attach = .identifying) (h : p.Bare) :
    assemble p = p.emptyAssembled.push [.commitDone] := by
  obtain ⟨hl, he, hv, hc, hr, -, hb⟩ := h
  have hgoverning : p.governing allLanes = none :=
    Part.governing_eq_none.2 fun l _ => by simp [Part.candidate, (hl l).2]
  have hstates : allLanes.map (fun l => (p.lane l).runtime) = [.empty, .empty, .empty, .empty] :=
    List.map_congr_left fun l _ => (hl l).1
  have hgeneration : p.committer.generation = 0 := by rw [hc]; rfl
  have htaken : passEvent emptyAssembly p = { p with journal := p.journal.take emptyAssembly } :=
    passEvent_taken _ p (by rw [hs]; decide) (by rw [hs]; decide)
  set q : Part := { p with
    engine := { p.engine with attach := .firstCommits, mark := .waiting }
    journal := p.journal.take emptyAssembly }
  have hrequest : requestCommit q = startCommit q := by
    have hidle : q.committer.inFlight.isSome = false := by
      show p.committer.inFlight.isSome = false
      rw [hc]
      rfl
    exact (requestCommit_taken (p := q) (.inl ⟨hs, rfl⟩)).trans (if_neg (Bool.eq_false_iff.1 hidle))
  have hserviceable (l : LaneId) : q.serviceable l = false := by
    show (p.lane l).runtime.serviceable = false
    rw [(hl l).1]
    rfl
  rw [assemble_none hs ha (fun l => by rw [(hl l).1]; decide) hgoverning, Part.assemblyReported, hstates, hgeneration, htaken]
  exact hrequest.trans (startCommit_empty hserviceable he hv hc hr hb)

/-- Engine control finds its first commit finished and enters RUNNING (R73). -/
theorem commitDone_enters (ha : p.engine.attach = .firstCommits) (hm : p.engine.mark = .none) (hc : p.committer = .reset) :
    commitDone p = enterRunning p := by
  have hfinished : ¬ (p.committer.inFlight.isSome || p.committer.requested || decide (p.engine.mark ≠ .none)) = true := by
    rw [hc, hm]
    decide
  unfold commitDone
  rw [if_neg hfinished, hs]
  exact if_pos ha

end

theorem Patrol.reset_rests : Patrol.reset.Rests := ⟨rfl, by decide, by decide, by decide, by decide⟩

/-- From the test for assembly to the units' rest, in one step. -/
theorem settle_emptyAssembly {p : Part} (hag : p.agenda = []) (hs : p.engine.state = .attaching)
    (ha : p.engine.attach = .identifying) (h : p.Bare) (hh : ∀ l, (p.lane l).held = false ∧ (p.lane l).fell = false)
    (hd : p.docket.sweep = none) (hx : p.docket.xfer = none) (hc : p.docket.completions = []) :
    settle Config.stepFuel (p.push [.assemble]) = p.emptyAssembled.begunRunning := by
  have hpatrol : p.patrol.Rests := h.patrol ▸ Patrol.reset_rests
  have hrunning : commitDone p.emptyAssembled =
      p.emptyAssembled.begunRunning.push [.repairTake, .patrolTry, .rebuildBegin] :=
    (commitDone_enters (p := p.emptyAssembled) hs rfl rfl h.committer).trans
      (enterRunning_eq (p := p.emptyAssembled) hd hx hc hh hpatrol)
  have hlist : p.repair.list = [] := by rw [h.repair]; rfl
  have htarget : p.rebuild.target = none := by rw [h.rebuild]; rfl
  have htasks : Taken p.emptyAssembled.begunRunning [.repairTake, .patrolTry, .rebuildBegin] p.emptyAssembled.begunRunning :=
    ((taken_repairRests (q := p.emptyAssembled.begunRunning) hag rfl hlist).append
      (taken_patrolRests (q := p.emptyAssembled.begunRunning) hag hpatrol)).append
        (taken_rebuildRests (q := p.emptyAssembled.begunRunning) hag htarget)
  show settle (65534 + 1 + 1) _ = _
  rw [settle_push _ _ _ hag, Part.push_nil]
  show settle (65534 + 1) (assemble p) = _
  rw [assemble_bare hs ha h, settle_push (q := p.emptyAssembled) _ _ _ hag, Part.push_nil]
  show settle 65534 (commitDone p.emptyAssembled) = _
  rw [hrunning]
  exact settle_taken htasks hag (by decide)

/-- With no lane present, the empty set is assembled, its first commit finishes, and the engine is RUNNING. -/
theorem exec_lostWrite_empty {s : State} (ha : s.part.agenda = []) (hs : s.part.engine.state = .attaching)
    (hat : s.part.engine.attach = .lostWrite) (hl : ∀ l, (s.part.lane l).present = false) (hb : s.part.Bare)
    (hd : s.part.docket.sweep = none) (hx : s.part.docket.xfer = none) (hc : s.part.docket.completions = []) :
    exec (.attachHeaderWrite .done) s = .next (s.withPart { s.part.mapLanes Lane.unheld with
      engine := { s.part.engine with state := .running, attach := .idle, mark := .none }
      journal := s.part.journal.take emptyAssembly
      docket := { s.part.docket.startPoll.sweeping with xfer := some (.consumedRead true) } }) := by
  set p := (s.part.modEngine fun g => { g with attach := .identifying }).mapLanes Lane.noted with hp
  have hlane (l : LaneId) : p.lane l = (s.part.lane l).noted := Part.lane_mapLanes _ Lane.noted l
  have hbegin : attachHeaderWritten .done s.part = p.push [.assemble] := by
    rw [attachHeaderWritten_lost hat, assemblyBegin_eq,
      foldl_mapLanes fun q l hq => assemblyStart_absent (by rw [hq]; exact hl l)]
  have hbare : p.Bare := { hb with lanes := fun l => by rw [hlane]; exact hb.lanes l }
  have hunheld (l : LaneId) : (p.lane l).held = false ∧ (p.lane l).fell = false := by rw [hlane]; exact ⟨rfl, rfl⟩
  have hsettle : settle Config.stepFuel (attachHeaderWritten .done s.part) = p.emptyAssembled.begunRunning := by
    rw [hbegin]
    exact settle_emptyAssembly (p := p) ha hs rfl hbare hunheld hd hx hc
  have hlanes : (p.mapLanes Lane.unheld).lanes = (s.part.mapLanes Lane.unheld).lanes := by
    simp only [hp, Part.mapLanes_lanes, Part.modEngine_lanes, Vector.map_map]
    rfl
  refine (State.act_of_settle hsettle (Part.haltTested_of_state (show EngineState.running ≠ .halting by decide))).trans ?_
  refine congrArg (fun z => Host.Outcome.next (s.withPart z)) ?_
  show ({ p.emptyAssembled.begunRunning with lanes := (p.mapLanes Lane.unheld).lanes } : Part) = _
  rw [hlanes]
  rfl

end Sys2Proof.Machine
end

section
/-!
Identification in ATTACHING (R68), and O13.
-/
namespace Sys2Proof.Machine

/-! ## Identification ends in ATTACHING (R32, R68) -/

section
variable {p : Part} {l : LaneId} (hs : p.engine.state = .attaching)
include hs

/-- In ATTACHING with no volume in use a lane changes its state alone, without an event (R5, R42). -/
theorem changeRuntime_attaching (hv : ∀ v, (p.vol v).inUse = false) (new : RuntimeState) (c : LaneCause) (tag : Word) :
    changeRuntime l new c tag p = (p.setLane l { p.lane l with runtime := new }).push [.patrolTry] := by
  set q := p.setLane l { p.lane l with runtime := new }
  have hchange : changeRuntime l new c tag p = (deriveVolumes l tag (if p.engine.state = .attaching then q
      else passEvent (laneStateEvent l (p.lane l).runtime new c tag) q)).push [.patrolTry] := rfl
  have hunnamed : q.volumesOf l = [] :=
    List.filter_eq_nil_iff.2 fun v _ => by
      rw [show (q.vol v).inUse = false from hv v]
      exact Bool.false_ne_true
  rw [hchange, if_pos hs, deriveVolumes_unnamed hunnamed]

theorem identifyEnded_attaching (hh : (p.lane l).held = false) : identifyEnded l p = p.push [.assemble] := by
  have hheld : takeHeld l p = p := by
    unfold takeHeld
    exact if_pos (by rw [hh]; rfl)
  unfold identifyEnded
  rw [if_pos hs, hheld]

/-- A lane whose identification has ended in ATTACHING has its new state, and assembly is tested. -/
theorem identifyEnded_changeRuntime (hh : (p.lane l).held = false) (hv : ∀ v, (p.vol v).inUse = false) (new : RuntimeState)
    (c : LaneCause) (tag : Word) : identifyEnded l (changeRuntime l new c tag p) =
      (p.setLane l { p.lane l with runtime := new }).push [.patrolTry, .assemble] := by
  have hlane : (p.setLane l { p.lane l with runtime := new }).lane l = { p.lane l with runtime := new } :=
    (Part.lane_setLane ..).trans (if_pos rfl)
  rw [changeRuntime_attaching hs hv, identifyEnded_attaching (p := (p.setLane l _).push _) hs (by
    rw [Part.push_lane, hlane]
    exact hh)]
  exact Part.push_append ..

/-- An identification that fails leaves the lane FAILED and unidentified (R28, R32). -/
theorem linkFailure_attaching (hi : (p.lane l).runtime = .identifying) (hh : (p.lane l).held = false)
    (hv : ∀ v, (p.vol v).inUse = false) : linkFailure l p =
      (p.setLane l { (p.lane l).unidentified with runtime := .failed, txn := none }).push [.patrolTry, .assemble] := by
  set q := p.setLane l { (p.lane l).unidentified with txn := none }
  have hlane : q.lane l = { (p.lane l).unidentified with txn := none } := (Part.lane_setLane ..).trans (if_pos rfl)
  have hfails : linkFailure l p = identifyEnded l (changeRuntime l .failed .identFailed 0 q) := by
    simp only [linkFailure, hi]
    rfl
  rw [hfails, identifyEnded_changeRuntime (p := q) hs (by rw [hlane]; exact hh) hv, hlane, Part.setLane_setLane]

/-- The committer once a lane's record slots are read in ATTACHING: the serials read are seen (R57, R65). -/
def Committer.noteSlots (c : Committer) (l : LaneId) (a b : Option SetRecord) : Committer :=
  { c.noteNewest l (newestRecord a b) with
    seen := c.seen ++ (a.map (·.serial)).toList ++ (b.map (·.serial)).toList }

/-- An identification that succeeds leaves the lane FOREIGN for assembly to map (R68; log 23). -/
theorem identifySucceeded_attaching (hat : p.engine.attach = .identifying) (hh : (p.lane l).held = false)
    (hv : ∀ v, (p.vol v).inUse = false) (serial : BitVec 64) (capacity largest : Word) (a b : Option Block) :
    identifySucceeded l serial capacity largest a b p =
      ({ p.setLane l { (p.lane l).known serial capacity largest with runtime := .foreign } with
        committer := p.committer.noteSlots l (parseRecord a) (parseRecord b) } : Part).push [.patrolTry, .assemble] := by
  set q : Part := { p.setLane l ((p.lane l).known serial capacity largest) with
    committer := p.committer.noteSlots l (parseRecord a) (parseRecord b) } with hq
  have hlane : q.lane l = (p.lane l).known serial capacity largest := (Part.lane_setLane p l l _).trans (if_pos rfl)
  have hsucceeds : identifySucceeded l serial capacity largest a b p =
      identifyEnded l (changeRuntime l .foreign .arrival 0 q) := by
    simp only [identifySucceeded, Part.modLane_engine, hs, hat, decide_true, Bool.and_true, if_true]
    rfl
  rw [hsucceeds, identifyEnded_changeRuntime (p := q) hs (by rw [hlane]; exact hh) hv, hlane]
  refine congrArg (Part.push · _) ?_
  show ({ (p.setLane l _).setLane l _ with committer := _ } : Part) = _
  rw [Part.setLane_setLane]

end

/-- The answer to a command that hands tasks on is theirs. -/
theorem State.act_of_pushed {f : Part → Part} {s : State} {q : Part} {ts : List Task} (hf : f s.part = q.push ts)
    (hq : q.agenda = []) : s.act f = (s.withPart { q with agenda := ts }).act id := by
  refine State.act_withPart (hf.trans ?_)
  unfold Part.push
  rw [hq]
  rfl

section
variable {s : State} (ha : s.part.agenda = []) (hs : s.part.engine.state = .attaching) {l : LaneId}
  (hi : (s.part.lane l).runtime = .identifying) (hh : (s.part.lane l).held = false) (hv : ∀ v, (s.part.vol v).inUse = false)
include ha hs hh hv

include hi in
theorem exec_identReply_attaching {serial : BitVec 64} {capacity largest : Word} (hw : (s.part.lane l).awaited = some .ident)
    (hc : capacity.toNat < 1024 ∨ largest.toNat < 16) : exec (.identReply l serial capacity largest) s =
      (s.withPart { s.part.setLane l { (s.part.lane l).unidentified with runtime := .failed, txn := none } with
        agenda := [.patrolTry, .assemble] }).act id := by
  have hfails : identReplyTaken l serial capacity largest s.part =
      (s.part.setLane l { (s.part.lane l).unidentified with runtime := .failed, txn := none }).push [.patrolTry, .assemble] :=
    (identReplyTaken_fails hw hc).trans (linkFailure_attaching hs hi hh hv)
  exact State.act_of_pushed hfails ha

theorem exec_slotRead_attaching (hat : s.part.engine.attach = .identifying) {serial : BitVec 64} {capacity largest : Word}
    {codes : List Byte} {ss : List Status} {data : List Block} {a b : Option Block}
    (hw : (s.part.lane l).awaited = some (.read 0 2))
    (hid : (s.part.lane l).identification = some (.slots serial capacity largest)) (hn : codes.length = 2)
    (hss : readStatuses codes = some ss) (hdata : data.length = (ss.filter Status.readable).length)
    (hc : slotContents ss data = [a, b]) : exec (.readReply l codes data) s =
      (s.withPart { s.part.setLane l { ((s.part.lane l).countRead ss).known serial capacity largest with runtime := .foreign } with
        committer := s.part.committer.noteSlots l (parseRecord a) (parseRecord b)
        agenda := [.patrolTry, .assemble] }).act id := by
  set x : Lane := { (s.part.lane l).countRead ss with txn := none } with hx
  have hlane : (s.part.setLane l x).lane l = x := (Part.lane_setLane s.part l l x).trans (if_pos rfl)
  have hsucceeds := identifySucceeded_attaching (p := s.part.setLane l x) (l := l) hs hat (by rw [hlane]; exact hh) hv serial
    capacity largest a b
  rw [hlane, Part.setLane_setLane] at hsucceeds
  have hread : readReplyTaken l codes data s.part =
      ({ s.part.setLane l { x.known serial capacity largest with runtime := .foreign } with
        committer := s.part.committer.noteSlots l (parseRecord a) (parseRecord b) } : Part).push [.patrolTry, .assemble] :=
    (readReplyTaken_statuses hw hn hss hdata).trans ((readCompleted_slots hid hc).trans hsucceeds)
  exact (State.act_of_pushed hread ha :)

end

/-! ## What assembly loads (R70, R71, R149, R150) -/

section
variable {p : Part} {r : SetRecord} {k : LaneId}

theorem Part.matching_eq_some {x : SetRecord} : p.matching r k = some x ↔
    p.candidate k = some x ∧ x.serial = r.serial ∧ (p.lane k).serial = r.lanes[k.val].serial ∧ (p.lane k).serial ≠ 0
      ∧ r.lanes[k.val].recorded ≠ .unbound := by
  simp only [Part.matching, Option.filter_eq_some_iff, Bool.and_eq_true, decide_eq_true_eq]
  tauto

/-- A lane that identified no module keeps its state through assembly (R70). -/
theorem Part.mapped_unidentified (h : (p.lane k).identified = false) : p.mapped r k = (p.lane k).runtime := by
  unfold Part.mapped
  exact if_pos (by rw [h]; rfl)

/-- An identified module that matches no position is FOREIGN. -/
theorem Part.mapped_none (h : (p.lane k).identified = true) (hm : p.matching r k = none) : p.mapped r k = .foreign := by
  unfold Part.mapped
  dsimp only
  rw [if_neg (by rw [h]; decide), hm]

/-- The state of a module that matches its position (R70). -/
theorem Part.mapped_some {x : SetRecord} (h : (p.lane k).identified = true) (hm : p.matching r k = some x) : p.mapped r k =
    if r.lanes[k.val].recorded = .failed then .failed
    else if r.lanes[k.val].recorded = .offline then .offline
    else if r.lanes[k.val].recorded = .online ∧ x.generation = r.generation then
      if r.lanes[k.val].budget = 0 then .failed else .online
    else .stale := by
  unfold Part.mapped
  dsimp only
  rw [if_neg (by rw [h]; decide), hm]
  by_cases hg : x.generation = r.generation <;> cases hr : r.lanes[k.val].recorded <;> simp [hg]

end

/-- What assembly makes of a lane: its state, its entry of the lane table, and its own remap state (R70, R71, R110). -/
theorem Part.assembledLane_eq (p : Part) (r : SetRecord) (k : LaneId) : p.assembledLane r k = { p.lane k with
    runtime := p.mapped r k
    recorded := if (r.lanes[k.val].recorded = .online ∨ r.lanes[k.val].recorded = .rebuilding) ∧ p.mapped r k ≠ .online
      then .departed else r.lanes[k.val].recorded
    boundSerial := r.lanes[k.val].serial, budget := r.lanes[k.val].budget
    remap := ((p.matching r k).map (·.remap)).getD [], spareNext := ((p.matching r k).map (·.spareNext)).getD 0
    deadSpares := ((p.matching r k).map (·.deadSpares)).getD 0
    sparesLow := decide (224 ≤ ((p.matching r k).map (·.spareNext)).getD 0) } := by
  simp only [Part.assembledLane, Bool.and_eq_true, Bool.or_eq_true, decide_eq_true_eq]
  rfl

theorem Volume.clear_inUse {x : Volume} (h : x = .clear) : x.inUse = false := by
  rw [h]
  rfl

/-- Settles O13, by the step that each end of a transfer leads to, and by what assembly loads. -/
theorem attachHeaderWritesLeadToIdentification : Obligations.AttachHeaderWritesLeadToIdentification := by
  intro s ha hs
  refine ⟨fun hat => ⟨?_, ?_⟩, fun hat => ⟨?_, ?_⟩,
    fun hat => ⟨?_, fun hp hl => ?_, fun hl he hv hc hr hp hb hd hx hcs => ?_⟩,
    fun l hi hh hv => ⟨fun serial capacity largest hw hc => ?_,
      fun serial capacity largest codes ss data a b hat hw hid hn hss hdata hc => ?_⟩,
    fun p => ⟨fun l r => Part.candidate_eq_some, ?_, fun l r => ?_⟩,
    fun p hs ha hv => ⟨?_, fun hi => ⟨fun hg => ?_, fun l r hg => ⟨?_, ?_⟩⟩⟩,
    fun p r hv hn => ?_⟩
  · simp [attachWrite_eq, hat]
  · exact exec_attachHeaderWrite_next ha hs (attachHeaderWritten_tally hat)
  · simp [attachWrite_eq, hat]
  · exact exec_attachHeaderWrite_next ha hs (attachHeaderWritten_written hat)
  · simp [attachWrite_eq, hat]
  · obtain ⟨t, ht, hengine, hlane⟩ := exec_lostWrite_identifies ha hs hat hp fun l => (hl l).2
    refine ⟨t, ht, hengine, fun l => ?_⟩
    rw [hlane]
    refine ⟨Lane.assembling_present _, fun h => ?_, fun h => ?_⟩
    · rw [Lane.assembling, if_pos h]
      exact ⟨rfl, rfl, rfl⟩
    · rw [Lane.assembling, if_neg (Bool.eq_false_iff.1 h)]
      exact ⟨(hl l).1, by rw [Lane.noted, h]; rfl, rfl⟩
  · have hbare : s.part.Bare := ⟨fun l => ⟨(hl l).2.2, (hl l).2.1⟩, he, hv, hc, hr, hp, hb⟩
    exact exec_lostWrite_empty ha hs hat (fun l => (hl l).1) hbare hd hx hcs
  · exact exec_identReply_attaching ha hs hi hh hv hw hc
  · rw [exec_slotRead_attaching ha hs hh hv hat hw hid hn hss hdata hc]
    rfl
  · exact Part.governing_eq_none.trans ⟨fun h l => h l (mem_allLanes l), fun h l _ => h l⟩
  · exact Part.governing_eq_some.trans
      (and_congr_right' ⟨fun h k x => h k (mem_allLanes k) x, fun h k _ x => h k x⟩)
  · exact fun ⟨l, hl⟩ => assemble_identifying hl
  · exact assemble_none hs ha hi hg
  · exact fun hc hvol => assemble_unclean hs ha hi hg hv hc hvol
  · exact fun h => assemble_clean hs ha hi hg hv h
  · intro t usable loaded work
    have hin (v : VolId) : (p.vol v).inUse = false := Volume.clear_inUse (hv v)
    have hpatrol : r.patrolUnit = work := by
      refine Patrol.assembled_eq r.plan r.patrol r.checkpoint loaded ?_
      simp only [loaded]
      cases r.plan <;> rfl
    refine ⟨loadSet_committer p r, fun k => ?_, fun x hx => loadSet_vol_entry hn hx,
      fun v hvr => (loadSet_vol_other hn hvr (hin v)).trans (hv v), fun h => ?_, fun hc hvol => ?_⟩
    · intro own matching runtime
      have hruntime : p.mapped r k = runtime := by
        by_cases hid : (p.lane k).identified = false
        · exact (Part.mapped_unidentified hid).trans (if_pos hid).symm
        · refine Eq.trans ?_ (if_neg hid).symm
          have hmatching : p.matching r k = matching := rfl
          clear_value matching
          cases matching with
          | none => exact Part.mapped_none (Bool.of_not_eq_false hid) hmatching
          | some x => exact Part.mapped_some (Bool.of_not_eq_false hid) hmatching
      refine ⟨fun x => Part.matching_eq_some, (loadSet_lane p r k).trans ((Part.assembledLane_eq p r k).trans ?_)⟩
      rw [hruntime]
    · exact (loadSet_patrol_clean hin h).trans hpatrol
    · refine (loadSet_patrol_unclean hin hc hvol).trans ?_
      rw [hpatrol]
      rfl

end Sys2Proof.Machine
end
